-- ==== Sys2Proof/Word.lean ====
section
/-!
DEFINITION. The word types of the FIS-64 model: bytes, 64-bit words, and the sparse table type that holds
numbered resources (ports, compartments, queues).
-/
namespace Sys2Proof

/-- One byte. -/
abbrev Byte := BitVec 8

/-- One 64-bit word. -/
abbrev Word := BitVec 64

/-- The name of a numbered resource: up to three numbers, unused ones 0. -/
abbrev Key := Nat × Nat × Nat

/-- A sparse table over numbered resources. A key that is not listed holds the table's default value; the
canonical form (keys strictly rising, no entry equal to the default) is `tabWf` of Machine/Tab.lean. -/
abbrev Tab (α : Type) := List (Key × α)

end Sys2Proof
end

