-- ==== Sys2Proof/Records.lean ====
section
/-!
DEFINITION. The enumerations and records that commands carry and that the state holds: the Laent opcodes, statuses
and message contents (R395, R396, R413, R414), the modes (R10), the timing states (R13) and the variants (R1).
-/
namespace Sys2Proof

/-- The order variants of R1. -/
inductive Variant where
  | f | m | e
  deriving DecidableEq, Repr

/-- The operating modes of R10. -/
inductive Mode where
  | sealed | staged | forwarding | frozen | degraded | halted
  deriving DecidableEq, Repr

/-- The code of a mode in `MOD.STATUS.MODE` (R409). -/
def Mode.code : Mode → Nat
  | .sealed => 0 | .staged => 1 | .forwarding => 2 | .frozen => 3 | .degraded => 4 | .halted => 5

/-- The timing states of R13. -/
inductive TimState where
  | free | acquiring | locked | holdoverCart | holdoverTcxo
  deriving DecidableEq, Repr

/-- The code of a timing state in `TIM.STATUS.STATE` (R71). -/
def TimState.code : TimState → Nat
  | .free => 0 | .acquiring => 1 | .locked => 2 | .holdoverCart => 3 | .holdoverTcxo => 4

/-- The response statuses of R396. -/
inductive Status where
  | ok | accepted | busy | zeroLen | range | absent | staleRotation | denied | fenced | noSpace
  | cutLimit | badSig | timeout | notFrozen | frozen | needsUnit | lateRing | crc | unknownOp
  deriving DecidableEq, Repr

/-- The status codes of R396. -/
def Status.code : Status → Nat
  | .ok => 0 | .accepted => 1 | .busy => 2 | .zeroLen => 3 | .range => 4 | .absent => 5
  | .staleRotation => 6 | .denied => 7 | .fenced => 8 | .noSpace => 9 | .cutLimit => 10 | .badSig => 11
  | .timeout => 12 | .notFrozen => 13 | .frozen => 14 | .needsUnit => 15 | .lateRing => 16 | .crc => 17
  | .unknownOp => 18

/-- The Laent opcodes of R425 to R432. -/
inductive Op where
  | identityRead | barrier | portCfgWrite | radioWinWrite | portReset | portRead | cageRead
  | timSrcWrite | timCtlWrite | timRealign | timSrcRead
  | baseBundleLoad | cmpBundleLoad | bundleList | abortFrameRead
  | stageOpen | stageAbort | cutCommit | cutCommitSigned | listWrite | actionWrite | actdataWrite | psetWrite
  | cutHdrWrite | parseWrite | cutRead
  | emTblWrite | emStaticWrite | emLearnWrite | emFlush | emLookup
  | trieTblWrite | trieAdd | trieDelete | trieLookup
  | grvPairWrite | grvTblWrite | grvWrite | grvGmaskWrite | grvRead
  | poolCfgWrite | lndCfgWrite | glistWrite | gateSwitch | shapeWrite | shareWrite | schedRead
  | spillCfgWrite | dramCfgWrite
  | tallyCfgWrite | tallyPagesWrite | tallyRead | cvAssign | cvCfgWrite | cvArm | cvDisarm | cvRead
  | counterRead | counterProgram | blazeCfgWrite
  | cmpDefine | cmpQuotaWrite | cmpDelete | cmpAttach | cmpDetach | krfRegionWrite | cmpReset | freeze | thaw
  | save | restore | cmpRead
  | spdm | secured | ownerEnrol | cutKeySet | keyInstall | keyDelete | keyExport | secyAlloc | secyWrite
  | rxScWrite | saInstall | saSwitch | saDelete
  | faultRead | firebreakLift | firebreakRaise | factoryMode
  | modeSet | restart | configSave | groupSleep | nightTrimWrite | calExport | calImport | calWrite
  | pairCfgWrite | pairSwitchover | pairStatusRead
  deriving DecidableEq, Repr

/-- The rights codes of R415. -/
inductive Rights where
  | any | manager | owner | managerOrOwner
  deriving DecidableEq, Repr

/-- The effect codes of R416. -/
inductive Eff where
  | now | next | target | stage
  deriving DecidableEq, Repr

/-- What payload an opcode takes (R395, R419). -/
inductive Pay where
  | none
  | fixed (n : Nat)
  | records (n : Nat)
  | form
  deriving DecidableEq, Repr

/-- A public key and the message over which a signature verifies under it (R458). -/
structure SigOver where
  key : List Byte := []
  msg : List Byte := []
  deriving DecidableEq, Repr

/-- A Laent command as the Ranger carries it out: the header fields of R395 and the arguments of R413, and its
payload as fetched. `inner` says that it arrived as the inner message of SECURED (R399). `auth` is the verdict of
the cryptographic verification that the command's payload needs, where it needs one (a signature, a wrapping or a
certificate chain of R458): the verification itself is the environment's. -/
structure Req where
  cid      : Fin 32
  tag      : BitVec 32 := 0
  rotation : BitVec 16 := 0
  inner    : Bool := false
  auth     : Bool := false
  arg0     : BitVec 64 := 0
  arg1     : BitVec 32 := 0
  outAddr  : BitVec 64 := 0
  outLen   : BitVec 32 := 0
  payload  : List Byte := []
  /-- What a signature that comes with the payload verifies over, and under which key (R461, R475). -/
  sig      : SigOver := {}
  deriving DecidableEq, Repr

/-! ## What a cut holds (R128) -/

/-- A static exact-match entry as a cut holds it (R162). `uid` names the stored entry, so that cuts that share it
count it once (R129, R130). The key is left-aligned in 160 bits. -/
structure EmStatic where
  uid   : Nat
  table : Nat
  wide  : Bool
  key   : BitVec 160
  res   : BitVec 64
  deriving DecidableEq, Repr

/-- A prefix as a cut holds it (R189): the address left-aligned in 128 bits. -/
structure Pfx where
  uid   : Nat
  table : Nat
  len   : Nat
  addr  : BitVec 128
  res   : BitVec 64
  deriving DecidableEq, Repr

/-- The last staging write that touched a prefix of an instance (R190): which structures a cut shares. -/
structure PfxTouch where
  table : Nat
  len   : Nat
  addr  : BitVec 128
  stamp : Nat
  deriving DecidableEq, Repr

/-- The content of a cut or of a staging area (R128). -/
structure CutBody where
  /-- `PAR.CMP` (R110). -/
  parCmp : BitVec 32 := 0
  malAction : Nat := 0
  defAction : Nat := 0
  /-- `BUDGET_MODE`: true = send unrewritten (R143). -/
  budget : Bool := false
  actCount : Nat := 0
  /-- `CUT.LIST[0..7]` (R131). -/
  lists : Tab (BitVec 256) := []
  /-- Action entries, action-data words and port sets, each with the number of the write that made it. -/
  acts : Tab (Option (Nat × BitVec 128)) := []
  data : Tab (Option (Nat × BitVec 128)) := []
  psets : Tab (Option (Nat × BitVec 64)) := []
  /-- `EM.TBL[0..15]` (R161) and `EM.LEARN` (R165). -/
  emTbl : Tab (BitVec 64) := []
  emLearn : BitVec 256 := 0
  emStatic : List EmStatic := []
  /-- `TRIE.TBL[0..15]` (R179) and the prefixes. -/
  trieTbl : Tab (BitVec 64) := []
  pfx : List Pfx := []
  touch : List PfxTouch := []
  /-- `GRV.TBL` and `ODG.TBL` (R200): (instance, 0 Grove dies or 1 on-die). -/
  grvTbl : Tab (BitVec 64) := []
  /-- Global masks, left-aligned in 1,280 bits (R202); none = all ones. -/
  gmask : Tab (Option (BitVec 1280)) := []
  deriving DecidableEq, Repr

/-- A grove entry version (R203, R204): value and mask left-aligned in 1,280 bits. Array 0 to 3 is a Grove die (the
lower die of a pair), 4 the on-die grove. -/
structure GrvEnt where
  arr   : Nat
  index : Nat
  cid   : Nat
  table : Nat
  width : Nat
  prio  : Nat
  birth : Nat
  death : Nat
  id    : Nat
  res   : BitVec 64
  value : BitVec 1280
  mask  : BitVec 1280
  /-- Ring from which the entry is suppressed (R211), and the ring of its last NOTE. -/
  supp  : Option Nat := none
  noted : Option Nat := none
  deriving DecidableEq, Repr

/-- A MACsec secure association `MSEC.SA` with its key handle (R98). -/
structure SaRec where
  handle : Nat
  an     : Nat
  tx     : Bool
  sc     : Nat
  pn     : Nat
  ssci   : BitVec 32
  inUse  : Bool := false
  /-- The key that it names has been deleted since: it never comes into use again (R474). -/
  dead   : Bool := false
  deriving DecidableEq, Repr

/-- A SecY as it is captured by SAVE (R448). -/
structure SavedSecy where
  port : Nat
  idx  : Nat
  rec_ : BitVec 128
  scs  : List (Nat × BitVec 64 × Bool)
  sas  : List SaRec
  deriving DecidableEq, Repr

/-- The state that SAVE captures of a compartment (R448) and that the encrypted body of a blob carries (R449). -/
structure Saved where
  srcCid : Nat
  ring   : Nat
  nonce  : Nat
  body   : Option CutBody
  grove  : List GrvEnt
  /-- Learned entries: table, wide, key, result. -/
  learned : List (Nat × Bool × BitVec 160 × BitVec 64)
  /-- The signed kerf section of the compartment's bundle. -/
  image  : List Byte
  /-- `SIG.KEY_ID` of the section's signature (R461), and whether that signature verifies under the key it names. -/
  signer : List Byte := []
  sigOk  : Bool := true
  /-- Key-store slots: old handle, type, exportable, key. -/
  keys   : List (Nat × Nat × Bool × List Byte)
  cutKey : List Byte
  secys  : List SavedSecy
  tallyCfg : BitVec 64
  deriving DecidableEq, Repr

/-- The encoding of a saved state, which the manual does not give (R449). -/
opaque Config.savedBytes : Saved → List Byte

/-! ## Findings that the environment reports with a command

What a wire, a memory or a sensor shows is not the module's to decide: these records carry it. -/

/-- A frame as the MAC receives it: `fcsOk` the FCS verdict, `code` a coding or preamble error, `express` the
express or the preemptable MAC, `bytes` the frame without FCS. `icvOk` is the verdict of the MACsec integrity check
(R100) and `plain` the frame that the decryption yields. `parser`, `rule` and `table` list the store errors found
while the frame is handled; `ptr` the free-ring pointers that fail their check (R304). -/
structure RxFrame where
  fcsOk : Bool := true
  bytes : List Byte
  icvOk : Bool := true
  plain : List Byte := []
  /-- Parser records found bad: (0 node or 1 transition, index, corrected). -/
  parser : List (Nat × Nat × Bool) := []
  /-- Rule records found bad (R149): (0 list, 1 action or 2 port set, index). -/
  rule : List (Nat × Nat) := []
  /-- Exact-match words found bad by the lookups (R174): (bank, index); bank 4 holds the stash entries and 5 the
  version records. -/
  em : List (Nat × Nat) := []
  /-- Trie words found bad (R191): (list, store, boundary, number in the entry). -/
  trie : List (Nat × Nat × Nat × Nat) := []
  /-- Grove side records found bad (R211): (array, index). -/
  grove : List (Nat × Nat) := []
  /-- Free-ring pointers found bad, first to last: check 0 range, 1 alignment, 2 state, with the pointer. -/
  ptr : List (Nat × Nat) := []
  /-- RS codewords corrected and found uncorrectable since the last frame. -/
  fecCorr : Nat := 0
  fecUncorr : Nat := 0
  deriving DecidableEq, Repr

/-- What the row HALT brings: a finding of the power supply in the order of R562; an uncorrectable or a corrected error of
Ranger memory at an address (R485); or an uncorrectable error in the cut images that the Ranger keeps (R483). -/
inductive HaltFind where
  | supply (k : Fin 4) | memUncorr | memCorr | cutImage
  deriving DecidableEq, Repr

/-- An SPDM request, as DMTF DSP0274 reads its bytes (R463, R466, R469). `ok` of FINISH is the verdict of the mutual
authentication. -/
inductive Spdm where
  | getVersion | getCapabilities | negotiate | getDigests
  | getCertificate (slot : Nat)
  | challenge
  | getMeasurements (index : BitVec 8)
  | keyOffer (key : List Byte)
  | keyExchange
  | finish (ok : Bool)
  | heartbeat | keyUpdate | endSession | other
  deriving DecidableEq, Repr

/-- The named counters, in the order of the chapters' counter tables (R521). -/
inductive Ctr where
  | timRej
  | rxFrames | rxBytes | rxFcs | rxLen | rxFecCorr | rxFecUncorr | rxUnattached | rxPfc | rxPauseIgnored | rxMacCtlOther | rxPfcGated | txFrames | txBytes | txPfc | txDownDiscard | txOversize | radioEcpri | radioEcpriOther | radioBadRev | radioRoe | radioEarly | radioLate | rxSecyMismatch | msecNoSc | msecNoSa | msecIcv | msecReplay | msecBadTag | msecUntagged | msecTxNoSecy | msecTxNoSa | msecPnExhausted | cageTimeout | cageRange
  | parFrames | parNoCut | parHznDepth | parHznBytes | parMal | parParity
  | ruleHit | ruleMiss | ruleDefault | ruleDiscard | ruleNoPort | rulePortDenied | ruleBudgetDiscard | ruleBudgetUnrewritten | ruleParity
  | emLearnOk | emLearnMove | emLearnDup | emLearnStatic | emLearnStale | emRefRate | emRefQuota | emRefModule | emRefFull | emAged | emFlushed | emParity
  | trieParityMiss | trieParity
  | grvFencedSearch | grvMoves | grvParity
  | krfRoutines | krfBypass | krfDrop | krfTrap | krfAbort | krfFetch | krfPtpBad | krfFenceDiscard | krfStoreParity | krfActParity | krfPeakUsed | krfPeakBusy
  | lndFencedPort | lndFrozenDiscard | lndDescFull | lndMcHold | lndPsetIncomplete | lndReseqLost | lndBadCell | lndFenceDiscard | lndReseqLostUnknown | lndSeqRange | lndCorr | lndUncorrHdr | lndUncorrData | lndEpochDrop | lndCells
  | poolEmpty | poolPtrRange | poolPtrAlign | poolPtrState | cbCorr | cbUncorr | cbUncorrTx | spillCopiesOut | spillCopiesBack | spillReadBad | spillLimitWait | spillStageWait
  | schedGateOversize | schedShareHeld | schedPauseRings | schedGuardIdle | schedShaped
  | dramCorr | dramUncorr | dramTagMismatch | dramHammer | dramThrottled | dramThrottledMod | dramSweepTokens | dramFencePages | dramSrEntries
  | tallyCaptured | tallyStageDrop | tallyDropFull | tallyStale | tallyLost | tallyOverwritten
  | mbxBadAccess | mbxTailBad | mbxEvtLost | mbxRotDiscard
  | cmpStaleFrames | cmpFreezeDiscard | cmpDetachDiscard | cmpEgressForeign
  | secAuthFail | secReqDenied
  | lkoRecordsLost | lkoFences | lkoSweepTokens | lkoIngressDiscard | lkoResetFail
  | blzBlazed | blzTraceDrop | blzTraceLost
  | pwrDips | pwrFails | pwrThermalOff
  | pairHbTx | pairHbRx | pairHbLost | pairMsgReject | pairNoticeTx | pairNoticeLost | pairNoticeDropped | pairStandbyDiscard
  deriving DecidableEq, Repr

/-! ## What a row's operands name together -/

/-- What reading a frame's stores found: bad words of cells, each correctable or not (R298), and which of the frame record (0) and
the copy descriptor (1) had an uncorrectable error (R274). -/
structure StoreErrs where
  cells : List (Fin 655360 × Bool) := []
  recs : List (Fin 2) := []
  deriving DecidableEq, Repr

/-- What a page request finds (R346, R357): whether the front end failed, and for each bad burst its sub-channel and number, the
bits of its tag that read wrong and the number of wrong bits of each of its four words. -/
structure PageErrs where
  fault : Bool := false
  bursts : List (Fin 2 × Fin 32 × BitVec 64 × List Nat) := []
  deriving DecidableEq, Repr

/-- A read of a mailbox page: the compartment of the page, the offset in it and the width in bytes (R387). -/
structure PageRead where
  cid : Fin 32
  off : BitVec 12
  size : Nat
  deriving DecidableEq, Repr

/-- Where a register write goes: its BAR, 0, 1 for BAR2 and 2 for BAR4, or 3 for configuration space, and the mailbox page of BAR0 (R385, R387). -/
structure PageRef where
  bar : Fin 4
  cid : Fin 32
  deriving DecidableEq, Repr

/-- How an SPDM request arrives: the transport, 0 to 31 a compartment's mailbox and 32 the management port, and whether it comes
inside a session (R466, R469). -/
structure SpdmVia where
  tr : Fin 33
  inside : Bool := false
  deriving DecidableEq, Repr

/-- A firmware image as FW_LOAD brings it (R459): its version and its bytes. -/
structure FwImage where
  version : Nat
  bytes : List Byte := []
  deriving DecidableEq, Repr

end Sys2Proof
end

