-- ==== Sys2Proof/Syntax.lean ====
section
/-!
DEFINITION. The commands of the block: one constructor for each row of spec/opcode_table.json, in the table's order.
A row that carries a Laent command (R395, R413) takes one request record; the rows of events outside the module take
what the wire, the pin or the sensor shows.
-/
namespace Sys2Proof

/-- The commands that the module takes, one constructor per row of the table. -/
inductive Instr where
  /-- RING_BOUNDARY (R581): Each ring boundary applies, in the fixed step order, every change whose target ring is that boundary or whose cause was found before it. -/
  | ringBoundary
  /-- FRAME_RECEIVE (R23): The MAC sees a frame's last byte and its FCS verdict, which fixes its entry ring or discards it in stage 1. -/
  | frameReceive (port : Fin 64) (clk : Fin 1600) (rx : RxFrame)
  /-- PFC_RECEIVE (R84): A received PFC frame pauses, or releases, the named ungated classes on the port. -/
  | pfcReceive (port : Fin 64) (clk : Fin 1600) (cev : BitVec 8) (timers : List (BitVec 16))
  /-- PAUSE_EXPIRE (R84): A received PFC pause timer runs out and the class may start frames again. -/
  | pauseExpire (port : Fin 64) (cls : Fin 8) (clk : Fin 1600)
  /-- PFC_REFRESH_EXPIRE (R83): The refresh interval elapses while the XOFF condition holds and XOFF is sent again. -/
  | pfcRefreshExpire (port : Fin 64)
  /-- CELL_SLOT (R282): At each cell slot every plane's matcher forms requests, runs three iterations and carries out the previous slot's match. -/
  | cellSlot (slot : Fin 160) (errs : List (Fin 655360 × Bool))
  /-- CELL_ARRIVE (R285): A cell arrives at its egress group, is checked and is placed in the resequencer window. -/
  | cellArrive (plane : Fin 2) (src dst : Fin 16) (seq : BitVec 16) (clk : Fin 1600) (beats : List (Fin 17 × Bool))
  /-- RESEQ_TIMEOUT (R287): A gap's oldest held cell waits its timeout, the missing number is declared lost and the gathered copy is discarded. -/
  | reseqTimeout (src dst : Fin 16) (clk : Fin 1600)
  /-- MC_HOLD_EXPIRE (R290): A multi-copy frame's copy not granted by ring q + H is discarded. -/
  | mcHoldExpire
  /-- KERF_DISPATCH (R218): The head of a pipeline's dispatch queue is given to the lowest idle engine, or bypasses the engines. -/
  | kerfDispatch (pipe : Fin 8) (clk : Fin 1600) (errs : StoreErrs)
  /-- MICROCYCLE (R264): An engine executes one microword and its nano-word in the fixed order of effects. -/
  | microcycle (pipe : Fin 8) (eng : Fin 32) (clk : Fin 1600) (microBad nanoBad : Bool) (actBad : Option (Fin 16))
  /-- WINDOW_FETCH_DONE (R229): The 40-clock fetch stall of a window slide completes and the routine continues. -/
  | windowFetchDone (pipe : Fin 8) (eng : Fin 32) (clk : Fin 1600)
  /-- COPY_TO_SCHEDULER (R220): A finished copy passes to the scheduler queue once every earlier copy of its port and class has gone on. -/
  | copyToScheduler (pipe : Fin 8) (port : Fin 64) (cls : Fin 8) (clk : Fin 1600)
  /-- SCHED_START (R328): The scheduler decides which eligible copy begins on a free port under gates, shapers, pauses and service order. -/
  | schedStart (port : Fin 64) (clk : Fin 1600)
  /-- TRANSMIT_DONE (R278): A copy's transmission ends and its egress credits return. -/
  | transmitDone (port : Fin 64) (clk : Fin 1600) (errs : List (Fin 655360 × Bool))
  /-- SHAPER_REFILL (R332): At each notch boundary every shaper's bucket gains its rate's bytes up to its cap. -/
  | shaperRefill (notch : Fin 64)
  /-- GATE_ENTRY_START (R324): A gate-list entry's start notch is reached and its open mask takes effect. -/
  | gateEntryStart (port : Fin 64) (notch : Fin 64)
  /-- GATE_BANK_SWITCH (R326): At an accepted switch ring the standby gate bank becomes active and its cycle begins. -/
  | gateBankSwitch (port : Fin 64)
  /-- SPILL_WRITE (R312): The spill unit writes a tail copy's descriptor and data slots to DRAM pages. -/
  | spillWrite (group : Fin 16) (port : Fin 64) (cls : Fin 8) (errs : StoreErrs)
  /-- SPILL_READBACK (R313): The spill unit reads the next copy of a due VOQ back into staging and joins it to the head. -/
  | spillReadback (group : Fin 16)
  /-- SPILL_PAGE_WALK (R315): The DRAM portion of a VOQ whose port went down or group was fenced is freed by a page walk. -/
  | spillPageWalk (group : Fin 16) (port : Fin 64) (cls : Fin 8)
  /-- DRAM_PAGE_DONE (R348): A DRAM page request completes its bursts and its read bursts are checked. -/
  | dramPageDone (ch : Fin 16) (clk : Fin 1600) (errs : PageErrs)
  /-- DRAM_REFRESH (R349): A rank receives its scheduled all-bank refresh. -/
  | dramRefresh (ch : Fin 16) (rank : Fin 2)
  /-- DRAM_TEMP_READ (R349): DRAM die temperatures are read and hot ranks move to refresh every ring. -/
  | dramTempRead (ch : Fin 16) (rank : Fin 2) (temp : Int)
  /-- DRAM_RETRAIN (R350): A channel pauses in its scheduled ring for retraining and recalibration. -/
  | dramRetrain (ch : Fin 16) (ok : Bool)
  /-- RANK_SELF_REFRESH (R352): An idle rank with no spill page enters self-refresh at a boundary. -/
  | rankSelfRefresh (ch : Fin 16) (rank : Fin 2)
  /-- RANK_WAKE (R352): A sleeping rank woken by a request or by the spill unit accepts requests after 480 clocks. -/
  | rankWake (ch : Fin 16) (rank : Fin 2) (clk : Fin 1600)
  /-- HAMMER_WINDOW (R354): A new 32,000-ring window begins, clearing row counts and lifting throttles. -/
  | hammerWindow
  /-- DRAM_SCRUB (R356): The patrol scrub reads one page and writes back corrected bursts. -/
  | dramScrub
  /-- RANGER_CHAIN_WALK (R358): After a channel fence the Ranger walks the spill chains and returns unreachable pages. -/
  | rangerChainWalk
  /-- TALLY_WRITE (R371): The writer empties a compartment's tally staging into its ring, assigning sequence numbers or dropping. -/
  | tallyWrite (cid : Fin 32)
  /-- CV_WINDOW_END (R382): At ring S + D an armed check unit disarms and sets DONE. -/
  | cvWindowEnd (unit : Fin 16)
  /-- LEARN_APPLY (R166): At ring E+2 the learner applies the learn requests of entry ring E in order. -/
  | learnApply
  /-- AGING_TICK (R170): At a tick ring of a table every learned entry is tested for age-out. -/
  | agingTick (cid : Fin 32) (table : Fin 16)
  /-- AGE_OUT (R170): An entry aged at tick D is removed from lookups at D+2. -/
  | ageOut
  /-- PORT_DOWN_FLUSH (R173): Learned entries naming a port that went down are removed at p+2. -/
  | portDownFlush (port : Fin 64)
  /-- LEARNED_FLUSH (R173): An accepted learned-flush removes the matching learned entries at its target ring. -/
  | learnedFlush
  /-- SWEEPER_VISIT (R172): The sweeper visits a slot, checks parity, frees aged entries and posts AGED. -/
  | sweeperVisit (bank : Fin 5) (index : Nat) (bad : Bool)
  /-- PARITY_ENTRY_REMOVE (R175): A learned entry with a parity error is removed at the second boundary after detection. -/
  | parityEntryRemove (uid : Nat)
  /-- CUT_LAND (R148): At ring T a pending cut becomes CURRENT in all pipelines and the previous one SUPERSEDED. -/
  | cutLand (cid : Fin 32)
  /-- CUT_RETIRE (R152): A SUPERSEDED cut with no live frames is retired and its handle and memory freed. -/
  | cutRetire (cid : Fin 32) (handle : Fin 64)
  /-- RANGER_REPAIR (R148): The Ranger rewrites a record that failed parity from its image at the next boundary. -/
  | rangerRepair
  /-- GROVE_MOVE (R209): A grove move engine shifts entries and writes a new entry at its place in table order. -/
  | groveMove (bad : List (Fin 5 × Nat × Fin 3))
  /-- GROVE_SCRUB (R211): The grove scrub reads rows and side records and suppresses entries that fail parity. -/
  | groveScrub (arr : Fin 5) (index : Nat) (word : Option (Fin 3))
  /-- IMAGE_WRITE (R271): A common kerf image is written once every engine and dispatch queue is empty after dispatch stops. -/
  | imageWrite
  /-- GRAPH_SWAP (R126): A swapped parse graph governs frames from its target ring on. -/
  | graphSwap
  /-- COMMAND_LANDING (R422): An ACCEPTED command whose target ring is reached has its effect applied in validation order. -/
  | commandLanding
  /-- ROTATION_CHANGE (R444): A compartment's rotation increments and its old-rotation items are discarded everywhere. -/
  | rotationChange (cid : Fin 32)
  /-- FREEZE_LAND (R445): A compartment freeze takes effect at T in DRAIN or DISCARD mode. -/
  | freezeLand (cid : Fin 32)
  /-- THAW_LAND (R447): A compartment freeze ends at T and frames are admitted again. -/
  | thawLand (cid : Fin 32)
  /-- CMP_EMPTY (R446): A frozen compartment is found empty at a boundary and CMP_STATE EMPTY is posted. -/
  | cmpEmpty (cid : Fin 32)
  /-- MODE_CHANGE (R503): The module's mode changes at a boundary by command, bring-up, firebreak or lift. -/
  | modeChange (target : Mode) (failed : List (Fin 75))
  /-- QUIESCED (R506): After entering FROZEN or STAGED the module finds no frame buffered and posts MODE_STATE with QUIESCED. -/
  | quiesced
  /-- AUTO_FORWARDING (R509): Sixteen rings after bring-up enters STAGED, the module enters FORWARDING by itself if allowed. -/
  | autoForwarding
  /-- NIGHT_TRIM_STEP (R518): A night-trim step's ring is reached and every group is set to its sleep state. -/
  | nightTrimStep
  /-- PIPELINE_GATE (R516): A pipeline whose groups sleep and which is idle and empty is gated. -/
  | pipelineGate (pipe : Fin 8)
  /-- PIPELINE_READY (R516): An ungated pipeline becomes ready after a wake. -/
  | pipelineReady (pipe : Fin 8)
  /-- LINK_DOWN (R79): A port goes down at the boundary after loss of alignment, fault, FEC errors, reset or optic removal. -/
  | linkDown (port : Fin 64)
  /-- LINK_UP (R79): A port comes up after its PCS has run clean for UP_HOLD rings. -/
  | linkUp (port : Fin 64)
  /-- PREEMPT_VERIFY_SEND (R87): A verify mPacket is sent every 10 ms until answered, posting failure after three. -/
  | preemptVerifySend (port : Fin 64)
  /-- PREEMPT_RESPOND (R87): A respond mPacket completes verification and preemption starts. -/
  | preemptRespond (port : Fin 64)
  /-- OPTIC_INSERT (R94): An optic insertion stable for 100 ms is read and moved to high power if allowed. -/
  | opticInsert (cage : Fin 53) (id : Option (List Byte)) (cls : Fin 8) (powerMw : Nat) (temp minTemp : Int)
  /-- OPTIC_REMOVE (R94): An optic removal posts CAGE_REMOVED and takes the cage's ports down. -/
  | opticRemove (cage : Fin 53)
  /-- OPTIC_POLL (R95): The module polls each optic's monitors once a second and checks the readings. -/
  | opticPoll (cage : Fin 53) (temp : Int) (volt : Nat) (bias : List Nat) (power : List Int) (flags : BitVec 8)
  /-- MGMT_TIMEOUT (R93): A cage management access not done within 10 ms is abandoned and counted. -/
  | mgmtTimeout (cage : Fin 53)
  /-- CAGE_RETRY (R93): A cage marked MGMT_LOST is retried every second. -/
  | cageRetry (cage : Fin 53) (ok : Bool)
  /-- PPS_PULSE (R55): A 1PPS input pulse is accepted or rejected and steers the DPLL. -/
  | ppsPulse (src : Fin 8) (offset filtered freq : Int)
  /-- PPS_MISSING (R55): An expected pulse's window closes without a pulse; two in a row lose the GNSS source. -/
  | ppsMissing (src : Fin 8)
  /-- TOD_SENTENCE (R55): A ZDA sentence is received and accepted or rejected. -/
  | todSentence (src : Fin 8) (utc : Nat)
  /-- PTP_MESSAGE (R56): A PTP message is timestamped and accepted or rejected for its source. -/
  | ptpMessage (src : Fin 8) (announce : Bool) (domain clockClass : BitVec 8) (steps : BitVec 16) (utc : Nat) (rateOk : Bool) (offset filtered freq : Int)
  /-- PTP_SYNC_TIMEOUT (R56): A PTP source whose Sync messages stop for 3 s is lost. -/
  | ptpSyncTimeout (src : Fin 8)
  /-- PTP_ANNOUNCE_TIMEOUT (R56): A PTP source that sends no Announce for three intervals is lost. -/
  | ptpAnnounceTimeout (src : Fin 8)
  /-- ESMC_MESSAGE (R54): An ESMC message carries a SyncE source's QL, checked against the floor. -/
  | esmcMessage (src : Fin 8) (ql : BitVec 8)
  /-- ESMC_TIMEOUT (R57): ESMC messages missing for 5 s reject the SyncE source. -/
  | esmcTimeout (src : Fin 8)
  /-- SOURCE_QUALIFY (R54): A source has been good for its qualification time and becomes qualified. -/
  | sourceQualify (src : Fin 8) (offset : Int)
  /-- TIMING_STATE_CHANGE (R59): The timing state changes at the first boundary after its cause is detected. -/
  | timingStateChange
  /-- HOLDOVER_LIMIT_EXPIRE (R66): The holdover limit runs out and the timing state falls to FREE. -/
  | holdoverLimitExpire
  /-- DET_EXCLUDED_CLEAR (R60): DET_EXCLUDED clears 1,000,000 rings after the slew start ring. -/
  | detExcludedClear
  /-- TIME_HINT_WRITE (R51): The ring number is written to MRAM once every 1,000,000 rings. -/
  | timeHintWrite
  /-- PPS_OUT (R69): The 1PPS output rises at each ring whose number is a multiple of 1,000,000. -/
  | ppsOut
  /-- CART_INSERT (R63): A cartridge is inserted, its identity and life counter are checked and warm-up starts. -/
  | cartInsert (serial : BitVec 32) (idOk lifeOk : Bool) (hours learn : BitVec 32)
  /-- CART_WARM_DONE (R63): The cartridge's reference reports lock and warm-up ends. -/
  | cartWarmDone
  /-- WARM_FAIL (R63): A cartridge still warming after 120 min is rejected. -/
  | warmFail
  /-- CART_IN_USE (R62): A warm cartridge that has run 2 h LOCKED enters use. -/
  | cartInUse
  /-- CART_LIFE_TICK (R64): The cartridge's hourly signed life counter is returned and checked. -/
  | cartLifeTick (sigOk : Bool) (count : BitVec 32)
  /-- CART_REMOVE (R67): The bay door opens or the cartridge stops answering and it leaves use. -/
  | cartRemove (noResponse : Bool)
  /-- CART_TEMP_READ (R68): The cartridge temperature is read every second and checked. -/
  | cartTempRead (temp : Int)
  /-- POWER_ON (R559): After the input stays in range for 1 s the PSU raises the rails in order. -/
  | powerOn (temp : Int)
  /-- POWER_GOOD (R508): Power-good is declared and bring-up runs its steps toward STAGED. -/
  | powerGood
  /-- DIP_START (R560): An input reading below 80 VAC starts a dip, carried by the bulk capacitors. -/
  | dipStart
  /-- DIP_END (R560): The input returns and the dip ends. -/
  | dipEnd
  /-- POWER_FAIL (R561): The bulk voltage falls below its threshold, ports stop and the rails fall as a power cycle. -/
  | powerFail
  /-- SUPPLY_READING (R563): A supply reading is checked for range and rate and may raise overstress or a NOTE. -/
  | supplyReading (kind : Fin 3) (rail : Fin 16) (nominal : Nat) (value : Int) (pin : Nat)
  /-- TEMP_READING (R563): A temperature reading is checked and drives thermal warnings and shutdowns. -/
  | tempReading (sensor : Fin 64) (zone index : Fin 4) (value : Int)
  /-- ALARM_INPUT (R571): A dry-contact input change stable for 50 ms is posted to CID 0. -/
  | alarmInput (input : Fin 2) (closed : Bool)
  /-- TAMPER (R476): A tamper finding halts the module and zeroises the key store. -/
  | tamper (finding : Fin 5)
  /-- WATCHDOG (R483): The Ranger watchdog times out after 100,000 rings and causes a RESTART-class fault. -/
  | watchdog
  /-- FENCE_RAISE (R490): A firebreak is raised at the boundary after its cause for the unit and those fenced with it. -/
  | fenceRaise (unit : Fin 64) (cause : Fin 5)
  /-- UNIT_RESET (R493): A fenced unit is reset, self-tested and reloaded at the boundary after its fence. -/
  | unitReset (unit : Fin 64)
  /-- FIREBREAK_READY (R493): A fenced unit finishes its reset, sets READY or is retried or retired. -/
  | firebreakReady (unit : Fin 64) (pass : Bool)
  /-- FIREBREAK_LIFTED (R494): At T an accepted lift rejoins the unit, or is cancelled by a fresh fence. -/
  | firebreakLifted (unit : Fin 64)
  /-- DEVICE_RESTART (R511): A device restart stops mailboxes and ports, loses frames and keys and enters SEALED. -/
  | deviceRestart
  /-- HALT (R497): A HALT-class fault zeroises keys, stops ports and outputs and enters HALTED. -/
  | halt (finding : HaltFind) (addr : BitVec 64)
  /-- FAULT_INJECT (R500): In factory test mode an injection entry raises its fault at its ring offset. -/
  | faultInject
  /-- FUNCTION_LEVEL_RESET (R510): A PCIe function level reset starts a device restart at the next boundary. -/
  | functionLevelReset
  /-- CMD_TAIL_WRITE (R391): A write of CMD_TAIL is accepted or ignored as TAIL_BAD. -/
  | cmdTailWrite (cid : Fin 32) (v : BitVec 32)
  /-- RSP_HEAD_WRITE (R392): A write of RSP_HEAD consumes responses unless it passes the tail. -/
  | rspHeadWrite (cid : Fin 32) (v : BitVec 32)
  /-- EVT_HEAD_WRITE (R392): A write of EVT_HEAD consumes events unless it passes the tail. -/
  | evtHeadWrite (cid : Fin 32) (v : BitVec 32)
  /-- FETCH (R393): DOORBELL.FETCH asks the Ranger to read commands up to CMD_TAIL. -/
  | fetch (cid : Fin 32)
  /-- ARM_RSP (R404): DOORBELL.ARM_RSP re-arms the response vector. -/
  | armRsp (cid : Fin 32)
  /-- ARM_EVT (R404): DOORBELL.ARM_EVT re-arms every event vector. -/
  | armEvt (cid : Fin 32)
  /-- MBX_ENABLE (R389): A write of ENABLE 1 puts the mailbox in service from the next boundary if it is ready. -/
  | mbxEnable (cid : Fin 32)
  /-- MBX_DISABLE (R389): A write of ENABLE 0 stops command reading at once. -/
  | mbxDisable (cid : Fin 32)
  /-- MBX_DRAINED (R389): ENABLED clears at the first boundary at which every command read has its response. -/
  | mbxDrained (cid : Fin 32)
  /-- RING_NOW_LOW_READ (R387): A 32-bit read of RING_NOW's low half latches the high half for the next read. -/
  | ringNowLowRead (rd : PageRead)
  /-- REGISTER_WRITE (R388): A write to a register without a row of its own, such as a ring base or MBX.CFG field, is checked and applied or faulted. -/
  | registerWrite (page : PageRef) (off : BitVec 16) (size : Nat) (v : BitVec 64)
  /-- COMMAND_FETCH (R394): The Ranger reads a command from a compartment's ring when the response ring has room and runs the common checks. -/
  | commandFetch (cid : Fin 32) (hdr payload : List Byte) (dmaOk : Bool)
  /-- NOT_BEFORE_RELEASE (R398): A command held for its NOT_BEFORE ring is validated at that boundary. -/
  | notBeforeRelease (cid : Fin 32)
  /-- COMMAND_TIMEOUT (R400): A command that has not reached its commit point within TIMEOUT rings is abandoned with TIMEOUT. -/
  | commandTimeout (cid : Fin 32) (tag : BitVec 32)
  /-- EVT_LOST (R401): When event space returns, EVT_LOST is written first with the count of lost events. -/
  | evtLost (cid : Fin 32)
  /-- IRQ_HOLDOFF_EXPIRE (R404): A re-armed vector whose condition stands signals once its holdoff has passed. -/
  | irqHoldoffExpire (cid : Fin 32) (k : Fin 19)
  /-- MBX_DMA (R405): A DMA error on a compartment's ring stops its mailbox and sets a fault. -/
  | mbxDma (cid : Fin 32) (which : Fin 3) (pcie : BitVec 8)
  /-- IDENTITY_READ (R465): Returns the module's 64-byte identity record. -/
  | identityRead (q : Req)
  /-- BARRIER (R425): Answers once every earlier command has its response and the wait rings have passed. -/
  | barrier (q : Req)
  /-- PORT_CFG_WRITE (R78): Writes a port's configuration record to take effect at the target ring. -/
  | portCfgWrite (q : Req)
  /-- RADIO_WIN_WRITE (R90): Writes a radio port's arrival window at the target ring. -/
  | radioWinWrite (q : Req)
  /-- PORT_RESET (R510): Resets one logical port at the target ring. -/
  | portReset (q : Req)
  /-- PORT_READ (R425): Returns a port's records, link state and last change ring. -/
  | portRead (q : Req)
  /-- CAGE_READ (R425): Returns a cage's optic identity, power class and monitor values. -/
  | cageRead (q : Req)
  /-- TIM_SRC_WRITE (R58): Writes a timing source entry at the target ring. -/
  | timSrcWrite (q : Req)
  /-- TIM_CTL_WRITE (R72): Writes the timing control record at the target ring. -/
  | timCtlWrite (q : Req)
  /-- TIM_REALIGN (R50): Sets the grid directly from a qualified phase source while STAGED and quiet. -/
  | timRealign (q : Req)
  /-- TIM_SRC_READ (R425): Returns the eight timing source entries. -/
  | timSrcRead (q : Req)
  /-- BASE_BUNDLE_LOAD (R580): Checks and loads a signed base bundle carrying the parse graph and common kerf image. -/
  | baseBundleLoad (q : Req)
  /-- CMP_BUNDLE_LOAD (R580): Checks and loads a compartment's signed kerf bundle into its region. -/
  | cmpBundleLoad (q : Req)
  /-- BUNDLE_LIST (R426): Lists the loaded images visible to the sender. -/
  | bundleList (q : Req)
  /-- ABORT_FRAME_READ (R246): Returns the compartment's last abort frame and its ring. -/
  | abortFrameRead (q : Req)
  /-- STAGE_OPEN (R145): Creates a staging area as a copy of the newest live cut. -/
  | stageOpen (q : Req)
  /-- STAGE_ABORT (R145): Discards the staging area and frees its memory. -/
  | stageAbort (q : Req)
  /-- CUT_COMMIT (R147): Validates and commits the staging area as a PENDING cut for ring T. -/
  | cutCommit (q : Req)
  /-- CUT_COMMIT_SIGNED (R475): Commits the staging area under a verified signature over the staged-image digest. -/
  | cutCommitSigned (q : Req)
  /-- LIST_WRITE (R131): Stages one rule list descriptor. -/
  | listWrite (q : Req)
  /-- ACTION_WRITE (R138): Stages action entries. -/
  | actionWrite (q : Req)
  /-- ACTDATA_WRITE (R426): Stages action-data words. -/
  | actdataWrite (q : Req)
  /-- PSET_WRITE (R138): Stages port sets. -/
  | psetWrite (q : Req)
  /-- CUT_HDR_WRITE (R144): Stages the cut header's malformed, default and budget fields. -/
  | cutHdrWrite (q : Req)
  /-- PARSE_WRITE (R110): Stages the compartment parse record. -/
  | parseWrite (q : Req)
  /-- CUT_READ (R144): Returns the headers of the compartment's live cuts. -/
  | cutRead (q : Req)
  /-- EM_TBL_WRITE (R161): Stages an exact-match table descriptor. -/
  | emTblWrite (q : Req)
  /-- EM_STATIC_WRITE (R162): Stages static exact-match entries, placing them at once. -/
  | emStaticWrite (q : Req)
  /-- EM_LEARN_WRITE (R165): Stages the learn template. -/
  | emLearnWrite (q : Req)
  /-- EM_FLUSH (R173): Schedules a learned-entry flush of a table, or of one port, at ring T. -/
  | emFlush (q : Req)
  /-- EM_LOOKUP (R583): Answers an exact-match lookup as a frame of entry ring v + 1 would see it. -/
  | emLookup (q : Req)
  /-- TRIE_TBL_WRITE (R179): Stages a trie table descriptor. -/
  | trieTblWrite (q : Req)
  /-- TRIE_ADD (R189): Stages prefix adds or replaces. -/
  | trieAdd (q : Req)
  /-- TRIE_DELETE (R189): Stages prefix deletes. -/
  | trieDelete (q : Req)
  /-- TRIE_LOOKUP (R583): Answers a trie lookup as a frame of entry ring v + 1 would see it. -/
  | trieLookup (q : Req)
  /-- GRV_PAIR_WRITE (R199): Sets Grove-die lockstep pairing while STAGED. -/
  | grvPairWrite (q : Req)
  /-- GRV_TBL_WRITE (R200): Stages a grove table descriptor. -/
  | grvTblWrite (q : Req)
  /-- GRV_WRITE (R203): Stages a grove entry add, replace or delete, placed by the move engine. -/
  | grvWrite (q : Req)
  /-- GRV_GMASK_WRITE (R202): Stages an instance's global mask. -/
  | grvGmaskWrite (q : Req)
  /-- GRV_READ (R204): Returns every live version of a grove entry by identifier. -/
  | grvRead (q : Req)
  /-- POOL_CFG_WRITE (R300): Writes a pool's size, thresholds and spill settings at ring T. -/
  | poolCfgWrite (q : Req)
  /-- LND_CFG_WRITE (R294): Writes the copy hold limit and resequencer timeout at ring T. -/
  | lndCfgWrite (q : Req)
  /-- GLIST_WRITE (R323): Writes a port's standby gate-list bank. -/
  | glistWrite (q : Req)
  /-- GATE_SWITCH (R326): Schedules a switch to the standby gate bank at ring T. -/
  | gateSwitch (q : Req)
  /-- SHAPE_WRITE (R331): Writes a port and class shaper at ring T. -/
  | shapeWrite (q : Req)
  /-- SHARE_WRITE (R335): Writes a compartment's share on a port at ring T. -/
  | shareWrite (q : Req)
  /-- SCHED_READ (R429): Returns a port's gate banks, shapers or shares. -/
  | schedRead (q : Req)
  /-- SPILL_CFG_WRITE (R317): Writes the spill page pool and limits. -/
  | spillCfgWrite (q : Req)
  /-- DRAM_CFG_WRITE (R360): Writes the DRAM power-down, scrub and hammer settings at ring T. -/
  | dramCfgWrite (q : Req)
  /-- TALLY_CFG_WRITE (R368): Writes the owner fields of the tally configuration at ring T. -/
  | tallyCfgWrite (q : Req)
  /-- TALLY_PAGES_WRITE (R369): Sizes and places a compartment's tally ring. -/
  | tallyPagesWrite (q : Req)
  /-- TALLY_READ (R372): Delivers tally records by DMA and optionally releases them. -/
  | tallyRead (q : Req) (clk : Fin 1600)
  /-- CV_ASSIGN (R378): Assigns a check unit to a compartment. -/
  | cvAssign (q : Req)
  /-- CV_CFG_WRITE (R380): Configures an unarmed check unit. -/
  | cvCfgWrite (q : Req)
  /-- CV_ARM (R382): Arms a check unit for a window of rings from S. -/
  | cvArm (q : Req)
  /-- CV_DISARM (R382): Disarms a check unit at once. -/
  | cvDisarm (q : Req)
  /-- CV_READ (R383): Returns a check unit's result record. -/
  | cvRead (q : Req)
  /-- COUNTER_READ (R520): Returns a counter set as a snapshot, optionally clearing overflow bits or advancing the read mark. -/
  | counterRead (q : Req)
  /-- COUNTER_PROGRAM (R526): Sets a unit's eight programmable event selects at ring T. -/
  | counterProgram (q : Req)
  /-- BLAZE_CFG_WRITE (R530): Writes the blaze record at ring T. -/
  | blazeCfgWrite (q : Req)
  /-- CMP_DEFINE (R435): Defines a compartment, frozen and empty, at the next boundary. -/
  | cmpDefine (q : Req)
  /-- CMP_QUOTA_WRITE (R437): Changes a defined compartment's quotas and PASID. -/
  | cmpQuotaWrite (q : Req)
  /-- CMP_DELETE (R453): Deletes a frozen, empty compartment and releases its resources. -/
  | cmpDelete (q : Req)
  /-- CMP_ATTACH (R439): Adds an attachment entry to a port's map at ring T. -/
  | cmpAttach (q : Req)
  /-- CMP_DETACH (R441): Removes an attachment entry at ring T, discarding copies on the last one. -/
  | cmpDetach (q : Req)
  /-- KRF_REGION_WRITE (R252): Sets a compartment's kerf store region. -/
  | krfRegionWrite (q : Req)
  /-- CMP_RESET (R444): Schedules a compartment reset, a rotation change, at ring T. -/
  | cmpReset (q : Req)
  /-- FREEZE (R445): Schedules a compartment freeze at ring T. -/
  | freeze (q : Req)
  /-- THAW (R447): Schedules the end of a compartment freeze at ring T. -/
  | thaw (q : Req)
  /-- SAVE (R448): Captures a frozen compartment into a wrapped blob and resets it. -/
  | save (q : Req)
  /-- RESTORE (R451): Places a save blob into a frozen, empty compartment. -/
  | restore (q : Req) (blob : Saved)
  /-- CMP_READ (R436): Returns a compartment definition. -/
  | cmpRead (q : Req)
  /-- SPDM (R399): Carries one SPDM request over the mailbox and returns its response. -/
  | spdm (q : Req) (m : Spdm)
  /-- SECURED (R399): Carries one secured message whose inner Laent command is checked and carried out. -/
  | secured (q : Req)
  /-- OWNER_ENROL (R462): Claims an unclaimed module with its owner keys. -/
  | ownerEnrol (q : Req)
  /-- CUT_KEY_SET (R475): Sets or clears the compartment's cut-signing key. -/
  | cutKeySet (q : Req)
  /-- KEY_INSTALL (R471): Installs a clear or wrapped key into a key-store slot and returns its handle. -/
  | keyInstall (q : Req)
  /-- KEY_DELETE (R474): Frees a key-store slot not in use by an SA. -/
  | keyDelete (q : Req)
  /-- KEY_EXPORT (R473): Returns an exportable key wrapped to an attested module. -/
  | keyExport (q : Req)
  /-- SECY_ALLOC (R97): Allocates a SecY slot on a port to a compartment. -/
  | secyAlloc (q : Req)
  /-- SECY_WRITE (R97): Writes the owner fields of a SecY at ring T. -/
  | secyWrite (q : Req)
  /-- RX_SC_WRITE (R96): Writes a receive secure channel of a SecY. -/
  | rxScWrite (q : Req)
  /-- SA_INSTALL (R98): Installs a secure association naming a key handle. -/
  | saInstall (q : Req)
  /-- SA_SWITCH (R99): Switches the transmit SA to a new AN at ring T. -/
  | saSwitch (q : Req)
  /-- SA_DELETE (R432): Deletes an SA that is not the current transmit SA. -/
  | saDelete (q : Req)
  /-- FAULT_READ (R487): Returns the fault records in the sender's scope. -/
  | faultRead (q : Req)
  /-- FIREBREAK_LIFT (R494): Schedules the lift of a ready fenced unit at ring T. -/
  | firebreakLift (q : Req)
  /-- FIREBREAK_RAISE (R495): Fences a fenceable unit by command at ring T. -/
  | firebreakRaise (q : Req)
  /-- FACTORY_MODE (R499): Enters factory test mode with a signed token, wiping compartments. -/
  | factoryMode (q : Req)
  /-- MODE_SET (R504): Schedules an allowed mode change at ring T. -/
  | modeSet (q : Req)
  /-- RESTART (R433): Answers and then starts a device restart 16 rings later. -/
  | restart (q : Req)
  /-- CONFIG_SAVE (R512): Writes the saved configuration set to MRAM as one set. -/
  | configSave (q : Req)
  /-- GROUP_SLEEP (R515): Puts a port group to sleep or wakes it at ring T. -/
  | groupSleep (q : Req)
  /-- NIGHT_TRIM_WRITE (R517): Writes the night-trim schedule at ring T. -/
  | nightTrimWrite (q : Req)
  /-- CAL_EXPORT (R576): Returns the calibration page as a signed blob. -/
  | calExport (q : Req)
  /-- CAL_IMPORT (R576): Replaces the calibration page from a signed blob of this module. -/
  | calImport (q : Req)
  /-- CAL_WRITE (R575): Replaces the calibration page with a whole new page while STAGED. -/
  | calWrite (q : Req)
  /-- PAIR_CFG_WRITE (R543): Writes the pair record and peer certificate at ring T. -/
  | pairCfgWrite (q : Req)
  /-- PAIR_SWITCHOVER (R548): Starts a role swap of the pair at ring T. -/
  | pairSwitchover (q : Req)
  /-- PAIR_STATUS_READ (R553): Returns the pair status record. -/
  | pairStatusRead (q : Req)
  /-- KEY_OFFER (R466): A requester names its public key before a session key exchange. -/
  | keyOffer (via : SpdmVia) (key : List Byte)
  /-- KEY_EXCHANGE (R463): An SPDM key exchange begins a secured session. -/
  | keyExchange (tr : Fin 33)
  /-- FINISH (R467): A successful SPDM FINISH opens a session, binding a key or replacing an older session. -/
  | finish (tr : Fin 33) (ok : Bool)
  /-- END_SESSION (R467): An SPDM END_SESSION closes the session. -/
  | endSession (tr : Fin 33)
  /-- SESSION_TIMEOUT (R467): A session with no message for 60 s ends. -/
  | sessionTimeout (tr : Fin 33)
  /-- GET_MEASUREMENTS (R464): Returns the signed measurement blocks. -/
  | getMeasurements (tr : Fin 33) (index : BitVec 8)
  /-- GET_CERTIFICATE (R463): Returns a certificate chain from slot 0 or 1. -/
  | getCertificate (tr : Fin 33) (slot : Nat)
  /-- GET_VERSION (R463): An SPDM version request is answered with version 1.3. -/
  | getVersion (tr : Fin 33)
  /-- GET_CAPABILITIES (R463): An SPDM capabilities request is answered. -/
  | getCapabilities (tr : Fin 33)
  /-- NEGOTIATE_ALGORITHMS (R463): An SPDM algorithm negotiation is answered. -/
  | negotiateAlgorithms (tr : Fin 33)
  /-- GET_DIGESTS (R463): An SPDM digests request is answered. -/
  | getDigests (tr : Fin 33)
  /-- FW_LOAD (R469): Writes a signed firmware image to the slot not running. -/
  | fwLoad (tr : Fin 33) (valid : Bool) (secVersion : Fin 64) (image : FwImage)
  /-- CID0_PASID_SET (R469): Sets CID 0's PASID over the management port. -/
  | cid0PasidSet (pasid : BitVec 20)
  /-- MGMT_LAENT (R469): Carries one allowed CID 0 Laent command over the management port. -/
  | mgmtLaent (op : Op) (q : Req)
  /-- HELLO (R541): A pair HELLO with boot nonce and wrap key ID is received and the link key formed. -/
  | hello (nonce id : BitVec 128)
  /-- HEARTBEAT_SEND (R544): A pair HEARTBEAT is sent every 1,000 rings. -/
  | heartbeatSend (time : Nat)
  /-- HEARTBEAT (R545): A received heartbeat is accepted, updating the peer's state and the grid offset. -/
  | heartbeat (seq : BitVec 64) (tagOk : Bool) (body : List Byte) (time : Nat)
  /-- HEARTBEAT_LOST (R544): No heartbeat for 10,000 rings, or link down, loses the heartbeat. -/
  | heartbeatLost (linkDown : Bool)
  /-- SWITCH (R548): A received SWITCH is answered with SWITCH_ACK or SWITCH_CANCEL. -/
  | switch (seq : BitVec 64) (tagOk : Bool) (t : BitVec 64)
  /-- SWITCH_ACK (R548): A received SWITCH_ACK confirms a pending switchover. -/
  | switchAck (seq : BitVec 64) (tagOk : Bool) (t : BitVec 64)
  /-- SWITCH_CANCEL (R548): A received SWITCH_CANCEL cancels a pending switchover. -/
  | switchCancel (seq : BitVec 64) (tagOk : Bool) (t : BitVec 64)
  /-- SWITCH_ACK_TIMEOUT (R548): A sender with no SWITCH_ACK by T − 1 cancels its switchover. -/
  | switchAckTimeout
  /-- ROLE_SWAP (R548): An uncancelled switchover swaps roles at T. -/
  | roleSwap
  /-- NOTICE_SEND (R549): Queued learn notices of mirrored compartments are sent to the peer. -/
  | noticeSend
  /-- NOTICE (R549): A received NOTICE is posted to the same compartment as PEER_LEARN or dropped. -/
  | notice (seq : BitVec 64) (tagOk : Bool) (body : List Byte)
  /-- FREQ_RANGE (R57): A SyncE or 10 MHz frequency input is measured outside ±4.6 ppm, or is lost, so its reading is rejected and counted and a selected frequency source gives way to the next one. -/
  | freqRange (src : Fin 8)
  /-- LOSS_OF_LOCK (R482): A port group's SerDes PLL, a DRAM channel's PHY or a plane's link training loses lock, and the Lookout records the fault and fences the unit at the next boundary. -/
  | lossOfLock (unit : Fin 64)
  deriving DecidableEq, Repr

end Sys2Proof
end

