-- ==== Sys2Proof/Machine/Bits.lean ====
section
/-!
DEFINITION. Bit-field, byte-order and checksum helpers: the little-endian byte order of R16, the bit ranges of
the field maps (R15, R16), and the CRC-32C of R397.
-/
namespace Sys2Proof.Machine

/-- Bits [hi:lo] of a record, as a number (R15: most significant bit first in the range). -/
def fld {w : Nat} (x : BitVec w) (hi lo : Nat) : Nat := (x.toNat / 2 ^ lo) % 2 ^ (hi + 1 - lo)

/-- One bit of a record. -/
def bit {w : Nat} (x : BitVec w) (i : Nat) : Bool := x.getLsbD i

/-- A record with bits [hi:lo] replaced by `v` (taken modulo the field's width). -/
def setFld {w : Nat} (x : BitVec w) (hi lo v : Nat) : BitVec w :=
  BitVec.ofNat w (x.toNat - (fld x hi lo) * 2 ^ lo + (v % 2 ^ (hi + 1 - lo)) * 2 ^ lo)

/-- A Boolean as a bit. -/
def b2n (b : Bool) : Nat := if b then 1 else 0

/-- The low `n` bytes of a number, least significant first (R16). -/
def leBytes : Nat → Nat → List Byte
  | 0, _ => []
  | n + 1, x => BitVec.ofNat 8 x :: leBytes n (x / 256)

/-- The low `n` bytes of a number, most significant first (network order, R16). -/
def beBytes (n x : Nat) : List Byte := (leBytes n x).reverse

/-- The number that bytes spell, least significant first. -/
def leNat : List Byte → Nat
  | [] => 0
  | b :: r => b.toNat + 256 * leNat r

/-- The number that bytes spell, most significant first. -/
def beNat (l : List Byte) : Nat := l.foldl (fun a b => a * 256 + b.toNat) 0

/-- `n` bytes of `l` from offset `o`; bytes past the end read as absent. -/
def slice (l : List Byte) (o n : Nat) : List Byte := (l.drop o).take n

/-- The little-endian number in `n` bytes of `l` at offset `o`. -/
def leAt (l : List Byte) (o n : Nat) : Nat := leNat (slice l o n)

/-- The big-endian number in `n` bytes of `l` at offset `o`. -/
def beAt (l : List Byte) (o n : Nat) : Nat := beNat (slice l o n)

/-- Lay out (size, value) items one after another, each little-endian. -/
def packLE : List (Nat × Nat) → List Byte
  | [] => []
  | (n, x) :: r => leBytes n x ++ packLE r

/-- `n` zero bytes. -/
def zeros (n : Nat) : List Byte := List.replicate n 0

/-- A byte list cut or filled with zeros to exactly `n` bytes. -/
def padTo (n : Nat) (l : List Byte) : List Byte := l.take n ++ zeros (n - l.length)

/-- Every byte is zero. -/
def allZero (l : List Byte) : Bool := l.all (fun b => b == 0)

/-- Cut a list into runs of `n` bytes; `fuel` bounds the number of runs. -/
def chunks {α : Type} (n : Nat) : Nat → List α → List (List α)
  | 0, _ => []
  | fuel + 1, l => if l.isEmpty then [] else l.take n :: chunks n fuel (l.drop n)

/-- The records of `n` bytes that a payload holds, in payload order (R419). -/
def recordsOf (n : Nat) (l : List Byte) : List (List Byte) := chunks n (l.length / n) l

/-- One bit step of the reflected CRC-32C: polynomial 0x1EDC_6F41 reflected is 0x82F6_3B78 (R397). -/
def crcStep (c : BitVec 32) : BitVec 32 :=
  if c.getLsbD 0 then (c >>> 1) ^^^ 0x82F63B78#32 else c >>> 1

/-- Take one byte into the CRC. -/
def crcByte (c : BitVec 32) (b : Byte) : BitVec 32 :=
  let x := c ^^^ b.zeroExtend 32
  crcStep (crcStep (crcStep (crcStep (crcStep (crcStep (crcStep (crcStep x)))))))

/-- CRC-32C from a starting register, without the final XOR. -/
def crcRun (init : BitVec 32) (l : List Byte) : BitVec 32 := l.foldl crcByte init

/-- The CRC-32C of R397: initial value 0xFFFF_FFFF, final XOR 0xFFFF_FFFF. -/
def crc32c (l : List Byte) : BitVec 32 := crcRun 0xFFFFFFFF#32 l ^^^ 0xFFFFFFFF#32

/-- One bit step of the reflected CRC-32 of an Ethernet FCS. -/
def fcsStep (c : BitVec 32) : BitVec 32 :=
  if c.getLsbD 0 then (c >>> 1) ^^^ 0xEDB88320#32 else c >>> 1

/-- Take one byte into the FCS. -/
def fcsByte (c : BitVec 32) (b : Byte) : BitVec 32 :=
  let x := c ^^^ b.zeroExtend 32
  fcsStep (fcsStep (fcsStep (fcsStep (fcsStep (fcsStep (fcsStep (fcsStep x)))))))

/-- A frame with its FCS, or with its FCS inverted (R298). -/
def withFcs (inverted : Bool) (l : List Byte) : List Byte :=
  let c := l.foldl fcsByte 0xFFFFFFFF#32
  l ++ leBytes 4 (if inverted then c else ~~~c).toNat

/-- Insert `x` before the first element that is not less than it. -/
def insBy {α : Type} (lt : α → α → Bool) (x : α) : List α → List α
  | [] => [x]
  | y :: r => if lt y x then y :: insBy lt x r else x :: y :: r

/-- Stable insertion sort by a strict order. -/
def sortBy {α : Type} (lt : α → α → Bool) : List α → List α
  | [] => []
  | x :: r => insBy lt x (sortBy lt r)

/-- The first index in `[from, from+fuel)` that satisfies `p`. -/
def findFrom (p : Nat → Bool) : Nat → Nat → Option Nat
  | 0, _ => none
  | fuel + 1, i => if p i then some i else findFrom p fuel (i + 1)

end Sys2Proof.Machine
end

