-- ==== Sys2Proof/Machine/Alu.lean ====
section
/-!
DEFINITION. The kerf engine's arithmetic (R259, R260), its conditions (R255), its checksum sums (R262), and the reading
of byte operands (R257).
-/
namespace Sys2Proof.Machine

/-- A value of `w` bits as a signed number. -/
def signedOf (w a : Nat) : Int := if a < 2 ^ (w - 1) then (a : Int) else (a : Int) - (2 ^ w : Nat)

/-- A signed result lies outside the range of `w` bits. -/
def signedOvf (w : Nat) (x : Int) : Bool :=
  decide (x < -((2 ^ (w - 1) : Nat) : Int)) || decide (((2 ^ (w - 1) : Nat) : Int) ≤ x)

/-- What the ALU answers: the result, the carry and the overflow. -/
structure AluOut where
  r : Nat
  c : Bool
  v : Bool
  deriving DecidableEq, Repr

/-- A result with carry and overflow clear. -/
def aluPlain (r : Nat) : AluOut := { r := r, c := false, v := false }

/-- Addition with a carry in (R259). -/
def aluAdd (w a b cin : Nat) : AluOut :=
  let x := a + b + cin
  { r := x % 2 ^ w, c := decide (2 ^ w ≤ x), v := signedOvf w (signedOf w a + signedOf w b + (cin : Int)) }

/-- Subtraction with a borrow in (R259). -/
def aluSub (w a b cin : Nat) : AluOut :=
  { r := (a + 2 * 2 ^ w - b - cin) % 2 ^ w, c := decide (a < b + cin),
    v := signedOvf w (signedOf w a - signedOf w b - (cin : Int)) }

/-- SHL (R259). -/
def aluShl (w a s : Nat) : AluOut :=
  { r := if s < w then a * 2 ^ s % 2 ^ w else 0, c := decide (1 ≤ s) && decide (s ≤ w) && a.testBit (w - s), v := false }

/-- SHR (R259). -/
def aluShr (w a s : Nat) : AluOut :=
  { r := if s < w then a / 2 ^ s else 0, c := decide (1 ≤ s) && decide (s ≤ w) && a.testBit (s - 1), v := false }

/-- SAR (R259). -/
def aluSar (w a s : Nat) : AluOut :=
  let sign := a.testBit (w - 1)
  let fill := if sign then 2 ^ w - 2 ^ (w - min s w) else 0
  { r := (if s < w then a / 2 ^ s else 0) + fill,
    c := decide (1 ≤ s) && (if s < w then a.testBit (s - 1) else sign), v := false }

/-- CSUM16: addition with end-around carry (R259). -/
def aluCsum (w a b : Nat) : AluOut :=
  let x := a + b
  { r := x % 2 ^ w + x / 2 ^ w, c := decide (2 ^ w ≤ x), v := false }

/-- DEPOSIT: bits [s+n−1 : s] of A replaced by the low n bits of B (R259). -/
def aluDeposit (w a b imm : Nat) : Nat :=
  let s := imm % 64
  let n := imm / 256 % 64 + 1
  (a % 2 ^ s + b % 2 ^ n * 2 ^ s + a / 2 ^ (s + n) * 2 ^ (s + n)) % 2 ^ w

/-- The ALU (R259) on the low `w` bits of A and B; `cin` is the C flag. -/
def alu (op w a b cin imm : Nat) : AluOut :=
  let a := a % 2 ^ w
  let b := b % 2 ^ w
  match op with
  | 0x00 => aluPlain a
  | 0x01 => aluPlain b
  | 0x02 => aluAdd w a b 0
  | 0x03 => aluAdd w a b cin
  | 0x04 => aluSub w a b 0
  | 0x05 => aluSub w a b cin
  | 0x06 => aluPlain (a &&& b)
  | 0x07 => aluPlain (a ||| b)
  | 0x08 => aluPlain (a ^^^ b)
  | 0x09 => aluPlain (a &&& (2 ^ w - 1 - b))
  | 0x0A => aluShl w a (b % 64)
  | 0x0B => aluShr w a (b % 64)
  | 0x0C => aluSar w a (b % 64)
  | 0x0D => aluSub w a b 0
  | 0x0E => aluPlain (a &&& b)
  | 0x0F => aluPlain (min a b)
  | 0x10 => aluPlain (max a b)
  | 0x11 => aluCsum w a b
  | 0x12 => aluPlain (a / 2 ^ (b % 64) % 2 ^ (b / 256 % 64 + 1))
  | 0x13 => aluPlain (aluDeposit w a b imm)
  | _ => aluPlain 0

/-- The operations whose C and V may raise OVERFLOW/ARITH (R260). -/
def arithOp (op : Nat) : Bool := decide (2 ≤ op) && decide (op ≤ 5) || op == 0x0D

/-- CMP and TEST write nothing (R259). -/
def aluWrites (op : Nat) : Bool := op != 0x0D && op != 0x0E

/-- The conditions of COND 1 to 13 (R255). -/
def condTrue (cond : Nat) (z n c v : Bool) (u : Nat) : Bool :=
  match cond with
  | 1 => z
  | 2 => !z
  | 3 => n
  | 4 => !n
  | 5 => c
  | 6 => !c
  | 7 => v
  | 8 => n != v
  | 9 => c || z
  | 10 => u.testBit 0
  | 11 => u.testBit 1
  | 12 => u.testBit 2
  | 13 => u.testBit 3
  | _ => false

/-- The next address (R254): `NEXT`, with bit 0 forced to 1 when a condition of COND 1 to 13 holds. -/
def nextAddr (next : Nat) (taken : Bool) : Nat := if taken then next ||| 1 else next

/-- Ones' complement addition of 16-bit words. -/
def ocAdd (a b : Nat) : Nat := (a + b) % 65536 + (a + b) / 65536

/-- The ones' complement of a 16-bit word. -/
def ocNot (a : Nat) : Nat := 65535 - a % 65536

/-- The two bytes of a word exchanged. -/
def swap16 (a : Nat) : Nat := a % 256 * 256 + a / 256 % 256

/-- The 16-bit word of the copy at an even offset; a byte past the end counts as zero. -/
def word16 (l : List Byte) (o : Nat) : Nat := beNat (padTo 2 (slice l o 2))

/-- The even offsets of the words that bytes [x, x+n) touch. -/
def wordsOf (x n : Nat) : List Nat :=
  (List.range ((x % 2 + n + 1) / 2)).map (fun i => x - x % 2 + 2 * i)

/-- The value that a fold writes (R262). -/
def foldValue (udp odd : Bool) (field acc : Nat) : Nat :=
  if udp && field == 0 then 0
  else
    let r := ocNot (ocAdd (ocNot field) (if odd then swap16 acc else acc))
    if udp && r == 0 then 65535 else r

/-- Replace bytes of a list from offset `o`. -/
def putBytes (l : List Byte) (o : Nat) (b : List Byte) : List Byte := l.take o ++ b ++ l.drop (o + b.length)

/-- The number that `n` bytes of `l` at offset `o` spell, bytes past the end reading as zero (R231, R257). -/
def readBytes (l : List Byte) (o n : Nat) (le : Bool) : Nat :=
  let b := padTo n (slice l o n)
  if le then leNat b else beNat b

/-- The low `n` bytes of a result in the order that `LE` sets (R258). -/
def writeBytes (r n : Nat) (le : Bool) : List Byte := if le then leBytes n r else beBytes n r

end Sys2Proof.Machine
end

