-- ==== Sys2Proof/Config.lean ====
section
/-!
DEFINITION. What the spec leaves open or computes by standard cryptography: opaque constants, of which nothing can
be proved but that they are functions.
-/
namespace Sys2Proof.Config

/-- The free values (log entry 2): value number `n`. -/
opaque freeNat : Nat → Nat

/-- SHA-384 of a byte string: 48 bytes. -/
opaque sha384 : List Byte → List Byte

/-- A symmetric or asymmetric construction of the key service, named by its first argument, over byte strings. -/
opaque crypto : Nat → List (List Byte) → List Byte

/-- HKDF-Expand of a key over an info string to a number of bytes, and the whole HKDF with SHA-384 of a salt, keying material and an
info string (R468, R472). -/
opaque hkdfExpand : List Byte → List Byte → Nat → List Byte
opaque hkdf : List Byte → List Byte → List Byte → Nat → List Byte

/-- AES-256-GCM (R468, R472): the text of the same length that a key and an IV give a text, and the tag of 16 bytes over additional
data and that text. -/
opaque gcmText : List Byte → List Byte → List Byte → List Byte
opaque gcmTag : List Byte → List Byte → List Byte → List Byte → List Byte

/-- The x-coordinate that ECDH yields from a private and a public key, and the public key of a private one (R458, R472). -/
opaque ecdh : List Byte → List Byte → List Byte
opaque publicOf : List Byte → List Byte

/-- What fuses and boot ROM hold and no reader sees (R458): the private device identity key (0), the private wrap key (1) and the
Brinaton root digest (2). -/
opaque fusedKey : Nat → List Byte

/-- The quality level that ESMC carries for a source other than SyncE, by the source's type and clockClass (R70). -/
opaque sourceQl : Nat → Nat → BitVec 8

/-- The MAC address of a port, from which its MAC control frames are sent (R83). -/
opaque portMac : Nat → BitVec 48

/-- Where the Ranger has placed a structure of the prefix trie: its first entry in a store of R181, by the structure's name (log
entry 96). -/
opaque storeIndex : Nat → List Nat → Nat

/-- The index of a frame record in its store, by the record's serial number, and that of a copy descriptor, by the record and the
copy's ordinal (R274). -/
opaque recordIndex : Nat → BitVec 20
opaque descIndex : Nat → Nat → BitVec 20

/-- The check bits of the 144 code over 16 bytes, with what the place of the word folds in (R298, R344). -/
opaque code144 : List Nat → List Byte → BitVec 16

/-- FREE VALUE, taken below 33 (R348): the core clocks that a DRAM channel takes to switch direction at the end of a request; the manual
bounds them by 32. -/
opaque turnClocks : Nat → Nat → Nat

/-- What the factory fuses into the module: its serial number (0), and the identifiers of its device identity key (1) and
of its wrap key (2) (R465). -/
opaque fuse : Nat → BitVec 128

end Sys2Proof.Config
end

