-- ==== Sys2Proof/Machine/State.lean ====
section
/-!
DEFINITION. The state of the module as plain data: every register, table, queue and flag that the spec gives it, the
queue of waiting commands, and the state after reset. A `Tab` field that lists nothing holds every entry at the
default that its docstring or its element type names.
-/
namespace Sys2Proof.Machine

/-- Why the block stops. No command stops it: the spec gives every row an effect, so no meaning raises this. -/
inductive Fault where
  /-- Raised by no meaning (safe: nothing rests on it). -/
  | unreachable
  deriving DecidableEq, Repr

/-- Why a command is not carried out. -/
inductive Refusal where
  /-- Raised by `exec` alone, for a command that has no meaning yet (safe: the block stops where the hardware goes
  on). -/
  | notModelled (mnemonic : String)
  deriving DecidableEq, Repr

/-! ## Timing (R47 to R73) -/

/-- What the module keeps of one time source (R54 to R57). -/
structure SrcSt where
  qualified : Bool := false
  /-- Running ring (`State.ran`) since which the source has been good (R54). -/
  goodSince : Option Nat := none
  /-- Consecutive pulses, each paired with an accepted ToD (R54). -/
  pulses : Nat := 0
  /-- Consecutive expected pulses missing or rejected (R55). -/
  missed : Nat := 0
  /-- Running ring of the last 1PPS pulse received, for the pairing of R55. -/
  lastPulse : Option Nat := none
  /-- TAI second of the last accepted ToD (R55). -/
  lastTod : Option Nat := none
  /-- Filtered offset from the grid, in 0.5 ns units (R71). -/
  offset : Int := 0
  /-- Last accepted ESMC quality level (R54), and the running ring of the last ESMC, Sync and Announce message. -/
  ql : Nat := 0
  lastEsmc : Nat := 0
  lastSync : Nat := 0
  lastAnnounce : Nat := 0
  /-- clockClass of the last accepted Announce of a PTP source (R56). -/
  clockClass : Nat := 0
  /-- currentUtcOffset of a PTP source (R55). -/
  utcOffset : Option Nat := none
  /-- The source was found too far from the grid (R52). -/
  far : Bool := false
  deriving DecidableEq, Repr

/-- The cartridge as the module sees it (R62 to R68, `TIM.CART` of R71). -/
structure CartSt where
  present : Bool := false
  idValid : Bool := false
  lifeValid : Bool := false
  warm : Bool := false
  inUse : Bool := false
  lifeEnd : Bool := false
  rejected : Bool := false
  reason : Nat := 0
  /-- Last accepted temperature in 1/16 °C. -/
  temp : Int := 0
  /-- A reading has been accepted, so the rate test of R68 has a previous reading. -/
  tempSeen : Bool := false
  hours : Nat := 0
  learn : Nat := 0
  serial : Nat := 0
  /-- Running ring at which the present warm-up began (R63). -/
  warmStart : Nat := 0
  /-- Rings run LOCKED since the warm-up ended (R62). -/
  lockedRings : Nat := 0
  /-- The conditions of use have been found to hold: the cartridge enters use at the next boundary (R62). -/
  useDue : Bool := false
  deriving DecidableEq, Repr

/-- The timing subsystem. -/
structure TimSt where
  /-- `TIM.SRC[0..7]` (R58). -/
  src : Tab (BitVec 64) := []
  /-- `TIM.CTL` (R72). -/
  ctl : BitVec 128 := 0x250000000000640002#128
  state : TimState := .free
  source : Option Nat := none
  timeFar : Bool := false
  /-- `TIM.STATUS.DET_EXCLUDED` as R60 sets and clears it. -/
  detExcl : Bool := false
  stateSince : Nat := 0
  /-- Running ring at which the state took effect, for the 600 s of R59. -/
  stateRan : Nat := 0
  slewStart : Nat := 0
  /-- Running ring at which the phase correction under way began (R60), and at which it ends (R49); 0 = none. -/
  slewRan : Nat := 0
  slewEnd : Nat := 0
  phaseOffset : Int := 0
  freqOffset : Int := 0
  /-- Running ring of entry into holdover, for the limit of R66. -/
  holdStart : Nat := 0
  /-- The default limit in seconds, fixed at entry (R66). -/
  holdLimit : Nat := 0
  /-- Running ring since which the filtered offset has stayed within ±50 ns (R59). -/
  okSince : Option Nat := none
  /-- A phase source has qualified since power-on, so no further initial alignment follows (R50). -/
  aligned : Bool := false
  /-- The first phase source that has qualified: the initial alignment to it is due at the next boundary. -/
  alignDue : Option Nat := none
  /-- The selected source is a phase source, as it was selected (R58, R59). -/
  phaseSel : Bool := false
  srcs : Tab SrcSt := []
  cart : CartSt := {}
  /-- The last life counter seen for each cartridge serial number (R67). -/
  lastLife : Tab Nat := []
  /-- The time hint in MRAM (R51). -/
  hint : Nat := 0
  /-- The holdover limit has run out (R66), to take effect at the next boundary. -/
  holdExpired : Bool := false
  /-- The 1PPS output's rising edges so far (R69), and the instant of the last one, in 1/64 ns of grid time. -/
  ppsOut : Nat := 0
  ppsEdge : Int := 0
  /-- The timing state has been evaluated at the boundary of this ring (R59). -/
  evalRing : Nat := 0
  /-- The grid was set at the boundary in progress: what it passed over takes effect at the next boundary (R53). -/
  stepped : Bool := false
  /-- What the DPLL has learned of the TCXO's frequency, in 0.01 ppb; none since the last power cycle (R73). -/
  tcxo : Option Int := none
  deriving DecidableEq, Repr

/-! ## Host interface and mailboxes (R385 to R412) -/

/-- A Laent response message: the header fields of R395 and the result fields of R414, with its response data. -/
structure Rsp where
  op : Nat := 0
  inner : Bool := false
  status : Status := .ok
  tag : BitVec 32 := 0
  rotation : BitVec 16 := 0
  /-- Validation ring v; 0 if refused before validation. -/
  v : Nat := 0
  dataAddr : BitVec 64 := 0
  data : List Byte := []
  aux : BitVec 32 := 0
  count : Nat := 0
  ring : Nat := 0
  value : BitVec 64 := 0
  /-- The command's `CID` byte, where it is not that of the page (R395). -/
  cid : Option Nat := none
  deriving DecidableEq, Repr

/-- The PASID and the host address that a DMA request carries (R386, R390). -/
structure Dma where
  pasid : Nat := 0
  addr : BitVec 64 := 0
  deriving DecidableEq, Repr

/-- A written response slot: the response, and, for the outer response of SECURED (R399), the inner response that
its record carries; for SAVE, the captured state that the encrypted body carries (R448). -/
structure Slot where
  rsp : Rsp := {}
  inner : Option Rsp := none
  blob : Option Saved := none
  /-- The 64 bytes of the slot, and the DMA requests that wrote them and the response data (R386, R395, R397). -/
  bytes : List Byte := []
  dma : Dma := {}
  dataDma : Dma := {}
  deriving DecidableEq, Repr

/-- A written event slot (R402): bytes 16 to 63 in `body`, before sealing. -/
structure Evt where
  code : Nat := 0
  sealed : Bool := false
  withheld : Bool := false
  lostBefore : Bool := false
  cid : Nat := 0
  rotation : BitVec 16 := 0
  seq : BitVec 32 := 0
  body : List Byte := []
  /-- The 64 bytes of the slot, and the DMA request that wrote them. -/
  bytes : List Byte := []
  dma : Dma := {}
  deriving DecidableEq, Repr

/-- A command that was read and has no response yet (R392, R400). -/
structure ReadEnt where
  tag : BitVec 32
  op : Nat
  /-- Ring of validation v (R398). -/
  v : Nat
  long : Bool
  /-- The message of this SECURED command has been opened (R399). -/
  begun : Bool := false
  /-- The response, when it waits for responses of earlier commands (R400). -/
  ans : Option Slot := none
  deriving DecidableEq, Repr

/-- The outer SECURED command whose inner command is being carried out (R399). -/
structure SecOpen where
  tag : BitVec 32
  outAddr : BitVec 64
  outLen : Nat
  /-- The session under which it came (R467): the number of its export master secret. -/
  sess : Nat := 0
  deriving DecidableEq, Repr

/-- A command held for its `NOT_BEFORE` (R398). `sec`: it is the inner command of this SECURED command, which was read
(R399). -/
structure Held where
  tag : BitVec 32
  op : Nat
  notBefore : Nat
  arg1 : BitVec 32
  sec : Option SecOpen := none
  deriving DecidableEq, Repr

/-- One compartment's mailbox (R387 to R406). -/
structure Mbx where
  cmdTail : BitVec 32 := 0
  cmdHead : BitVec 32 := 0
  rspHead : BitVec 32 := 0
  rspTail : BitVec 32 := 0
  evtHead : BitVec 32 := 0
  evtTail : BitVec 32 := 0
  cmdBase : BitVec 64 := 0
  rspBase : BitVec 64 := 0
  evtBase : BitVec 64 := 0
  /-- `MBX.CFG` fields (R388). -/
  enable : Bool := false
  evtSeal : Bool := false
  timeout : Nat := 1000000
  holdoff : Nat := 0
  /-- `STATUS.ENABLED` and its changes waiting for a boundary (R389). -/
  enabled : Bool := false
  enabling : Bool := false
  /-- `STATUS.FAULT` (R389), and the stop of the mailbox by a DMA error until `ENABLE` is written 0 and 1 (R405). -/
  fault : Nat := 0
  dmaStop : Bool := false
  /-- The latched high half of `RING_NOW` (R387). -/
  latch : BitVec 32 := 0
  /-- `CMD_TAIL` at the last DOORBELL.FETCH: the Ranger reads commands up to it (R393). -/
  fetchTo : BitVec 32 := 0
  reads : List ReadEnt := []
  held : Option Held := none
  secOpen : Option SecOpen := none
  /-- Commands read in the ring in progress (R394), and the DMA requests that read the last one's slot and payload. -/
  readsInRing : Nat := 0
  cmdDma : Dma := {}
  payDma : Dma := {}
  /-- Events lost since the last one written, and the ring of the first loss (R401). -/
  lost : Nat := 0
  lostRing : Nat := 0
  /-- Events that wait for the ACCEPTED response of the command whose effect they report: code and body (R400). -/
  late : List (Nat × List Byte) := []
  deriving DecidableEq, Repr

/-- One MSI-X vector (R404). -/
structure Vec where
  armed : Bool := true
  /-- Running ring from which a re-armed vector may signal again. -/
  holdUntil : Nat := 0
  /-- Mask and pending bit of the PCIe MSI-X structures, and messages sent. -/
  masked : Bool := true
  pend : Bool := false
  /-- Message address and data of its table entry. -/
  addr : BitVec 64 := 0
  data : BitVec 32 := 0
  sent : Nat := 0
  deriving DecidableEq, Repr

/-- The host interface. -/
structure HostSt where
  mbx : Tab Mbx := []
  vec : Tab Vec := []
  /-- Response and event slots as written to the rings in host memory: (CID, slot). -/
  rspSlots : Tab Slot := []
  evtSlots : Tab Evt := []
  /-- Commands read in all compartments in the ring in progress, and one more than the compartment whose turn is next, 0 = as the
  ring's boundary set it (R394). -/
  readsInRing : Nat := 0
  turn : Nat := 0
  /-- A RESTART-class fault or a restart stops the reading of commands and the writing of responses (R496). -/
  stopped : Bool := false
  /-- A RESTART command has been carried out: commands read from now on receive no response (R433). -/
  closing : Bool := false
  /-- PCIe link rate and width (`CAP.PCIE_RATE`, `CAP.PCIE_WIDTH`, R410). -/
  pcieRate : Nat := 5
  pcieWidth : Nat := 8
  /-- PCIe configuration space (R385, R412): Device Control, with the largest payload in bits [7:5] and the largest read request in
  bits [14:12], and the errors that AER has reported (PRESUMED, log entry 128). -/
  devCtl : BitVec 16 := 0x2810#16
  aer : BitVec 32 := 0
  /-- The reply last given on the management port to a MGMT_LAENT or SPDM request (R469). -/
  mgmtReply : Option Slot := none
  deriving DecidableEq, Repr

/-! ## Laent commands waiting for a ring (R416, R422) -/

/-- A command answered ACCEPTED, or checked and waiting for the next boundary, whose effect lands at `due`. -/
structure Item where
  due : Nat
  /-- Validation ring (R398). -/
  v : Nat
  op : Op
  req : Req
  /-- A response follows the landing (effect "next", R416). -/
  rsp : Bool := false
  /-- Captured state carried by RESTORE (R450). -/
  blob : Option Saved := none
  /-- A number fixed at acceptance: the cut handle of a commit (R147). -/
  num : Nat := 0
  /-- The SECURED command that carries it (R399). -/
  sec : Option SecOpen := none
  deriving DecidableEq, Repr

/-! ## The Lookout (R478 to R502) -/

/-- A fault record `LKO.REC` (R484). -/
structure FaultRec where
  seq : Nat
  cls : Nat
  unit : Nat
  code : Nat
  ring : Nat
  cid : Nat
  epoch : Nat
  count : Nat
  detail : List Nat
  deriving DecidableEq, Repr

/-- One fenceable unit (R478, R490 to R494). -/
structure UnitSt where
  epoch : Nat := 0
  /-- Ring at which the epoch last changed. -/
  epochRing : Nat := 0
  fenced : Bool := false
  /-- The unit whose fence took this one with it; its own number for a fence of its own. -/
  with_ : Nat := 0
  ready : Bool := false
  retired : Bool := false
  attempts : Nat := 0
  /-- The unit reset of R493 has begun. -/
  resetting : Bool := false
  deriving DecidableEq, Repr

/-- The Lookout. -/
structure LkoSt where
  units : Tab UnitSt := []
  /-- The record store, newest first (at most 4,096). -/
  recs : List FaultRec := []
  /-- The MRAM log, newest first (at most 256). -/
  log : List FaultRec := []
  /-- The next record's `SEQ`. -/
  seq : Nat := 0
  notes : Nat := 0
  fences : Nat := 0
  restartHold : Bool := false
  lastChange : Nat := 0
  /-- Units whose fence is due at the next boundary, each with the running ring in which its cause was found (R490). -/
  pendFence : List (Nat × Nat) := []
  /-- The newest records whose FAULT event has not been posted yet: their number (R489). -/
  unposted : Nat := 0
  /-- Running ring whose boundary starts a device restart (R433, R496, R510). -/
  restartAt : Option Nat := none
  /-- Fault causes counted per (unit, cause, window) (R482). -/
  win : Tab Nat := []
  /-- Factory test mode (R499, R500). -/
  factory : Bool := false
  factoryCount : Nat := 0
  /-- Injections waiting: (ring, unit, class, code). -/
  inject : List (Nat × Nat × Nat × Nat) := []
  deriving DecidableEq, Repr

/-! ## Modes, low power and bring-up (R503 to R519) -/

/-- Modes and low-power measures. -/
structure MdSt where
  mode : Mode := .sealed
  since : Nat := 0
  /-- Bring-up steps 1 to 5 are complete (R508). -/
  upDone : Bool := false
  /-- An unfenceable unit has failed its self-test: bring-up has stopped in SEALED (R508). -/
  upStop : Bool := false
  /-- Running ring at which bring-up entered STAGED (R509). -/
  upStaged : Option Nat := none
  /-- QUIESCED has been posted since the last entry into FROZEN or STAGED (R506); true when no test is due. -/
  quiesced : Bool := true
  /-- Group asleep (R515), and the state a fenced group records for its lift, with the cause of its recording. -/
  asleep : Tab Bool := []
  sleepRec : Tab (Bool × Nat) := []
  /-- Pipeline gated; pipeline ungated and not ready yet (R516). -/
  gated : Tab Bool := []
  waking : Tab Bool := []
  /-- The night-trim schedule as written (R517). -/
  ntrim : List Byte := []
  /-- The last ring whose night-trim step has been applied or passed: later ones are due (R53, R518). -/
  trimDone : Nat := 0
  /-- Sleep and wake changes of the present boundary that wait for its step 8: group, asleep, cause (R515, R581). -/
  sleepDue : List (Nat × Bool × Nat) := []
  /-- `IDLE_RINGS` as a step replaced it (R518). -/
  idleOverride : Option Nat := none
  deriving DecidableEq, Repr

/-! ## Compartments (R435 to R457) -/

/-- A compartment's definition and run-time state (R435, R436, R443 to R446). -/
structure Cmp where
  defined : Bool := false
  pasid : Nat := 0
  actQuota : Nat := 0
  dataQuota : Nat := 0
  psetQuota : Nat := 0
  odgQuota : Nat := 0
  grvQuota : Nat := 0
  emQuota : Nat := 0
  emSquota : Nat := 0
  trieQuota : Nat := 0
  region : BitVec 64 := 0
  frozen : Bool := false
  /-- CMP_STATE EMPTY has been posted for this freeze (R446). -/
  emptyPosted : Bool := false
  rotation : BitVec 16 := 0
  /-- Running ring of the last change of the rotation (R443). -/
  rotRing : Nat := 0
  deriving DecidableEq, Repr

/-- CID 0's factory definition (R438). -/
def factoryCid0 (v : Variant) : Cmp :=
  { defined := true, actQuota := 131072, dataQuota := 98304, psetQuota := 4096, odgQuota := 64,
    grvQuota := match v with | .f | .m => 512 | .e => 0,
    emQuota := 1048576, emSquota := 2097152, trieQuota := 2097152 }

/-- An attachment entry (R439) with its compartment. -/
structure Att where
  port : Nat
  kind : Nat
  lo : Nat
  hi : Nat
  cid : Nat
  deriving DecidableEq, Repr

/-- All compartments. -/
structure CmpSt where
  cmp : Tab Cmp := [((0, 0, 0), factoryCid0 .f)]
  att : List Att := []
  /-- Running ring at which a compartment last lost its last entry on a port: (CID, port) (R441). -/
  detached : Tab Nat := []
  /-- Nonces of restored blobs, newest first, at most 1,024 (R450). -/
  nonces : List Nat := []
  /-- Nonces drawn for save blobs (R449). -/
  drawn : List Nat := []
  deriving DecidableEq, Repr

/-! ## Trust and keys (R458 to R477) -/

/-- A secured session (R467). -/
structure Sess where
  /-- The requester key it was authenticated with. -/
  key : List Byte := []
  lastMsg : Nat := 0
  /-- Events generated so far under this session, lost ones among them (R468), and the number of the free value that names its export master secret. -/
  events : Nat := 0
  ems : Nat := 0
  deriving DecidableEq, Repr

/-- A key-store slot (R470). -/
structure KeySlot where
  gen : Nat := 0
  owner : Option Nat := none
  typ : Nat := 0
  exportable : Bool := false
  key : List Byte := []
  deriving DecidableEq, Repr

/-- A firmware slot (R459): whether its image verifies, its security version and its version. -/
structure FwSlot where
  valid : Bool := false
  secVersion : Nat := 0
  version : Nat := 0
  /-- The image's bytes; none for the image that the factory wrote, which the manual does not give. -/
  bytes : List Byte := []
  deriving DecidableEq, Repr

/-- Progress of the SPDM exchange that opens a session on one transport (R463, R466). -/
structure SpdmSt where
  version : Bool := false
  caps : Bool := false
  algs : Bool := false
  offered : Option (List Byte) := none
  keyEx : Bool := false
  deriving DecidableEq, Repr

/-- Trust, sessions and the key store. Transport 0 to 31 is the mailbox of that compartment, 32 the management port. -/
structure TrustSt where
  ownerKeys : List (List Byte) := []
  claimed : Bool := false
  binding : Tab (List Byte) := []
  cutKey : Tab (List Byte) := []
  sess : Tab (Option Sess) := []
  spdm : Tab SpdmSt := []
  keys : Tab KeySlot := []
  tamper : Nat := 0
  /-- Lifecycle bit [1]: factory mode entered since the claim (R464). -/
  factorySeen : Bool := false
  rollback : Nat := 0
  fwA : FwSlot := { valid := true, version := 1 }
  fwB : FwSlot := {}
  /-- The running slot is B. -/
  runB : Bool := false
  /-- ROM recovery (R460). -/
  recovery : Bool := false
  /-- A PASID for CID 0 that applies at the next boundary (R469). -/
  pasidNext : Option Nat := none
  deriving DecidableEq, Repr

/-! ## Ports, optics and MACsec (R74 to R104) -/

/-- A logical port. -/
structure Port where
  /-- `PORT.CFG` (R77); the factory value of every field that has one. -/
  cfg : BitVec 128 := 0x27100028ffff2400000000ff0000#128
  /-- `PORT.RADIO.WIN` (R90). -/
  win : BitVec 32 := 0
  up : Bool := false
  /-- Ring of the last change of the link state. -/
  changed : Nat := 0
  /-- Running ring from which the port trains (R79). -/
  trainFrom : Nat := 0
  /-- Times the port has gone down: a copy in flight across a change is discarded (R288). -/
  downs : Nat := 0
  /-- Priorities for which XOFF is in force, and the running ring of the last XOFF (R83). -/
  xoff : Nat := 0
  xoffRing : Nat := 0
  /-- Preemption verified; verify mPackets sent and unanswered (R87). -/
  verified : Bool := false
  verifies : Nat := 0
  /-- Running ring of the last verify mPacket (R87). -/
  lastVerify : Nat := 0
  /-- Frames that took the ring in progress as entry ring: the next position of R531. -/
  pos : Nat := 0
  /-- Former pools of the port, each with the running ring of the change of `PORT.CFG.POOL` that ended it, oldest first (R301). -/
  poolWas : List (Nat × Nat) := []
  deriving DecidableEq, Repr

/-- The monitors of one optic, as last accepted (R95): temperature in 1/16 °C, supply in mV. -/
structure Cage where
  present : Bool := false
  identity : List Byte := []
  powerClass : Nat := 0
  /-- Advertised maximum power in mW and minimum operating temperature (R94). -/
  powerMw : Nat := 0
  minTemp : Int := 0
  highPower : Bool := false
  heater : Bool := false
  denied : Bool := false
  mgmtLost : Bool := false
  timeouts : Nat := 0
  temp : Int := 0
  volt : Nat := 0
  bias : List Nat := []
  power : List Int := []
  /-- A temperature, and a supply voltage, has been accepted, so the rate tests of R95 have a previous reading. -/
  seen : Bool := false
  seenV : Bool := false
  deriving DecidableEq, Repr

/-- A SecY with its channels and associations (R96 to R98). -/
structure SecY where
  rec_ : BitVec 128 := 0
  /-- Receive SCs: (number, SCI, enabled). -/
  scs : List (Nat × BitVec 64 × Bool) := []
  sas : List SaRec := []
  deriving DecidableEq, Repr

/-- Ports, cages and link security. -/
structure LinkSt where
  port : Tab Port := []
  cage : Tab Cage := []
  /-- SecYs: (port, index). -/
  secy : Tab SecY := []
  /-- End of the received pause, in clocks since ring 0: (port, class). 0 = none (R84). -/
  pause : Tab Nat := []
  /-- Clock up to which a port group's paused clocks are counted (R527). -/
  pauseAcc : Tab Nat := []
  /-- Link-state causes found in this ring, for the next boundary: (port, up) (R79); and the ports that a change of the
  present boundary takes down at its step 8 (R581). -/
  found : List (Nat × Bool) := []
  downs8 : List Nat := []
  /-- The last frame that each port has put on the wire, FCS included. -/
  wire : Tab (List Byte) := []
  /-- 1PPS, 10 MHz and transmitters squelched, optics in low power: HALTED (R497). -/
  squelched : Bool := false
  deriving DecidableEq, Repr

/-! ## Parse graph and kerf stores (R105 to R127, R249 to R272) -/

/-- The node store and the transition store. -/
structure Graph where
  nodes : Tab (BitVec 256) := []
  trans : Tab (BitVec 96) := []
  deriving DecidableEq, Repr

/-- A kerf image as a bundle section carries it (R268). -/
structure KImg where
  imageId : Nat := 0
  entries : List Nat := []
  micro : List (BitVec 32) := []
  nano : List (BitVec 256) := []
  /-- Ring at which the image first applied. -/
  ring : Nat := 0
  /-- The section's bytes, as SAVE captures them. -/
  section_ : List Byte := []
  /-- Bytes that it takes in MRAM: its whole bundle, or the section alone of a restored image. -/
  held : Nat := 0
  /-- `SIG.KEY_ID` of the bundle's trailer (R461). -/
  signer : List Byte := []
  deriving DecidableEq, Repr

/-- The base bundle held in MRAM: its graph, its image and its bytes. -/
structure BaseBundle where
  graph : Graph := {}
  img : KImg := {}
  bytes : List Byte := []
  deriving DecidableEq, Repr

/-- A finding of a hardware error that waits for the Ranger's rewrite (R125, R148, R241, R244): region (0 parser
record, 1 rule record, 2 action data, 3 store word), pipeline or CID, index, and the running ring of detection. -/
structure Repair where
  region : Nat
  who : Nat
  index : Nat
  ring : Nat
  deriving DecidableEq, Repr

/-- Parser and bundles. -/
structure ParSt where
  /-- The graph in force in the pipelines. -/
  graph : Graph := {}
  /-- The target ring of the last swap and the graph before it, kept until the end of the ring after (R126). -/
  old : Option (Nat × Graph) := none
  /-- Bundles in MRAM. -/
  base : Option BaseBundle := none
  imgs : Tab (Option KImg) := []
  repairs : List Repair := []
  deriving DecidableEq, Repr

/-! ## Cuts (R128 to R154) -/

/-- A live cut, or one that was discarded while frames still hold it (R150). -/
structure Cut where
  handle : Nat
  cid : Nat
  number : Nat
  /-- 0 PENDING, 1 CURRENT, 2 SUPERSEDED (R144). -/
  state : Nat
  signed : Bool
  rotation : BitVec 16
  target : Nat
  /-- Target ring of the cut that superseded it. -/
  supRing : Nat := 0
  live : Nat := 0
  discarded : Bool := false
  /-- The staged-image digest D, and whether RESTORE placed the cut (R551). -/
  digest : List Byte := []
  restored : Bool := false
  body : CutBody
  deriving DecidableEq, Repr

/-- A staging area (R145). -/
structure Staging where
  /-- Staging number S (R205). -/
  num : Nat
  /-- Whether it has a base cut. -/
  based : Bool
  /-- Staged-image digest D (R475). -/
  digest : List Byte
  body : CutBody
  deriving DecidableEq, Repr

/-- The rule engine. -/
structure CutSt where
  cuts : List Cut := []
  /-- Handles of the cuts that no frame held at the last clock of the ring before (R152). -/
  idle : List Nat := []
  stage : Tab (Option Staging) := []
  /-- Source of the numbers that name stored entries. -/
  uid : Nat := 1
  deriving DecidableEq, Repr

/-! ## Exact match (R155 to R178) -/

/-- A stored exact-match entry. A wide entry is named by its even bank. -/
structure EmEnt where
  uid : Nat
  cid : Nat
  table : Nat
  wide : Bool
  learned : Bool
  key : BitVec 160
  res : BitVec 64
  bank : Nat
  index : Nat
  stash : Bool
  /-- Learned entries: activity ring (R170), and the entry ring whose request wrote the result (R166). -/
  act : Nat := 0
  wrote : Nat := 0
  bad : Bool := false
  deriving DecidableEq, Repr

/-- A learn request (R166). -/
structure LearnReq where
  ring : Nat
  port : Nat
  ord : Nat
  rotation : BitVec 16
  cid : Nat
  handle : Nat
  table : Nat
  wide : Bool
  key : BitVec 160
  res : BitVec 64
  /-- The template's own result record, which LEARN_REFUSED carries (R176). -/
  tmpl : BitVec 64
  /-- The stamped cut holds a static entry with this key. -/
  static_ : Bool
  deriving DecidableEq, Repr

/-- A version record of a static entry (R163): its place among the module's 16,384, the compartment, the table, the key and the
number of the staging area that reserved it. -/
structure VersRec where
  idx : Nat
  cid : Nat
  table : Nat
  key : BitVec 160
  num : Nat
  deriving DecidableEq, Repr

/-- A tick of a table that waits for its age-outs (R170). -/
structure AgeTick where
  tick : Nat
  cid : Nat
  table : Nat
  limit : Nat
  period : Nat
  deriving DecidableEq, Repr

/-- An event AGED that waits for the sweeper's visit (R172). -/
structure AgedPost where
  ent : EmEnt
  ring : Nat
  reason : Nat
  deriving DecidableEq, Repr

/-- The exact-match table and the learner. -/
structure EmSt where
  ents : List EmEnt := []
  reqs : List LearnReq := []
  ticks : List AgeTick := []
  posts : List AgedPost := []
  /-- Flushes of a port that went down: (port, ring of effect). -/
  flushes : List (Nat × Nat) := []
  /-- Learned entries to remove for parity: (uid, ring of effect). -/
  parity : List (Nat × Nat) := []
  /-- Version records in use. -/
  vers : List VersRec := []
  /-- Running ring, plus one, of the last NOTE for a bad word: (bank, index) (R174). -/
  notes : Tab Nat := []
  /-- The first ring after the last setting of the grid: no learned entry's activity ring lies before it (R53). -/
  floor : Nat := 0
  deriving DecidableEq, Repr

/-! ## Trie parity and grove (R191 to R216) -/

/-- A trie word that failed parity and keeps missing until a cut rebuilds it (R191, R193): its store (0 root, 1 node, 2
reference array, 3 result pool); the node's boundary and block; the root entry's number or the reference's position in its
reference range; the pool record; the last staging write that made the copy of the structure in which it lies; and, for a node, the
end of the node above. A word is the 32-bit word of that number in the entry; the reference words hold two entries each. -/
structure TrieBad where
  cid : Nat
  table : Nat
  store : Nat
  boundary : Nat
  block : BitVec 128
  pos : Nat := 0
  res : BitVec 64 := 0
  stamp : Nat := 0
  above : Nat := 0
  word : Nat := 0
  /-- Further instances that an event for this word has named (R193). -/
  also : List Nat := []
  /-- Cuts with this number or a later one read rebuilt structures. -/
  until_ : Option Nat := none
  lastNote : Nat
  deriving DecidableEq, Repr

/-- A block of a grove array held by an instance (R197). -/
structure GrvBlock where
  arr : Nat
  block : Nat
  cid : Nat
  table : Nat
  width : Nat
  deriving DecidableEq, Repr

/-- A grove write that waits for its move engine (R209): its command, its validation ring, and the SECURED command that
carries it (R399). -/
structure GrvJob where
  req : Req
  v : Nat
  sec : Option SecOpen := none
  deriving DecidableEq, Repr

/-- The grove. -/
structure GrvSt where
  pair : BitVec 8 := 0
  ents : List GrvEnt := []
  blocks : List GrvBlock := []
  jobs : List GrvJob := []
  /-- Mask registers other than register 0: (array, value) (R202). -/
  masks : List (Nat × BitVec 1280) := []
  trieBad : List TrieBad := []
  deriving DecidableEq, Repr

/-! ## Frames, copies, the Landing (R273 to R296) -/

/-- What all copies of a frame share and no unit changes: the stamp, the parse vector, the time and bytes of the
frame as received after MACsec removal (without FCS), and the stage 4 result. -/
structure FrameInfo where
  stamp : BitVec 128
  pv : BitVec 1024
  time : Nat
  /-- The ingress timestamp at the cage, in 0.5 ns of grid time (R91). -/
  ts : Int := 0
  bytes : List Byte
  action : Nat
  copies : Nat
  pset : Option Nat
  serial : Nat
  pos : Nat
  prio : Nat
  deriving DecidableEq, Repr

/-- One copy of a frame. -/
structure Copy where
  fi : FrameInfo
  port : Nat
  cls : Nat
  ord : Nat
  /-- Enqueue ring q (R290), as a running ring, and its ring number (R274). -/
  q : Nat
  qRing : Nat := 0
  bad : Bool := false
  /-- The port's count of going down when its first cell was granted (R288). -/
  downs : Nat := 0
  /-- One more than the serial number of the frame record that it has of its own since it was restored from DRAM (R313); 0 = it
  counts against its frame's record. -/
  rcd : Nat := 0
  /-- A copy of the DRAM portion that was removed and settled; its slots wait to be passed (R315). -/
  doomed : Bool := false
  /-- Ingress group; egress group and port slot, fixed when the copy takes its credits (R278). -/
  ing : Nat := 0
  egr : Nat := 0
  slot : Nat := 0
  /-- The clock since ring 0 at which it may enter its dispatch queue, then at which it may be dispatched (R31, R286). -/
  at_ : Nat := 0
  deriving DecidableEq, Repr

/-- The buffer's record of a frame: its cells with their holders, and its copies that are not settled (R274, R291). -/
structure Frame where
  serial : Nat
  cid : Nat
  pool : Nat
  group : Nat
  port : Nat
  prio : Nat
  /-- (cell index, holders). -/
  cells : List (Nat × Nat)
  /-- Copies not yet settled (R291), and copies that count against the record (R274). -/
  unsettled : Nat
  onDie : Nat := 0
  pset : Option Nat
  incomplete : Bool := false
  /-- The record of one restored copy, whose cells are staging cells (R313). -/
  staging : Bool := false
  /-- The record was read with an uncorrectable error (R274). -/
  bad : Bool := false
  deriving DecidableEq, Repr

/-- A VOQ (R273, R310): its head, its DRAM portion and its tail. -/
structure Voq where
  spilling : Bool := false
  head : List Copy := []
  dram : List Copy := []
  tail : List Copy := []
  /-- Pages of the DRAM portion with their versions, oldest first. -/
  pages : List (Nat × Nat) := []
  /-- Slots written and read since the first page held (R312). -/
  wr : Nat := 0
  rd : Nat := 0
  /-- Slots of the first tail copy that have been sent, where pages were not enough for all (R314). -/
  part : Nat := 0
  /-- The copy whose slots are all sent and not all written; whether the next copy is being read back, and its staging cells. -/
  writing : Option Copy := none
  reading : Bool := false
  stage : List Nat := []
  /-- The page header met in that read is bad (R313). -/
  hdrBad : Bool := false
  deriving DecidableEq, Repr

/-- The crossing state of a path (R279 to R283). -/
structure Path where
  seq : Nat := 0
  /-- One more than the slot pointer, once it has moved in this ring; 0 = as the ring's boundary set it (R280). -/
  slotPtr : Nat := 0
  /-- Copy in progress and the index of its next cell. -/
  cur : Option (Copy × Nat) := none
  /-- The copy whose first cell is granted and follows `cur`. -/
  nxt : Option Copy := none
  deriving DecidableEq, Repr

/-- A cell on its way or held by a resequencer (R277, R286). -/
structure Cell where
  plane : Nat
  src : Nat
  dst : Nat
  seq : Nat
  first : Bool
  last : Bool
  index : Nat
  epoch : Nat
  /-- Data bytes in the cell, and the copy descriptor that it names. -/
  bytes : Nat := 0
  desc : Nat := 0
  copy : Copy
  /-- Clock of arrival since ring 0 (R285). -/
  at_ : Nat := 0
  deriving DecidableEq, Repr

/-- The resequencer window of one path (R286, R287). -/
structure Reseq where
  next : Nat := 0
  held : List Cell := []
  gather : Option Copy := none
  /-- Sequence numbers declared lost and not passed yet (R287, R292). -/
  void_ : List Nat := []
  /-- Copies discarded whose later cells are still to be skipped: (serial, ordinal). -/
  dead : List (Nat × Nat) := []
  /-- Cells dropped on arrival whose loss is not declared yet. -/
  lost : List Cell := []
  deriving DecidableEq, Repr

/-- A frame between its FCS verdict and its enqueue (R31): the clock since ring 0 of the enqueue, and its copies. -/
structure InPipe where
  at_ : Nat
  copies : List Copy
  deriving DecidableEq, Repr

/-- The Landing. -/
structure LndSt where
  /-- `LND.CFG` (R294), factory values 64 and 320. -/
  cfg : BitVec 64 := 0x1400040#64
  voq : Tab Voq := []
  path : Tab Path := []
  /-- One more than the matcher pointers that have moved in this ring: (plane, 0 grant or 1 accept, group) (R284). -/
  ptr : Tab Nat := []
  /-- The match found in the previous slot: (plane, ingress, egress). -/
  mtch : List (Nat × Nat × Nat) := []
  flight : List Cell := []
  reseq : Tab Reseq := []
  /-- Egress credits in use: (group, slot, class) (R278). -/
  credit : Tab Nat := []
  /-- The clock of the last walk of each ingress pipeline, one added (R118). -/
  walked : Tab Nat := []
  /-- Credits held per compartment: (CID, port, class) (R336). -/
  occ : Tab Nat := []
  frames : List Frame := []
  serial : Nat := 0
  pipe : List InPipe := []
  deriving DecidableEq, Repr

/-! ## Cell buffer, pools and spill (R297 to R319) -/

/-- A pool (R299 to R306). -/
structure Pool where
  cfg : BitVec 128 := 0x108004000e2900c35009c4011#128
  occ : Nat := 0
  state : Nat := 0
  peak : Nat := 0
  /-- Of the ring in progress: peak occupancy, highest state, crossings, and whether the state changed (R306). -/
  ringPeak : Nat := 0
  ringHigh : Nat := 0
  crossings : Nat := 0
  leaked : Nat := 0
  /-- Free ring: cells never yet taken start at `fresh`; freed cells follow in `free` (R302). -/
  fresh : Nat := 0
  free : List Nat := []
  deriving DecidableEq, Repr

/-- Cell buffer and spill unit. -/
structure BufSt where
  pool : Tab Pool := []
  /-- Allocator caches: (group, pool) (R302). -/
  cache : Tab (List Nat) := []
  /-- Cells held: (pool, ingress port, priority) (R318). -/
  ownerOcc : Tab Nat := []
  /-- Refusals of the ring in progress: (CID or 0, port, priority) (R309). -/
  empties : Tab (Nat × Nat) := []
  /-- Leaked cells: never used again before a device restart (R304). -/
  leaked : List Nat := []
  /-- Pointers that will fail when they next enter or leave a cache or a free ring: (check, cell) (R304). -/
  badPtr : List (Nat × Nat) := []
  /-- `SPILL.CFG` (R317). -/
  spill : BitVec 64 := 0x81000001fc0000#64
  /-- Staging cells in use per group, and the VOQ whose turn it is (R313). -/
  staging : Tab (List Nat) := []
  turn : Tab Nat := []
  /-- Of the ring in progress: groups whose readback waited for staging cells (R313), VOQs whose writes were held (R314). -/
  stageWait : Tab Bool := []
  limitWait : Tab Bool := []
  deriving DecidableEq, Repr

/-! ## Kerf engines (R217 to R248) -/

/-- One kerf engine (R222, R229, R234, R239). Phase 0 no routine, 1 running, 2 in a fetch stall. -/
structure Eng where
  phase : Nat := 0
  copy : Option Copy := none
  /-- Clock of dispatch, and clock from which the engine is idle after its last routine, since ring 0 (R220, R234). -/
  disp : Nat := 0
  idleAt : Nat := 0
  upc : Nat := 0
  sreg : Tab (BitVec 64) := []
  z : Bool := false
  n : Bool := false
  c : Bool := false
  v : Bool := false
  u : Nat := 0
  cd : Tab Nat := []
  out : BitVec 64 := 0
  base : Nat := 0
  growth : Int := 0
  fetches : Nat := 0
  used : Nat := 0
  bytes : List Byte := []
  /-- In a handler, and the cause it handles (R238). -/
  handler : Option Nat := none
  tf : BitVec 1280 := 0
  /-- Code and detail of the last trap taken (R246). -/
  lastTrap : Option (Nat × Nat) := none
  /-- Counter increments held until the end: (pair, bytes). -/
  held : List (Nat × Nat) := []
  deriving DecidableEq, Repr

/-- A rewritten copy: its bytes without FCS and its output record. -/
structure Done where
  copy : Copy
  bytes : List Byte
  out : BitVec 64
  /-- Order of arrival at the scheduler. -/
  arr : Nat := 0
  deriving DecidableEq, Repr

/-- A copy dispatched and not yet passed on: none while its routine runs (R220). -/
structure Slot220 where
  serial : Nat
  ord : Nat
  port : Nat
  cls : Nat
  done : Option Done := none
  /-- Clock at which its routine ended, since ring 0. -/
  at_ : Nat := 0
  deriving DecidableEq, Repr

/-- The first abort of a ring and the number of aborts (R246). -/
structure AbortEvt where
  count : Nat := 0
  /-- 32 × pipeline + engine of the abort reported. -/
  who : Nat := 0
  body : List Byte := []
  deriving DecidableEq, Repr

/-- A store image of before: the clock since ring 0 at which another took its place (R245). -/
structure StoreImage where
  upTo : Nat := 0
  micro : Tab (BitVec 32) := []
  nano : Tab (BitVec 256) := []
  deriving DecidableEq, Repr

/-- The kerf engines, their stores and queues. -/
structure KrfSt where
  micro : Tab (BitVec 32) := []
  nano : Tab (BitVec 256) := []
  /-- The store images of before, oldest first, while a routine that was dispatched in them runs (R245). -/
  prior : List StoreImage := []
  /-- Dispatch queue of each pipeline (R218). -/
  queue : Tab (List Copy) := []
  /-- Copies gathered and released, on their way into the queue of each pipeline (R286), and the clocks since ring 0 from
  which the queue accepts, and the pipeline dispatches, another copy (R218). -/
  ready : Tab (List Copy) := []
  accept : Tab Nat := []
  next : Tab Nat := []
  /-- Engines: (pipeline, engine). -/
  eng : Tab Eng := []
  /-- Copies dispatched and not yet passed on, oldest first, per pipeline (R220). -/
  order : Tab (List Slot220) := []
  /-- A common image that waits for idle engines: dispatch is stopped (R271); the running ring at which
  dispatch resumes. -/
  wait : Option BaseBundle := none
  resume : Nat := 0
  /-- Last abort frame and its ring, per compartment (R246). -/
  abort : Tab (Option (Nat × BitVec 1280)) := []
  /-- The KERF_ABORT event of the ring in progress, per compartment (R246). -/
  abortEvt : Tab AbortEvt := []
  deriving DecidableEq, Repr

/-! ## Egress scheduling (R320 to R340) -/

/-- A gate-list bank (R323, R324). -/
structure Bank where
  hdr : BitVec 64 := 0x10001#64
  ents : List (BitVec 32) := [0xFF0000#32]
  deriving DecidableEq, Repr

/-- A frame that the MAC has begun (R88, R278, R328). -/
structure TxFrame where
  copy : Copy
  /-- Its bytes as they are sent, without FCS, and their number with FCS. -/
  bytes : List Byte := []
  len : Nat
  /-- It may be preempted. -/
  preempt : Bool := false
  /-- The clock at which the fragment in progress began, none while the rest waits, and the bytes of earlier fragments. -/
  frag : Option Nat
  sent : Nat := 0
  /-- The byte of the fragment in progress at which a waiting express frame has it cut. -/
  cut : Option Nat := none
  /-- The clock from which the rest may be sent. -/
  from_ : Nat := 0
  /-- The clock at which the frame ended, its gap included. -/
  done : Option Nat := none
  /-- Cells whose credits have returned (R278). -/
  out : Nat := 0
  deriving DecidableEq, Repr

/-- The egress scheduler. -/
structure SchSt where
  /-- Queues: (port, class, CID) (R320). -/
  queue : Tab (List Done) := []
  bank : Tab Bank := []
  /-- Bank 1 is active. -/
  active : Tab Bool := []
  shape : Tab (BitVec 64) := []
  /-- What a bucket lacks of being full, in 1/512 byte: (port, class) (R332). -/
  lack : Tab Nat := []
  /-- `SHARE`: (CID, port) (R335). -/
  share : Tab (Option (BitVec 32)) := []
  deficit : Tab Nat := []
  ptr : Tab Nat := []
  /-- Frames in transmission on a port (R278, R328). -/
  tx : Tab (List TxFrame) := []
  /-- Clock, plus one, from which a port idles with a ready copy held by a gate alone (R339). -/
  guard : Tab Nat := []
  /-- Running ring, plus one, in which the pause of a (port, class) was last counted (R339). -/
  pauseCnt : Tab Nat := []
  arr : Nat := 0
  /-- Heads held under R336 in the ring in progress: (CID, port). -/
  held : Tab Bool := []
  /-- Copies counted as waiting for their shaper: (serial, ordinal). -/
  shaped : List (Nat × Nat) := []
  /-- Copies whose first byte passes at the MAC in the next ring, as the check units will see them: point, port, class, CID and
  bytes (R379). -/
  offers : List (Nat × Nat × Nat × Nat × List Byte) := []
  deriving DecidableEq, Repr

/-! ## DRAM (R341 to R363) -/

/-- A rank: 0 active, 1 self-refresh, 2 waking; the clock from which a woken rank accepts requests, the running
ring of its last request, hot, temperature in °C. -/
structure Rank where
  state : Nat := 0
  wakeAt : Nat := 0
  /-- The first running ring without a request since the last one (R352). -/
  lastReq : Nat := 0
  hot : Bool := false
  temp : Int := 0
  refreshes : Nat := 0
  /-- One more than the running ring of the last refresh (R349). -/
  refreshed : Nat := 0
  /-- Spill page allocator: the rank's pages from number `fresh` on were never taken, freed pages follow in FIFO order
  (R353). -/
  fresh : Nat := 0
  free : List Nat := []
  deriving DecidableEq, Repr

/-- One burst of a sub-channel as it is stored (R344): its tag, its 64 data bytes and the check bits of its four codewords; what
reads otherwise than it was written: bits of the tag, and a number of bits for each codeword. -/
structure Burst where
  tag : BitVec 64 := 0
  data : List Byte := []
  check : List (BitVec 16) := []
  tagFlip : BitVec 64 := 0
  flips : List Nat := []
  deriving DecidableEq, Repr

/-- What a page's header slot holds (R312): the link to the VOQ's next page with its version, and the index of the first
descriptor slot, 0 for none. -/
structure PageHead where
  next : Option (Nat × Nat) := none
  first : Nat := 0
  deriving DecidableEq, Repr

/-- A request at the DRAM front end (R347): one page, or the slots of it that are moved. -/
structure DReq where
  id : Nat := 0
  cls : Nat
  page : Nat
  cid : Nat := 255
  write : Bool
  /-- The slots moved, the version that their tags carry or must carry, and, for a write, the slots' bytes (R344, R345). -/
  slots : List Nat := []
  ver : Nat := 0
  data : List (List Byte) := []
  /-- Its VOQ (spill and page walks; group 16 = the chain walk). -/
  voq : Nat × Nat × Nat := (0, 0, 0)
  /-- Clock of arrival since ring 0, and whether a throttle has delayed it (R355). -/
  at_ : Nat := 0
  delayed : Bool := false
  deriving DecidableEq, Repr

/-- The DRAM controller. -/
structure DramSt where
  cfg : BitVec 64 := 0x400204e21#64
  /-- Running ring of the bring-up: no rank has been idle for longer (R352). -/
  since : Nat := 0
  /-- Bursts written: (page, sub-channel, burst) (R342, R344). -/
  burst : Tab Burst := []
  /-- Headers of the pages that VOQs hold (R312). -/
  head : Tab PageHead := []
  /-- Clock since ring 0 from which a channel is free, and the spill class that it served last (R347, R348). -/
  busy : Tab Nat := []
  last : Tab Nat := []
  /-- The direction that a channel served last (1 read, 2 write), and its switches of direction in the ring in progress (R348). -/
  dir : Tab Nat := []
  turns : Tab Nat := []
  /-- One more than the running ring in which the present row-hammer window began (R354). -/
  hamWin : Nat := 0
  /-- Rows that the next ring refreshes: (2 × channel + rank, bank, row), and the running ring of each row's last such refresh
  (R354). -/
  victims : List (Nat × Nat × Nat) := []
  rowDone : Tab Nat := []
  /-- `DRAM.STATUS` of each channel as the last boundary wrote it (R361). -/
  status : Tab Nat := []
  /-- One more than the running ring of a channel's last pause (R350). -/
  paused : Tab Nat := []
  /-- Ranks: (channel, rank). -/
  rank : Tab Rank := []
  /-- Version of each page, set at allocation (R345). -/
  ver : Tab Nat := []
  /-- Channel from which the next page is taken (R353). -/
  rot : Nat := 0
  reqs : List DReq := []
  nextId : Nat := 0
  /-- Pages served in the ring in progress: (channel, class) (R347). -/
  served : Tab Nat := []
  /-- Pages of discarded DRAM portions that the Ranger has not returned to the pool yet (R358). -/
  orphan : List Nat := []
  /-- One more than the running ring of the last scrub read of a channel (R356). -/
  lastScrub : Tab Nat := []
  /-- Findings in the current window: channel (R361). -/
  errWin : Tab Nat := []
  /-- Tracked rows with their counts: (channel, rank, bank) (R354). -/
  rows : Tab (List (Nat × Nat)) := []
  /-- Throttles: (channel, rank, bank, class, CID, running ring of the last activation) (R355). -/
  throttle : List (Nat × Nat × Nat × Nat × Nat × Nat) := []
  scrub : Nat := 0
  /-- The Ranger's chain walk is due (R358). -/
  walk : Bool := false
  retrains : Tab Nat := []
  deriving DecidableEq, Repr

/-! ## Tally and check units (R364 to R384) -/

/-- A TALLY_READ in progress (R372, R373): the first record delivered, the next one to read, the end, and what was delivered. -/
structure TlyRead where
  req : Req
  v : Nat
  sec : Option SecOpen := none
  first : Nat
  pos : Nat
  stop : Nat
  got : List (List Byte) := []
  /-- OLDEST and NEXT at the ring boundary at which the read takes its values (R420). -/
  oldest : Nat := 0
  next : Nat := 0
  deriving DecidableEq, Repr

/-- A compartment's tally ring (R368 to R371). -/
structure Tly where
  cfg : BitVec 64 := 0
  /-- First page of the run: a module page number, on a FIS-64-E a page of the on-die area. -/
  base : Nat := 0
  next : Nat := 0
  released : Nat := 0
  /-- Records held: (sequence number, 256 bytes). -/
  recs : List (Nat × List Byte) := []
  /-- Records lost on a fenced channel (R375). -/
  lost : List Nat := []
  /-- Records dropped by a full ring in the ring in progress (R376). -/
  drops : Nat := 0
  deriving DecidableEq, Repr

/-- A capture in staging (R371). -/
structure TRec where
  cid : Nat
  rotation : Nat
  bytes : List Byte
  deriving DecidableEq, Repr

/-- A capture that is taken at the end of stage 4 (R365): its clock since ring 0, its ingress pipeline and port. -/
structure CapDue where
  at_ : Nat
  pipe : Nat
  port : Nat
  tr : TRec
  deriving DecidableEq, Repr

/-- A check unit (R378 to R383). -/
structure Cv where
  /-- The compartment to which it is assigned; 32 = unassigned (R453). -/
  owner : Nat := 0
  cfg : BitVec 256 := 0x2400000100ff00#256
  reg : Nat := 0
  last : Nat := 0
  xsum : Nat := 0
  frames : Nat := 0
  bytes : Nat := 0
  armed : Bool := false
  done : Bool := false
  start : Nat := 0
  dur : Nat := 0
  deriving DecidableEq, Repr

/-- Capture and check units. -/
structure CapSt where
  tly : Tab Tly := []
  staging : Tab (List TRec) := []
  /-- Captures of frames that have not passed stage 4 yet (R365). -/
  due : List CapDue := []
  /-- TALLY_READ commands whose records are being read, oldest first (R372). -/
  reads : List TlyRead := []
  cv : Tab Cv := []
  deriving DecidableEq, Repr

/-! ## Counters and blaze (R520 to R538) -/

/-- A unit's programmable counters (R526, R528). -/
structure Prog where
  sel : List (BitVec 32) := List.replicate 8 0
  val : List Nat := List.replicate 8 0
  ovf : Nat := 0
  /-- Counters that overflowed in the ring in progress, and whether an overflow bit went from clear to set in it (R529). -/
  ringOvf : Nat := 0
  ringSet : Bool := false
  deriving DecidableEq, Repr

/-- Counters and blaze sampling. -/
structure CtrSt where
  /-- Named counters: (counter, index, index). -/
  named : Tab Nat := []
  /-- Action pairs (CID, pair, 0 frames or 1 bytes) and kerf pairs. -/
  action : Tab Nat := []
  kerf : Tab Nat := []
  prog : Tab Prog := []
  /-- Cycle counters (R525): the clock from which every unit counts, what a unit's stops have taken off, and the clock
  at which a stopped unit stopped, plus one. -/
  cycBase : Int := 0
  cycOff : Tab Nat := []
  cycStop : Tab Nat := []
  blz : BitVec 128 := 0x10000000000000000#128
  /-- Former records of `BLZ.CFG`, each with the first entry ring that it no longer governs, oldest first (R530). -/
  blzWas : List (Nat × BitVec 128) := []
  /-- Blaze trace, newest first: (sequence number, CID, 32 bytes). -/
  trace : List (Nat × Nat × List Byte) := []
  blzSeq : Nat := 0
  /-- Read marks: (reader, set). -/
  marks : Tab Nat := []
  /-- Records written in the ring in progress: (ingress 0 or egress 1, pipeline). -/
  blzRing : Tab Nat := []
  deriving DecidableEq, Repr

/-! ## Pair operation (R539 to R556) -/

/-- The redundant pair. -/
structure PairSt where
  cfg : BitVec 128 := 0
  /-- The peer's wrap-key certificate, and the wrap-key identifier of its key (R542, R556). -/
  cert : List Byte := []
  peerId : Nat := 0
  linkUp : Bool := false
  /-- The link has been found lost, and goes down at the next boundary (R79, R539). -/
  downDue : Bool := false
  /-- Our HELLO has been sent since the link came up, with its boot nonce. -/
  sentHello : Bool := false
  nonce : Nat := 0
  /-- The peer's last HELLO since the link came up: its wrap-key identifier and boot nonce (R541). -/
  hello : Option (Nat × Nat) := none
  txSeq : Nat := 0
  rxSeq : Nat := 0
  live : Bool := false
  role : Bool := true
  /-- Ring of our last change of role. -/
  roleRing : Nat := 0
  /-- Running ring, and ring number, of the last accepted heartbeat (R544, R553). -/
  lastHb : Nat := 0
  lastHbRing : Nat := 0
  /-- One more than the running ring of our last heartbeat (R544). -/
  hbRan : Nat := 0
  /-- Body of the last accepted heartbeat; [] = none. -/
  peer : List Byte := []
  /-- Transmit times of our last heartbeats by `SEQ`, newest first (at most 64), and the receive time and `SEQ` of the
  peer's last (R545). -/
  txLog : List (Nat × Nat) := []
  tRx : Nat := 0
  rxHbSeq : Nat := 0
  offset : Int := 0
  /-- Pending switchover: T, whether we sent it, whether it is acknowledged. -/
  pend : Option (Nat × Bool × Bool) := none
  /-- Messages sent: type and body, newest first (at most 64 kept). -/
  sent : List (Nat × List Byte) := []
  /-- The frames that carried them (R540). -/
  frames : List (List Byte) := []
  /-- Learn notices waiting: (ring, CID, 49 bytes). -/
  queue : List (Nat × Nat × List Byte) := []
  /-- Notices sent in the ring in progress. -/
  ringNotices : Nat := 0
  deriving DecidableEq, Repr

/-! ## Power, alarms and calibration (R557 to R577) -/

/-- Power entry, supervision and calibration. -/
structure PwrSt where
  /-- Rails are up. -/
  on : Bool := true
  /-- Power-on has started and power-good is awaited (R559). -/
  rising : Bool := false
  /-- Running ring at whose boundary the rails fall, once a power failure or a thermal shutdown has been found (R561, R565). -/
  fallAt : Option Nat := none
  /-- Running ring from which the bulk capacitor voltage has stood above 450 V (R562). -/
  bulkHigh : Option Nat := none
  dipStart : Option Nat := none
  /-- Zones with a standing warning, and the zone that turned the rails off (R565). -/
  warn : Tab Bool := []
  offZone : Option Nat := none
  /-- Last accepted readings: kind (0 input mV, 1 bulk mV, 2 rail, 3 sensor), number. -/
  reading : Tab (Option Int) := []
  /-- Input power in mW. -/
  pin : Nat := 0
  din : Tab Bool := []
  /-- The module has been LOCKED since power-on (R570). -/
  lockedOnce : Bool := false
  /-- The calibration page as written; [] = the factory page (R574). -/
  page : List Byte := []
  /-- The page that stood at the last power-good, whose TCXO trim applies (R575). -/
  pageUp : List Byte := []
  calWrites : Nat := 0
  calSource : Nat := 0
  deriving DecidableEq, Repr

/-- The saved configuration set in MRAM (R512). -/
structure SavedCfg where
  src : Tab (BitVec 64) := []
  ctl : BitVec 128 := 0x250000000000640002#128
  port : Tab (BitVec 128) := []
  win : Tab (BitVec 32) := []
  secy : Tab (BitVec 128) := []
  grvPair : BitVec 8 := 0
  pool : Tab (BitVec 128) := []
  spill : BitVec 64 := 0x81000001fc0000#64
  lnd : BitVec 64 := 0x1400040#64
  dram : BitVec 64 := 0x400204e21#64
  bank : Tab Bank := []
  active : Tab Bool := []
  shape : Tab (BitVec 64) := []
  share : Tab (Option (BitVec 32)) := []
  att : List Att := []
  cvOwner : Tab Nat := []
  ntrim : List Byte := []
  deriving DecidableEq, Repr

/-! ## The whole state -/

/-- What the state held at the ring boundary that begins the ring in progress (R408, R420, R522): the values that a read takes, and
those that the BAR2 window shows. -/
structure Snap where
  items : List Item := []
  tim : TimSt := {}
  host : HostSt := {}
  lko : LkoSt := {}
  md : MdSt := {}
  cmp : CmpSt := {}
  trust : TrustSt := {}
  link : LinkSt := {}
  par : ParSt := {}
  cut : CutSt := {}
  em : EmSt := {}
  grv : GrvSt := {}
  lnd : LndSt := {}
  buf : BufSt := {}
  krf : KrfSt := {}
  sch : SchSt := {}
  dram : DramSt := {}
  cap : CapSt := {}
  ctr : CtrSt := {}
  pair : PairSt := {}
  pwr : PwrSt := {}
  deriving DecidableEq, Repr

/-- The state of the module. -/
structure State where
  /-- Commands that wait, first in, first out. -/
  pending : List Instr := []
  /-- The order variant (R1). -/
  variant : Variant := .f
  /-- Ring number and core clock within the ring (R22, R47). -/
  ring : Nat := 1
  clock : Nat := 0
  /-- Rings run so far: it advances with the ring number and no setting of the grid steps it (R50), so spans of time are
  counted in it. -/
  ran : Nat := 1
  /-- The model's own counter that names the next free value. -/
  freeCtr : Nat := 0
  /-- Laent commands accepted and not landed (R416, R422), oldest first. -/
  items : List Item := []
  tim : TimSt := {}
  host : HostSt := {}
  lko : LkoSt := {}
  md : MdSt := {}
  cmp : CmpSt := {}
  trust : TrustSt := {}
  link : LinkSt := {}
  par : ParSt := {}
  cut : CutSt := {}
  em : EmSt := {}
  grv : GrvSt := {}
  lnd : LndSt := {}
  buf : BufSt := {}
  krf : KrfSt := {}
  sch : SchSt := {}
  dram : DramSt := {}
  cap : CapSt := {}
  ctr : CtrSt := {}
  pair : PairSt := {}
  pwr : PwrSt := {}
  saved : SavedCfg := {}
  /-- The values at the last ring boundary (R408, R420, R522; log entry 119). -/
  snap : Snap := {}
  deriving DecidableEq, Repr

/-- The module of a variant right after a power cycle from the factory state: SEALED, unclaimed, at the ring after the
time hint (R51, R510, R513), which is the ring since which the mode and the timing state stand (R71, R409). -/
def State.resetOf (v : Variant) : State :=
  let md : MdSt := { since := 1 }
  let tim : TimSt := { stateSince := 1 }
  let cmp : CmpSt := { cmp := [((0, 0, 0), factoryCid0 v)] }
  { variant := v, md := md, tim := tim, cmp := cmp, snap := { md := md, tim := tim, cmp := cmp } }

/-- The module right after reset, a FIS-64-F. -/
def State.reset : State := State.resetOf .f

end Sys2Proof.Machine
end

