-- ==== Sys2Proof/Machine/Tab.lean ====
section
/-!
DEFINITION. Sparse tables: reading and writing one entry, and their canonical form.
-/
namespace Sys2Proof.Machine

/-- The order of keys: lexicographic. -/
def keyLt (a b : Key) : Bool :=
  decide (a.1 < b.1) || (a.1 == b.1 && (decide (a.2.1 < b.2.1) || (a.2.1 == b.2.1 && decide (a.2.2 < b.2.2))))

/-- The key of a resource with one number. -/
abbrev k1 (a : Nat) : Key := (a, 0, 0)
/-- The key of a resource with two numbers. -/
abbrev k2 (a b : Nat) : Key := (a, b, 0)
/-- The key of a resource with three numbers. -/
abbrev k3 (a b c : Nat) : Key := (a, b, c)

/-- What the table holds at `k`: its entry, or the default `d`. -/
def tget {α : Type} (d : α) : Tab α → Key → α
  | [], _ => d
  | (k', v) :: r, k => if k' = k then v else tget d r k

/-- The table without an entry at `k`. -/
def tdel {α : Type} : Tab α → Key → Tab α
  | [], _ => []
  | (k', v) :: r, k => if k' = k then tdel r k else (k', v) :: tdel r k

/-- The table with the entry `(k, v)` placed before the first larger key. -/
def tins {α : Type} : Tab α → Key → α → Tab α
  | [], k, v => [(k, v)]
  | (k', v') :: r, k, v => if keyLt k k' then (k, v) :: (k', v') :: r else (k', v') :: tins r k v

/-- Write `v` at `k`; writing the default removes the entry. -/
def tput {α : Type} [DecidableEq α] (d : α) (t : Tab α) (k : Key) (v : α) : Tab α :=
  if v = d then tdel t k else tins (tdel t k) k v

/-- Change what the table holds at `k`. -/
def tmod {α : Type} [DecidableEq α] (d : α) (t : Tab α) (k : Key) (f : α → α) : Tab α :=
  tput d t k (f (tget d t k))

/-- The keys of a table rise strictly. -/
def tabSorted {α : Type} : Tab α → Bool
  | [] => true
  | [_] => true
  | (a, _) :: (b, w) :: r => keyLt a b && tabSorted ((b, w) :: r)

/-- The canonical form of a table with default `d`. -/
def tabWf {α : Type} [DecidableEq α] (d : α) (t : Tab α) : Bool :=
  tabSorted t && t.all (fun e => decide (e.2 ≠ d))

/-- The entries whose key satisfies `p`. -/
def tfilter {α : Type} (p : Key → Bool) (t : Tab α) : Tab α := t.filter (fun e => p e.1)

/-- A table of records mapped to what remains of each. -/
def tkeep {α : Type} [DecidableEq α] (d : α) (f : α → α) (t : Tab α) : Tab α :=
  (t.map (fun e => (e.1, f e.2))).filter (fun e => e.2 ≠ d)

end Sys2Proof.Machine
end

