-- ==== Sys2Proof/Machine/Ops.lean ====
section
/-!
DEFINITION. The named operations over the state that every family shares: reading and writing numbered resources,
counters, units and their epochs, events (R401 to R404), fault records (R484 to R489) and responses (R400).
-/
namespace Sys2Proof.Machine

/-- Clock `k` of the ring in progress, on the running count of clocks, which no setting of the grid steps. -/
def clkOf (s : State) (k : Nat) : Nat := s.ran * 1600 + k

/-- The present clock on that count. -/
def nowClk (s : State) : Nat := clkOf s s.clock

/-- The module stands at a ring boundary whose changes may be applied: the first clock of a ring, and no setting of the
grid belongs to that boundary (R53, R581). -/
def atBoundary (s : State) : Bool := s.clock == 0 && !s.tim.stepped

/-- A change that takes effect at a ring boundary alone. -/
def onBoundary (f : State → State) (s : State) : State := if atBoundary s then f s else s

/-- The ring by which a row judges what is due in the course of a ring: none in a ring whose boundary set the grid, since what the
setting passed over waits for the next boundary (R53). -/
def dueRing (s : State) : Nat := if s.tim.stepped then 0 else s.ring

/-! ## Presence on the variants (R1 to R5) -/

/-- Grove die `d` is present: all four on a FIS-64-F, dies 0 and 1 on a FIS-64-M, none on a FIS-64-E (R4). -/
def grovePresent (v : Variant) (d : Nat) : Bool :=
  match v with | .f => decide (d < 4) | .m => decide (d < 2) | .e => false

/-- DRAM channel `c` is present: 16 on a FIS-64-F, D0 to D7 on a FIS-64-M, none on a FIS-64-E (R4). -/
def chPresent (v : Variant) (c : Nat) : Bool :=
  match v with | .f => decide (c < 16) | .m => decide (c < 8) | .e => false

/-- The number of DRAM channels. -/
def nChannels (v : Variant) : Nat := match v with | .f => 16 | .m => 8 | .e => 0

/-- Cage `c` is present: 00 to 51 always, the Isal pair cage 52 on a FIS-64-F and a FIS-64-M (R4). -/
def cagePresent (v : Variant) (c : Nat) : Bool := decide (c < 52) || (c == 52 && v ≠ .e)

/-- MACsec is present on the ports of cage `c`: on every cage, but on a FIS-64-E on cages 48 to 51 alone (R424). -/
def macsecPresent (v : Variant) (c : Nat) : Bool := decide (c < 52) && (v ≠ .e || decide (48 ≤ c))

/-! ## Ports, groups and units -/

/-- The port group that serves a cage: four cages to a group for 00 to 47, one for 48 to 51. -/
def groupOfCage (c : Nat) : Nat := if c < 48 then c / 4 else c - 36

/-- The record of port `p`. -/
def port (s : State) (p : Nat) : Port := tget {} s.link.port (k1 p)

/-- The state with port `p` changed. -/
def modPort (p : Nat) (f : Port → Port) (s : State) : State :=
  { s with link := { s.link with port := tmod {} s.link.port (k1 p) f } }

/-- `PORT.CFG.SPEED` of port `p`; 0 = disabled (R74). -/
def portSpeed (s : State) (p : Nat) : Nat := fld (port s p).cfg 11 9
/-- The cage of port `p`. -/
def portCage (s : State) (p : Nat) : Nat := fld (port s p).cfg 5 0
/-- The port group of port `p`. -/
def portGroup (s : State) (p : Nat) : Nat := groupOfCage (portCage s p)
/-- The ports of the module. -/
def allPorts : List Nat := List.range 64
/-- The enabled ports of group `g`, in ascending order. -/
def groupPorts (s : State) (g : Nat) : List Nat :=
  allPorts.filter (fun p => portSpeed s p ≠ 0 && portGroup s p == g)

/-- Unit numbers (R478). -/
def uIngress (p : Nat) : Nat := p
def uEgress (p : Nat) : Nat := 8 + p
def uGroup (g : Nat) : Nat := 16 + g
def uPlane (p : Nat) : Nat := 32 + p
def uGrove (d : Nat) : Nat := 36 + d
def uChannel (c : Nat) : Nat := 48 + c

/-- A unit that a firebreak can fence (R478). -/
def fenceable (u : Nat) : Bool :=
  decide (u < 34) || (decide (36 ≤ u) && decide (u < 40)) || (decide (48 ≤ u) && decide (u < 64))

/-- The units that the table of R478 lists. -/
def unitListed (u : Nat) : Bool := fenceable u || (decide (64 ≤ u) && decide (u ≤ 74))

/-- The unit is present on the variant (R3). -/
def unitPresent (v : Variant) (u : Nat) : Bool :=
  if 36 ≤ u ∧ u < 40 then grovePresent v (u - 36)
  else if 48 ≤ u ∧ u < 64 then chPresent v (u - 48)
  else if u = 0x4A then cagePresent v 52
  else unitListed u

/-- The Lookout's record of a unit. -/
def unitSt (s : State) (u : Nat) : UnitSt := tget {} s.lko.units (k1 u)

/-- Change the Lookout's record of a unit. -/
def modUnit (u : Nat) (f : UnitSt → UnitSt) (s : State) : State :=
  { s with lko := { s.lko with units := tmod {} s.lko.units (k1 u) f } }

/-- The unit is behind a firebreak. -/
def isFenced (s : State) (u : Nat) : Bool := (unitSt s u).fenced
/-- Group `g` is behind a firebreak of its own or of one of its pipelines (R478). -/
def groupFenced (s : State) (g : Nat) : Bool :=
  isFenced s (uGroup g) || isFenced s (uIngress (g / 2)) || isFenced s (uEgress (g / 2))
/-- Some unit is behind a firebreak. -/
def anyFenced (s : State) : Bool := s.lko.units.any (fun e => e.2.fenced)

/-- Group `g` sleeps (R515). -/
def asleep (s : State) (g : Nat) : Bool := tget false s.md.asleep (k1 g)

/-! ## Compartments -/

/-- Compartment `c`. -/
def cmpOf (s : State) (c : Nat) : Cmp := tget {} s.cmp.cmp (k1 c)
/-- Change compartment `c`. -/
def modCmp (c : Nat) (f : Cmp → Cmp) (s : State) : State :=
  { s with cmp := { s.cmp with cmp := tmod {} s.cmp.cmp (k1 c) f } }
/-- Compartment `c` is defined. -/
def cmpDefined (s : State) (c : Nat) : Bool := (cmpOf s c).defined
/-- All compartment numbers. -/
def allCids : List Nat := List.range 32
/-- Compartment `c` has an open session (R467). -/
def session (s : State) (c : Nat) : Option Sess := tget none s.trust.sess (k1 c)

/-! ## Counters (R520 to R524) -/

/-- The key of a named counter. -/
def ctrKey (c : Ctr) (i j : Nat) : Key := (c.ctorIdx, i, j)

/-- Read a named counter. -/
def ctrGet (s : State) (c : Ctr) (i j : Nat) : Nat := tget 0 s.ctr.named (ctrKey c i j)

/-- Add to a named counter, 64 bits wide with wrap; `TIM.REJ` wraps at 2^32 (R57). -/
def cnt (c : Ctr) (i j n : Nat) (s : State) : State :=
  let m := if c = .timRej then 2 ^ 32 else 2 ^ 64
  { s with ctr := { s.ctr with named := tmod 0 s.ctr.named (ctrKey c i j) (fun x => (x + n) % m) } }

/-- Raise a peak gauge. -/
def ctrMax (c : Ctr) (i j n : Nat) (s : State) : State :=
  { s with ctr := { s.ctr with named := tmod 0 s.ctr.named (ctrKey c i j) (fun x => max x n) } }

/-- Fold an effect over a list. -/
def foldS {α : Type} (l : List α) (f : α → State → State) (s : State) : State := l.foldl (fun t a => f a t) s

/-- The next free value (log entry 2): the counter names it and advances. -/
def freshFree (s : State) : Nat × State :=
  (Config.freeNat s.freeCtr, { s with freeCtr := s.freeCtr + 1 })

/-! ## The values of the ring boundary (R408, R420, R522) -/

/-- The boundary's values are taken down. -/
def takeSnap (s : State) : State :=
  { s with snap := {
    items := s.items, tim := s.tim, host := s.host, lko := s.lko, md := s.md, cmp := s.cmp, trust := s.trust,
    link := s.link, par := s.par, cut := s.cut, em := s.em, grv := s.grv, lnd := s.lnd, buf := s.buf, krf := s.krf,
    sch := s.sch, dram := s.dram, cap := s.cap, ctr := s.ctr, pair := s.pair, pwr := s.pwr } }

/-- The state as it stood at the boundary that began the ring in progress. -/
def atSnap (s : State) : State :=
  { s with
    clock := 0,
    items := s.snap.items, tim := s.snap.tim, host := s.snap.host, lko := s.snap.lko, md := s.snap.md, cmp := s.snap.cmp,
    trust := s.snap.trust, link := s.snap.link, par := s.snap.par, cut := s.snap.cut, em := s.snap.em, grv := s.snap.grv,
    lnd := s.snap.lnd, buf := s.snap.buf, krf := s.snap.krf, sch := s.snap.sch, dram := s.snap.dram, cap := s.snap.cap,
    ctr := s.snap.ctr, pair := s.snap.pair, pwr := s.snap.pwr }

/-- A SHA-384 digest: 48 bytes. -/
def digest (l : List Byte) : List Byte := padTo 48 (Config.sha384 l)

/-! ## The calibration page (R574) -/

/-- A page with its CRC over the bytes before it (R574). -/
def calSeal (l : List Byte) : List Byte :=
  let b := padTo 16380 l
  b ++ leBytes 4 (crc32c b).toNat

/-- The factory's calibration page (R574): its trims are the factory's. -/
def calFactory : List Byte :=
  calSeal (packLE [(4, 0x4C414331), (2, 1), (1, 0), (1, 0)] ++ beBytes 16 (Config.fuse 0).toNat ++ zeros 40 ++
    padTo 6800 (Config.crypto 30 []) ++ zeros 8 ++ padTo 256 (Config.crypto 31 []))

/-- The calibration page in force: a page that was never written is the factory's (R574). -/
def calPage (s : State) : List Byte := if s.pwr.page.isEmpty then calFactory else s.pwr.page

/-- A signed field of `n` bytes of a calibration page. -/
def pageInt (l : List Byte) (off n : Nat) : Int := (BitVec.ofNat (8 * n) (leAt l off n)).toInt

/-- A signed field of `n` bytes of the calibration page in force. -/
def calInt (s : State) (off n : Nat) : Int := pageInt (calPage s) off n

/-- The cable delays of the 1PPS input and output in 1/64 ns, and the TCXO's frequency offset in 0.01 ppb (log entry 85), which a page
gives from the power cycle on that follows its write (R575). -/
def calPpsIn (s : State) : Int := calInt s 0x1AC8 4
def calPpsOut (s : State) : Int := calInt s 0x1ACC 4
def calTcxo (s : State) : Int := pageInt (if s.pwr.pageUp.isEmpty then calFactory else s.pwr.pageUp) 0x1AC0 4

/-! ## Firmware (R459, R460) -/

/-- The slot whose image runs. -/
def fwRunning (s : State) : FwSlot := if s.trust.runB then s.trust.fwB else s.trust.fwA

/-- `CAP.FW_VERSION` (R410): in ROM recovery no image runs, and it reads 0 (R460). -/
def fwVersion (s : State) : Nat := if s.trust.recovery then 0 else (fwRunning s).version

/-! ## Mailboxes, vectors, events -/

/-- Mailbox of compartment `c`. -/
def mbxOf (s : State) (c : Nat) : Mbx := tget {} s.host.mbx (k1 c)
/-- Change the mailbox of compartment `c`. -/
def modMbx (c : Nat) (f : Mbx → Mbx) (s : State) : State :=
  { s with host := { s.host with mbx := tmod {} s.host.mbx (k1 c) f } }
/-- MSI-X vector `k` of compartment `c`. -/
def vecOf (s : State) (c k : Nat) : Vec := tget {} s.host.vec (k2 c k)
/-- Change MSI-X vector `k` of compartment `c`. -/
def modVec (c k : Nat) (f : Vec → Vec) (s : State) : State :=
  { s with host := { s.host with vec := tmod {} s.host.vec (k2 c k) f } }

/-- No DMA is issued: HALTED, stopped by a restart, in ROM recovery, or without power (R405, R460, R496, R511, R561). -/
def dmaStopped (s : State) : Bool := s.md.mode == .halted || s.host.stopped || s.trust.recovery || !s.pwr.on

/-- Send the message of a vector and disarm it; a masked vector sets its pending bit instead (R404). -/
def fireVec (c k : Nat) (s : State) : State :=
  modVec c k (fun v =>
    if v.masked then { v with armed := false, pend := true }
    else { v with armed := false, sent := v.sent + 1 }) s

/-- Signal a vector: once when armed and past its holdoff (R404). -/
def signal (c k : Nat) (s : State) : State :=
  let v := vecOf s c k
  if v.armed && decide (v.holdUntil ≤ s.ran) then fireVec c k s else s

/-- The state with `STATUS.FAULT` of a mailbox set; a change signals vector 1 even when disarmed (R404). -/
def setMbxFault (c code : Nat) (s : State) : State :=
  if (mbxOf s c).fault = code then s else fireVec c 1 (modMbx c (fun m => { m with fault := code }) s)

/-- The distance between two free-running 32-bit counts (R390). -/
def span (a b : BitVec 32) : Nat := (a - b).toNat

/-- The DMA request to slot `slot` of a ring of compartment `c` in host memory (R386, R390): the compartment's PASID, and the ring's
base plus 64 × slot. -/
def slotDma (s : State) (c : Nat) (base : BitVec 64) (slot : Nat) : Dma :=
  { pasid := (cmpOf s c).pasid, addr := base + BitVec.ofNat 64 (64 * slot) }

/-- The bytes of a text. -/
def ascii (x : String) : List Byte := x.toList.map (fun c => BitVec.ofNat 8 c.toNat)

/-- The export master secret number `n` (R467, R468): a free value. -/
def emsBytes (n : Nat) : List Byte := leBytes 48 (Config.freeNat n)

/-- The body and `EVT.CHECK` of a sealed event (R468): the key and the IV are expanded from the export master secret, the nonce is the
IV XOR the sequence number, big-endian behind eight zero bytes, and bytes 0 to 11 are the additional data. -/
def sealEvt (ems seq : Nat) (h body : List Byte) : List Byte × List Byte :=
  let k := Config.hkdfExpand (emsBytes ems) (ascii "fis64 evt key") 32
  let iv := padTo 12 (Config.hkdfExpand (emsBytes ems) (ascii "fis64 evt iv") 12)
  let nonce := List.zipWith (· ^^^ ·) iv (zeros 8 ++ beBytes 4 seq)
  let text := padTo 48 (Config.gcmText k nonce body)
  (text, (padTo 16 (Config.gcmTag k nonce h text)).take 4)

/-- The 64 bytes of an event slot (R402): sealed under the export master secret `ems`, or with its CRC. -/
def evtSlotBytes (ems : Nat) (e : Evt) : List Byte :=
  let h := packLE [(2, e.code), (1, b2n e.sealed + 2 * b2n e.withheld + 4 * b2n e.lostBefore), (1, e.cid), (2, e.rotation.toNat), (2, 0),
    (4, e.seq.toNat)]
  if e.sealed then
    let (text, check) := sealEvt ems e.seq.toNat h e.body
    h ++ check ++ text
  else h ++ leBytes 4 (crc32c (h ++ e.body)).toNat ++ e.body

/-- An event of compartment `c` is generated: it takes a sequence number of its session (R401, R468). -/
def seqUsed (c : Nat) (s : State) : State :=
  { s with trust := { s.trust with
      sess := tmod none s.trust.sess (k1 c) (fun o => o.map (fun x => { x with events := x.events + 1 })) } }

/-- The write of one event into its slot: the tail names the slot and the sequence number (R390, R402). -/
def writeEvt (c code : Nat) (body : List Byte) (s : State) : State :=
  let m := mbxOf s c
  let key := (session s c).any (fun x => decide (x.events < 2 ^ 32))
  let sealed := m.evtSeal && key
  let withheld := m.evtSeal && !key
  let e : Evt := { code := code, sealed := sealed, withheld := withheld, lostBefore := decide (0 < m.lost),
                   cid := c, rotation := (cmpOf s c).rotation, seq := m.evtTail,
                   body := if withheld then zeros 48 else padTo 48 body }
  let slot := m.evtTail.toNat % 8192
  let e := { e with bytes := evtSlotBytes (((session s c).map Sess.ems).getD 0) e, dma := slotDma s c m.evtBase slot }
  let s := { s with host := { s.host with
    evtSlots := tput {} s.host.evtSlots (k2 c slot) e } }
  let s := seqUsed c s
  signal c (code / 256 + 1) (modMbx c (fun m => { m with evtTail := m.evtTail + 1, lost := 0, lostRing := 0 }) s)

/-- Events of compartment `c` are generated and written (R401, R405): its mailbox is in service, no fault has stopped it, and DMA is
issued. -/
def evtOpen (s : State) (c : Nat) : Bool :=
  let m := mbxOf s c
  m.enabled && !dmaStopped s && !m.dmaStop

/-- EVT_LOST is written first when space returns (R401): the number lost and the ring of the first loss. -/
def flushLost (c : Nat) (s : State) : State :=
  let m := mbxOf s c
  if evtOpen s c ∧ 0 < m.lost ∧ span m.evtTail m.evtHead < 8192 then
    writeEvt c 0x0001 (packLE [(4, m.lost), (4, 0), (8, m.lostRing)]) s
  else s

/-- A response ACCEPTED of a command that has reached its target ring waits for responses of earlier commands; events wait for it
(R400; log entry 121). -/
def acceptHeld (s : State) (c : Nat) : Bool :=
  let due (r : Rsp) : Bool := r.status == .accepted && decide (r.ring ≤ s.ring)
  (mbxOf s c).reads.any (fun e => e.ans.any (fun a => due a.rsp || a.inner.any due))

/-- Post an event to compartment `c` (R401): only to an enabled mailbox; with no room it is lost and counted, and the
tail and the sequence still advance. -/
def post (c code : Nat) (body : List Byte) (s : State) : State :=
  if !evtOpen s c then s
  else if acceptHeld s c then modMbx c (fun m => { m with late := m.late ++ [(code, body)] }) s
  else
    let s := flushLost c s
    let m := mbxOf s c
    if m.lost = 0 ∧ span m.evtTail m.evtHead < 8191 then writeEvt c code body s
    else
      cnt .mbxEvtLost c 0 1 (modMbx c (fun m =>
        { m with evtTail := m.evtTail + 1, lost := m.lost + 1, lostRing := if m.lost = 0 then s.ring else m.lostRing }) (seqUsed c s))

/-- Post an event to a list of compartments. -/
def postTo (cs : List Nat) (code : Nat) (body : List Byte) (s : State) : State :=
  foldS cs (fun c => post c code body) s

/-- Every compartment whose mailbox is enabled. -/
def enabledCids (s : State) : List Nat := allCids.filter (fun c => (mbxOf s c).enabled)

/-- CID 0 and every enabled compartment. -/
def cid0AndEnabled (s : State) : List Nat := 0 :: (enabledCids s).filter (· ≠ 0)

/-! ## Fault records (R484 to R489) -/

/-- Class codes of R481. -/
def clsNote : Nat := 0
def clsFence : Nat := 1
def clsRestart : Nat := 2
def clsHalt : Nat := 3

/-- A record may merge with a NOTE of the same ring, unit, code, CID and word 0 while its count is not full (R486). -/
def mergesWith (unit code cid ring w0 : Nat) (r : FaultRec) : Bool :=
  r.cls == 0 && r.unit == unit && r.code == code && r.cid == cid && r.ring == ring &&
    (r.detail.headD 0) == w0 && decide (r.count < 65535)

/-- Count one more fault in the first record that admits it. -/
def mergeRec (p : FaultRec → Bool) : List FaultRec → List FaultRec
  | [] => []
  | r :: rs => if p r then { r with count := r.count + 1 } :: rs else r :: mergeRec p rs

/-- Write a new record: the newest 4,096 are kept, and records of class FENCE, RESTART and HALT go to the MRAM log of
256 entries as well (R486). -/
def newRec (cls unit code cid epoch : Nat) (detail : List Nat) (s : State) : State :=
  let r : FaultRec := { seq := s.lko.seq, cls := cls, unit := unit, code := code, ring := s.ring, cid := cid,
                        epoch := epoch, count := 1, detail := detail }
  let full := decide (4096 ≤ s.lko.recs.length)
  let s := { s with lko := { s.lko with
    recs := (r :: s.lko.recs).take 4096, unposted := min 4096 (s.lko.unposted + 1), seq := (s.lko.seq + 1) % 2 ^ 32,
    log := if cls = 0 then s.lko.log else (r :: s.lko.log).take 256,
    notes := if cls = 0 then (s.lko.notes + 1) % 2 ^ 32 else s.lko.notes } }
  if full then cnt .lkoRecordsLost 0 0 1 s else s

/-- Record a NOTE (R481, R486): it merges with a record of the ring in progress. `cid` is 255 for none. -/
def note (unit code cid : Nat) (detail : List Nat) (s : State) : State :=
  let p := mergesWith unit code cid s.ring (detail.headD 0)
  if (s.lko.recs.take s.lko.unposted).any p then { s with lko := { s.lko with recs := mergeRec p s.lko.recs } }
  else newRec 0 unit code cid (unitSt s unit).epoch detail s

/-- A device restart starts at the boundary of running ring `r`, or at an earlier one that is due already. -/
def restartBy (r : Nat) (s : State) : State :=
  { s with lko := { s.lko with restartAt := some (min (s.lko.restartAt.getD r) r) } }

/-- Start a device restart at the next boundary with its record in MRAM; mailboxes stop at once (R481, R496). -/
def restartFault (unit code cid : Nat) (detail : List Nat) (s : State) : State :=
  let s := restartBy (s.ran + 1) (newRec 2 unit code cid (unitSt s unit).epoch detail s)
  { s with host := { s.host with stopped := true } }

/-- The cause of a fence of `u` has been found, and the fence falls at the next boundary (R490). -/
def fencePending (s : State) (u : Nat) : Bool := s.lko.pendFence.any (fun e => e.1 == u)

/-- The fence of `u` would leave no plane: the other plane is fenced or about to be (R292, R483). -/
def bothPlanes (s : State) (u : Nat) : Bool :=
  (u == 32 && (isFenced s 33 || fencePending s 33)) || (u == 33 && (isFenced s 32 || fencePending s 32))

/-- Record a fault that needs unit `u` fenced (R481, R483, R490): the fence falls at the next boundary; a unit already
fenced, or already about to be, takes a NOTE with the fault's own code; an unfenceable unit, or the second plane,
makes it a RESTART-class fault under code 0x0F04. -/
def fenceFault (u code cid : Nat) (detail : List Nat) (s : State) : State :=
  if isFenced s u || fencePending s u then note u code cid detail s
  else if !fenceable u || bothPlanes s u then restartFault u 0x0F04 cid [code] s
  else
    let s := newRec 1 u code cid (((unitSt s u).epoch + 1) % 16) detail s
    { s with lko := { s.lko with pendFence := s.lko.pendFence ++ [(u, s.ran)] } }

/-- A freed key-store slot: zeroised, its generation one higher modulo 8 (R470). -/
def freedSlot (k : KeySlot) : KeySlot := { gen := if k.owner.isSome then (k.gen + 1) % 8 else k.gen }

/-- Zeroise the key store: every slot, cut-signing key and session is freed (R470, R476). -/
def zeroiseKeys (s : State) : State :=
  { s with trust := { s.trust with
      keys := s.trust.keys.map (fun e => (e.1, freedSlot e.2)) |>.filter (fun e => e.2 ≠ ({} : KeySlot)),
      cutKey := [], sess := [], spdm := [] } }

/-- The effects of a HALT-class fault (R497, R503): HALTED at once, keys zeroised, ports silent, optics in low-power mode, outputs
squelched. -/
def enterHalted (s : State) : State :=
  let s := zeroiseKeys s
  { s with md := { s.md with mode := .halted, since := s.ring },
           link := { s.link with squelched := true, cage := tkeep {} (fun g => { g with highPower := false }) s.link.cage },
           items := s.items.filter (fun i => i.op ≠ .modeSet) }

/-- Record a HALT-class fault and enter HALTED (R481, R497); the tamper count rises by one at every HALT (R476). -/
def haltFault (unit code cid : Nat) (detail : List Nat) (s : State) : State :=
  let s := enterHalted (newRec 3 unit code cid (unitSt s unit).epoch detail s)
  { s with trust := { s.trust with tamper := s.trust.tamper + 1 } }

/-- Count a cause in the present window of 1,000,000 rings and raise its fence when the count reaches `lim`
(R482). -/
def windowCount (u cause lim : Nat) (s : State) : State :=
  let n := tget 0 s.lko.win (k2 u cause) + 1
  let s := { s with lko := { s.lko with win := tput 0 s.lko.win (k2 u cause) n } }
  if n = lim then fenceFault u 0x0F01 255 [cause] s else s

/-- Record a NOTE, and count its record in the unit's window of R482 when it is a new one. -/
def noteWindow (u code cid : Nat) (detail : List Nat) (cause : Nat) (s : State) : State :=
  let t := note u code cid detail s
  if t.lko.seq = s.lko.seq then t else windowCount u cause 16 t

/-! ## Responses (R395, R400, R414) -/

/-- The 64-byte header of a response of compartment `c` (R395, R414), with its CRC over the header and the response data (R397); `CID` and
`FLAGS` [1] are the command's. -/
def rspHeader (c : Nat) (r : Rsp) : List Byte :=
  let h (crc : Nat) : List Byte := packLE [(2, 0x4C41), (1, 1), (1, 1 + 2 * b2n r.inner), (2, r.op), (2, r.status.code), (4, r.tag.toNat),
    (1, r.cid.getD c), (1, 0), (2, r.rotation.toNat), (8, r.v), (8, r.dataAddr.toNat), (4, r.data.length), (4, crc), (4, r.aux.toNat), (4, r.count),
    (8, r.ring), (8, r.value.toNat)]
  h (crc32c (h 0 ++ r.data)).toNat

/-- The first boundary that lies 16 or more rings after now, as a running ring (R433). -/
def restartRing (s : State) : Nat := if s.clock = 0 then s.ran + 16 else s.ran + 17

/-- The response is that of a RESTART carried out (R433), or carries it. -/
def isRestart (sl : Slot) : Bool :=
  let ok (r : Rsp) : Bool := r.op == 0x1002 && r.status == .ok
  ok sl.rsp || sl.inner.any ok

/-- The DMA request that writes the response data to the command's buffer (R386, R420). -/
def dataDma (s : State) (c : Nat) (r : Rsp) : Dma :=
  if r.data.isEmpty then {} else { pasid := (cmpOf s c).pasid, addr := r.dataAddr }

/-- Put one response in its slot, advance the tail and signal vector 0 (R394). The 16 rings to a commanded restart begin with the
writing of its response (R433). -/
def writeRsp (c : Nat) (sl : Slot) (s : State) : State :=
  let m := mbxOf s c
  let slot := m.rspTail.toNat % 4096
  let r := { sl.rsp with rotation := (cmpOf s c).rotation }
  let sl := { sl with rsp := r, bytes := rspHeader c r, dma := slotDma s c m.rspBase slot, dataDma := dataDma s c r }
  let s := { s with host := { s.host with
    rspSlots := tput {} s.host.rspSlots (k2 c slot) sl } }
  let s := signal c 0 (modMbx c (fun m => { m with rspTail := m.rspTail + 1 }) s)
  if isRestart sl then restartBy (restartRing s) s else s

/-- Responses are written (R405, R496): the mailbox is in service and no fault has stopped it. -/
def rspOpen (s : State) (c : Nat) : Bool := evtOpen s c

/-- Split the commands read into the responses that may be written now, in order, and the commands that stay (R400):
an unanswered command holds back the answers behind it unless it is long; a long command's answer waits for none. -/
def readyRsp (blocked : Bool) : List ReadEnt → List Slot × List ReadEnt
  | [] => ([], [])
  | e :: r =>
    match e.ans with
    | some a =>
      if e.long || !blocked then
        let (w, k) := readyRsp blocked r; (a :: w, k)
      else let (w, k) := readyRsp blocked r; (w, e :: k)
    | none => let (w, k) := readyRsp (blocked || !e.long) r; (w, e :: k)

/-- The events that waited for a response ACCEPTED are posted once it is written (R400). -/
def flushLate (c : Nat) (s : State) : State :=
  if acceptHeld s c then s
  else foldS (mbxOf s c).late (fun e => post c e.1 e.2) (modMbx c (fun m => { m with late := [] }) s)

/-- Write the responses of compartment `c` that may be written. -/
def flushRsp (c : Nat) (s : State) : State :=
  if rspOpen s c then
    let (w, k) := readyRsp false (mbxOf s c).reads
    flushLate c (foldS w (writeRsp c) (modMbx c (fun m => { m with reads := k }) s))
  else s

/-- Give the first command read with this tag and opcode its answer. -/
def setAns (tag : BitVec 32) (op : Nat) (sl : Slot) : List ReadEnt → List ReadEnt
  | [] => []
  | e :: r =>
    if e.tag = tag ∧ e.op = op ∧ e.ans.isNone then { e with ans := some sl } :: r else e :: setAns tag op sl r

/-- Deliver a response slot: to the command read with its tag, or directly when no such command stands. -/
def deliver (c : Nat) (sl : Slot) (s : State) : State :=
  let m := mbxOf s c
  if m.reads.any (fun e => e.tag = sl.rsp.tag && e.op == sl.rsp.op && e.ans.isNone) then
    flushRsp c (modMbx c (fun m => { m with reads := setAns sl.rsp.tag sl.rsp.op sl m.reads }) s)
  else if rspOpen s c then writeRsp c sl s else s

/-- The validation ring of a command: the ring kept when it was read, else the present one. -/
def ringOfV (s : State) (c : Nat) (tag : BitVec 32) (op : Nat) : Nat :=
  match (mbxOf s c).reads.find? (fun e => e.tag = tag && e.op == op && e.ans.isNone) with
  | some e => e.v
  | none => s.ring

end Sys2Proof.Machine
end

