-- ==== Sys2Proof/Machine/Laent.lean ====
section
/-!
DEFINITION. The Laent command machinery (R395 to R400, R413 to R423): the tables of opcodes, the checks in their
order, acceptance and responses.
-/
namespace Sys2Proof.Machine

/-- Opcodes of R425 to R432, part A. -/
def opsA : List Op :=
  [.identityRead, .barrier, .portCfgWrite, .radioWinWrite, .portReset, .portRead, .cageRead, .timSrcWrite,
   .timCtlWrite, .timRealign, .timSrcRead, .baseBundleLoad, .cmpBundleLoad, .bundleList, .abortFrameRead,
   .stageOpen, .stageAbort, .cutCommit, .cutCommitSigned, .listWrite, .actionWrite, .actdataWrite, .psetWrite,
   .cutHdrWrite, .parseWrite, .cutRead]

/-- Opcodes of R425 to R432, part B. -/
def opsB : List Op :=
  [.emTblWrite, .emStaticWrite, .emLearnWrite, .emFlush, .emLookup, .trieTblWrite, .trieAdd, .trieDelete,
   .trieLookup, .grvPairWrite, .grvTblWrite, .grvWrite, .grvGmaskWrite, .grvRead, .poolCfgWrite, .lndCfgWrite,
   .glistWrite, .gateSwitch, .shapeWrite, .shareWrite, .schedRead, .spillCfgWrite, .dramCfgWrite, .tallyCfgWrite,
   .tallyPagesWrite, .tallyRead, .cvAssign, .cvCfgWrite, .cvArm, .cvDisarm, .cvRead, .counterRead, .counterProgram,
   .blazeCfgWrite]

/-- Opcodes of R425 to R432, part C. -/
def opsC : List Op :=
  [.cmpDefine, .cmpQuotaWrite, .cmpDelete, .cmpAttach, .cmpDetach, .krfRegionWrite, .cmpReset, .freeze, .thaw,
   .save, .restore, .cmpRead, .spdm, .secured, .ownerEnrol, .cutKeySet, .keyInstall, .keyDelete, .keyExport,
   .secyAlloc, .secyWrite, .rxScWrite, .saInstall, .saSwitch, .saDelete, .faultRead, .firebreakLift,
   .firebreakRaise, .factoryMode, .modeSet, .restart, .configSave, .groupSleep, .nightTrimWrite, .calExport,
   .calImport, .calWrite, .pairCfgWrite, .pairSwitchover, .pairStatusRead]

/-- All opcodes of R425 to R432. -/
def allOps : List Op := opsA ++ opsB ++ opsC

/-- One row of the tables of R425 to R432: the code, the Rights, Effect and long columns, the Payload column, the bits
of `ARG1` that the opcode uses (the others must be zero, R413), whether it uses `ARG0` other than as a target ring,
whether it returns data, and whether SEALED admits it (R421). -/
structure OpInfo where
  code : Nat
  rights : Rights
  eff : Eff
  pay : Pay := .none
  arg1 : Nat := 0
  long : Bool := false
  arg0 : Bool := false
  out : Bool := false
  inSealed : Bool := false

/-- The tables of R425 to R432. -/
def opInfo : Op → OpInfo
  | .identityRead => { code := 0x0101, rights := .any, eff := .now, out := true, inSealed := true }
  | .barrier => { code := 0x0102, rights := .any, eff := .now, arg1 := 0xFFFFFFFF, inSealed := true }
  | .portCfgWrite => { code := 0x0201, rights := .manager, eff := .target, pay := .fixed 16, arg1 := 0xFFFFFFFF }
  | .radioWinWrite => { code := 0x0202, rights := .manager, eff := .target, pay := .fixed 4, arg1 := 0xFFFFFFFF }
  | .portReset => { code := 0x0203, rights := .manager, eff := .target, arg1 := 0xFFFFFFFF }
  | .portRead => { code := 0x0204, rights := .manager, eff := .now, arg1 := 0xFFFFFFFF, out := true }
  | .cageRead => { code := 0x0205, rights := .manager, eff := .now, arg1 := 0xFFFFFFFF, out := true }
  | .timSrcWrite => { code := 0x0301, rights := .manager, eff := .target, pay := .fixed 8, arg1 := 0xFFFFFFFF }
  | .timCtlWrite => { code := 0x0302, rights := .manager, eff := .target, pay := .fixed 16 }
  | .timRealign => { code := 0x0303, rights := .manager, eff := .next }
  | .timSrcRead => { code := 0x0304, rights := .manager, eff := .now, out := true }
  | .baseBundleLoad => { code := 0x0401, rights := .manager, eff := .target, pay := .form, long := true }
  | .cmpBundleLoad => { code := 0x0402, rights := .owner, eff := .target, pay := .form, long := true }
  | .bundleList => { code := 0x0403, rights := .any, eff := .now, out := true }
  | .abortFrameRead => { code := 0x0404, rights := .owner, eff := .now, out := true }
  | .stageOpen => { code := 0x0501, rights := .owner, eff := .now }
  | .stageAbort => { code := 0x0502, rights := .owner, eff := .now }
  | .cutCommit => { code := 0x0503, rights := .owner, eff := .target }
  | .cutCommitSigned => { code := 0x0504, rights := .owner, eff := .target, pay := .fixed 96 }
  | .listWrite => { code := 0x0505, rights := .owner, eff := .stage, pay := .fixed 32, arg1 := 0xFFFFFFFF }
  | .actionWrite => { code := 0x0506, rights := .owner, eff := .stage, pay := .records 16, arg1 := 0xFFFFFFFF }
  | .actdataWrite => { code := 0x0507, rights := .owner, eff := .stage, pay := .records 16, arg1 := 0xFFFFFFFF }
  | .psetWrite => { code := 0x0508, rights := .owner, eff := .stage, pay := .records 8, arg1 := 0xFFFFFFFF }
  | .cutHdrWrite => { code := 0x0509, rights := .owner, eff := .stage, pay := .fixed 8 }
  | .parseWrite => { code := 0x050A, rights := .owner, eff := .stage, pay := .fixed 4 }
  | .cutRead => { code := 0x050B, rights := .managerOrOwner, eff := .now, arg1 := 0xFFFFFFFF, out := true }
  | .emTblWrite => { code := 0x0601, rights := .owner, eff := .stage, pay := .fixed 8, arg1 := 0xF }
  | .emStaticWrite => { code := 0x0602, rights := .owner, eff := .stage, pay := .records 32 }
  | .emLearnWrite => { code := 0x0603, rights := .owner, eff := .stage, pay := .fixed 32 }
  | .emFlush => { code := 0x0604, rights := .owner, eff := .target, arg1 := 0x7F0F }
  | .emLookup => { code := 0x0605, rights := .owner, eff := .next, pay := .fixed 20, arg1 := 0xF, out := true }
  | .trieTblWrite => { code := 0x0701, rights := .owner, eff := .stage, pay := .fixed 8, arg1 := 0xF }
  | .trieAdd => { code := 0x0702, rights := .owner, eff := .stage, pay := .records 32 }
  | .trieDelete => { code := 0x0703, rights := .owner, eff := .stage, pay := .records 32 }
  | .trieLookup => { code := 0x0704, rights := .owner, eff := .next, pay := .fixed 16, arg1 := 0xF, out := true }
  | .grvPairWrite => { code := 0x0801, rights := .manager, eff := .next, pay := .fixed 8 }
  | .grvTblWrite => { code := 0x0802, rights := .owner, eff := .stage, pay := .fixed 8, arg1 := 0x1F }
  | .grvWrite => { code := 0x0803, rights := .owner, eff := .stage, pay := .form, long := true }
  | .grvGmaskWrite => { code := 0x0804, rights := .owner, eff := .stage, pay := .form, arg1 := 0x1F }
  | .grvRead => { code := 0x0805, rights := .owner, eff := .now, arg1 := 0x1F, arg0 := true, out := true }
  | .poolCfgWrite => { code := 0x0901, rights := .manager, eff := .target, pay := .fixed 16, arg1 := 0xFFFFFFFF }
  | .lndCfgWrite => { code := 0x0902, rights := .manager, eff := .target, pay := .fixed 8 }
  | .glistWrite => { code := 0x0903, rights := .manager, eff := .now, pay := .form, arg1 := 0x13F }
  | .gateSwitch => { code := 0x0904, rights := .manager, eff := .target, arg1 := 0xFFFFFFFF }
  | .shapeWrite => { code := 0x0905, rights := .manager, eff := .target, pay := .fixed 8, arg1 := 0x73F }
  | .shareWrite => { code := 0x0906, rights := .manager, eff := .target, pay := .fixed 4, arg1 := 0x1F3F }
  | .schedRead => { code := 0x0907, rights := .any, eff := .now, arg1 := 0x33F, out := true }
  | .spillCfgWrite => { code := 0x0A01, rights := .manager, eff := .target, pay := .fixed 8 }
  | .dramCfgWrite => { code := 0x0A02, rights := .manager, eff := .target, pay := .fixed 8 }
  | .tallyCfgWrite => { code := 0x0B01, rights := .owner, eff := .target, pay := .fixed 8 }
  | .tallyPagesWrite => { code := 0x0B02, rights := .manager, eff := .next, pay := .fixed 8, arg1 := 0xFFFFFFFF }
  | .tallyRead =>
    { code := 0x0B03, rights := .owner,  eff := .now, arg1 := 0x80001FFF, long := true, arg0 := true, out := true }
  | .cvAssign => { code := 0x0B04, rights := .manager, eff := .next, arg1 := 0x1F0F }
  | .cvCfgWrite => { code := 0x0B05, rights := .owner, eff := .now, pay := .fixed 32, arg1 := 0xFFFFFFFF }
  | .cvArm => { code := 0x0B06, rights := .owner, eff := .target, arg1 := 0xF7FFFFFF }
  | .cvDisarm => { code := 0x0B07, rights := .owner, eff := .now, arg1 := 0xFFFFFFFF }
  | .cvRead => { code := 0x0B08, rights := .owner, eff := .now, arg1 := 0xFFFFFFFF, out := true }
  | .counterRead => { code := 0x0C01, rights := .any, eff := .now, arg1 := 0xFFFFFFFF, arg0 := true, out := true }
  | .counterProgram => { code := 0x0C02, rights := .manager, eff := .target, pay := .fixed 32, arg1 := 0xFFFFFFFF }
  | .blazeCfgWrite => { code := 0x0C03, rights := .manager, eff := .target, pay := .fixed 16 }
  | .cmpDefine => { code := 0x0D01, rights := .manager, eff := .next, pay := .fixed 64, arg1 := 0xFFFFFFFF }
  | .cmpQuotaWrite => { code := 0x0D02, rights := .manager, eff := .next, pay := .fixed 64, arg1 := 0xFFFFFFFF }
  | .cmpDelete => { code := 0x0D03, rights := .manager, eff := .next, arg1 := 0xFFFFFFFF }
  | .cmpAttach => { code := 0x0D04, rights := .manager, eff := .target, pay := .fixed 8, arg1 := 0xFFFFFFFF }
  | .cmpDetach => { code := 0x0D05, rights := .manager, eff := .target, pay := .fixed 8, arg1 := 0xFFFFFFFF }
  | .krfRegionWrite => { code := 0x0D06, rights := .manager, eff := .next, pay := .fixed 8, arg1 := 0xFFFFFFFF }
  | .cmpReset => { code := 0x0D07, rights := .managerOrOwner, eff := .target, arg1 := 0xFFFFFFFF }
  | .freeze => { code := 0x0D08, rights := .managerOrOwner, eff := .target, arg1 := 0x31F }
  | .thaw => { code := 0x0D09, rights := .managerOrOwner, eff := .target, arg1 := 0xFFFFFFFF }
  | .save =>
    { code := 0x0D0A, rights := .managerOrOwner,  eff := .next, pay := .form, arg1 := 0xFFFFFFFF, long := true, out := true }
  | .restore =>
    { code := 0x0D0B, rights := .managerOrOwner,  eff := .next, pay := .form, arg1 := 0xFFFFFFFF, long := true }
  | .cmpRead => { code := 0x0D0C, rights := .managerOrOwner, eff := .now, arg1 := 0xFFFFFFFF, out := true }
  | .spdm => { code := 0x0E00, rights := .any, eff := .now, pay := .form, out := true, inSealed := true }
  | .secured => { code := 0x0E01, rights := .any, eff := .now, pay := .form, out := true, inSealed := true }
  | .ownerEnrol => { code := 0x0E02, rights := .manager, eff := .next, pay := .form, inSealed := true }
  | .cutKeySet => { code := 0x0E03, rights := .owner, eff := .next, pay := .fixed 96 }
  | .keyInstall => { code := 0x0E04, rights := .owner, eff := .now, pay := .form }
  | .keyDelete => { code := 0x0E05, rights := .owner, eff := .now, arg1 := 0xFFFFFFFF }
  | .keyExport => { code := 0x0E06, rights := .owner, eff := .now, pay := .form, arg1 := 0xFFFFFFFF, out := true }
  | .secyAlloc => { code := 0x0E07, rights := .manager, eff := .next, pay := .fixed 16, arg1 := 0xFF }
  | .secyWrite => { code := 0x0E08, rights := .owner, eff := .target, pay := .fixed 16, arg1 := 0xFF }
  | .rxScWrite => { code := 0x0E09, rights := .owner, eff := .next, pay := .fixed 16, arg1 := 0xFFF }
  | .saInstall => { code := 0x0E0A, rights := .owner, eff := .next, pay := .fixed 16, arg1 := 0xFFF }
  | .saSwitch => { code := 0x0E0B, rights := .owner, eff := .target, arg1 := 0x300FF }
  | .saDelete => { code := 0x0E0C, rights := .owner, eff := .now, arg1 := 0x70FFF }
  | .faultRead =>
    { code := 0x0F01, rights := .any,  eff := .now, arg1 := 0xFFFFFFFF, arg0 := true, out := true, inSealed := true }
  | .firebreakLift => { code := 0x0F02, rights := .manager, eff := .target, arg1 := 0xFFFFFFFF }
  | .firebreakRaise => { code := 0x0F03, rights := .manager, eff := .target, arg1 := 0xFFFFFFFF }
  | .factoryMode => { code := 0x0F04, rights := .manager, eff := .next, pay := .fixed 192 }
  | .modeSet => { code := 0x1001, rights := .manager, eff := .target, arg1 := 0xFFFFFFFF, inSealed := true }
  | .restart => { code := 0x1002, rights := .manager, eff := .now }
  | .configSave => { code := 0x1003, rights := .manager, eff := .now, long := true }
  | .groupSleep => { code := 0x1004, rights := .manager, eff := .target, arg1 := 0x10F }
  | .nightTrimWrite => { code := 0x1005, rights := .manager, eff := .target, pay := .form }
  | .calExport => { code := 0x1006, rights := .manager, eff := .now, long := true, out := true }
  | .calImport => { code := 0x1007, rights := .manager, eff := .next, pay := .form }
  | .calWrite => { code := 0x1008, rights := .manager, eff := .next, pay := .form }
  | .pairCfgWrite => { code := 0x1101, rights := .manager, eff := .target, pay := .form }
  | .pairSwitchover => { code := 0x1102, rights := .manager, eff := .target }
  | .pairStatusRead => { code := 0x1103, rights := .any, eff := .now, out := true }

/-- The opcode's code. -/
def opCode (o : Op) : Nat := (opInfo o).code
/-- The opcode's Rights column. -/
def opRights (o : Op) : Rights := (opInfo o).rights
/-- The opcode's Effect column. -/
def opEff (o : Op) : Eff := (opInfo o).eff
/-- The opcode is marked L. -/
def opLong (o : Op) : Bool := (opInfo o).long
/-- The opcode's Payload column. -/
def opPay (o : Op) : Pay := (opInfo o).pay

/-- The opcode with a code (R398 step 7). -/
def opOfCode (n : Nat) : Option Op := allOps.find? (fun o => opCode o == n)

end Sys2Proof.Machine

namespace Sys2Proof

/-- `ARG1` bits [hi:lo] of a request. -/
def Req.a1 (q : Req) (hi lo : Nat) : Nat := Machine.fld q.arg1 hi lo
/-- The sender. -/
def Req.c (q : Req) : Nat := q.cid.val
/-- The compartment that an M/S command acts on (R415). -/
def Req.who (q : Req) : Nat := q.a1 4 0
/-- The target ring (R413). -/
def Req.t (q : Req) : Nat := q.arg0.toNat

end Sys2Proof

namespace Sys2Proof.Machine

/-- The sender's rights (R415), step 9 of R398. -/
def rightsOk (r : Rights) (q : Req) : Bool :=
  match r with
  | .any => true
  | .manager => q.c == 0
  | .owner => q.inner
  | .managerOrOwner => q.c == 0 || (q.inner && q.who == q.c)

/-- The payload length fits the Payload column's presence (R395), step 2 of R398. -/
def payPresence (p : Pay) (n : Nat) : Status :=
  match p with
  | .none => if n = 0 then .ok else .range
  | _ => if n = 0 then .zeroLen else .ok

/-- The payload size of step 13 (R417, R419). -/
def paySize (p : Pay) (n : Nat) : Status :=
  match p with
  | .fixed k => if n = k then .ok else .range
  | .records k => if n % k = 0 then .ok else .range
  | _ => .ok

/-- A check list: the first failure ends it. -/
def firstBad : List (Bool × Status) → Status
  | [] => .ok
  | (good, st) :: r => if good then firstBad r else st

/-- The first status that is not OK. -/
def orElseSt (a b : Status) : Status := if a = .ok then b else a

/-- What an effect answers: the state, and the fields of the response. -/
structure Ans where
  st     : State
  status : Status := .ok
  count  : Nat := 0
  ring   : Nat := 0
  value  : Nat := 0
  aux    : BitVec 32 := 0
  data   : List Byte := []
  blob   : Option Saved := none

/-- A refusal without effect. -/
def refuse (st : Status) (s : State) : Ans := { st := s, status := st }

/-- An opcode's own checks and its effect at validation. `owns` is a right that depends on what the command names (step
9), `present` step 11, `units` the units acted on (step 12), `args` the arguments and records of step 13; `ownOrder`
says that `pre` holds the opcode's own order in place of steps 13 to 16, otherwise `pre` is steps 15 and 16;
`now` is the effect in ring v, or, for a T or next command, what acceptance fixes. -/
structure LOp where
  op      : Op
  present : State → Req → Bool := fun _ _ => true
  owns    : State → Req → Bool := fun _ _ => true
  units   : State → Req → List Nat := fun _ _ => []
  args    : State → Req → Status := fun _ _ => .ok
  ownOrder : Bool := false
  pre     : State → Req → Status := fun _ _ => .ok
  now     : State → Req → Ans := fun s _ => { st := s, ring := s.ring }
  snap    : Bool := false

/-- What an opcode does in ring v: the answer of a read that takes its values at the ring boundary is that of the state as it stood
there (R420, R522). -/
def LOp.eval (o : LOp) (s : State) (q : Req) : Ans :=
  if o.snap then { o.now (atSnap s) q with st := (o.now s q).st } else o.now s q

/-- The target-ring test of R416. -/
def tCheck (v T : Nat) : Status :=
  if T < v + 16 then .lateRing else if v + 100000000 < T then .range else .ok

/-- Arguments that the opcode does not use are zero, and a named buffer has a length (R413, R420). -/
def argForm (o : Op) (q : Req) : Status :=
  firstBad [
    (opEff o == .target || (opInfo o).arg0 || q.arg0 == 0, .range),
    ((opInfo o).out || q.outAddr == 0, .range),
    (q.outAddr.toNat % 8 == 0, .range),
    ((opInfo o).out || q.outLen == 0, .range),
    (!((opInfo o).out && q.outLen == 0), .zeroLen),
    (q.arg1.toNat &&& (0xFFFFFFFF - (opInfo o).arg1) == 0, .range)]

/-- The checks of R398 that a request still carries and of R417, in their order. -/
def admission (o : LOp) (v : Nat) (s : State) (q : Req) : Status :=
  orElseSt (firstBad [
    (payPresence (opPay o.op) q.payload.length == .ok, payPresence (opPay o.op) q.payload.length),
    (q.rotation == (cmpOf s q.c).rotation, .staleRotation),
    (rightsOk (opRights o.op) q, .denied),
    (o.owns s q, .denied),
    (s.md.mode != .sealed || (opInfo o.op).inSealed, .busy),
    (o.present s q, .absent),
    ((o.units s q).all (fun u => !isFenced s u), .fenced)]) <|
  if o.ownOrder then o.pre s q
  else
    orElseSt (argForm o.op q) <|
    orElseSt (paySize (opPay o.op) q.payload.length) <|
    orElseSt (o.args s q) <|
    orElseSt (if opEff o.op = .target then tCheck v q.t else .ok) <|
    o.pre s q

/-- A unit whose epoch changed after v (R407): its number and new epoch in one word. -/
def epochMoved (us : List Nat) (v : Nat) (s : State) : Option (BitVec 32) :=
  (us.find? (fun u => decide (v < (unitSt s u).epochRing))).map
    (fun u => BitVec.ofNat 32 (u + 65536 * (unitSt s u).epoch))

/-- `LAENT.RSP.RING` of a response (R414): the ring of the effect or snapshot, and 0 where the command is refused. -/
def ringField (st : Status) (ring : Nat) : Nat := if st = .ok ∨ st = .accepted then ring else 0

/-- The response header of a command (R395, R414). -/
def rspOf (o : Op) (q : Req) (v : Nat) (a : Ans) : Rsp :=
  { op := opCode o, inner := q.inner, status := a.status, tag := q.tag, v := v,
    dataAddr := if a.data.isEmpty then 0 else q.outAddr, data := a.data, aux := a.aux, count := a.count,
    ring := ringField a.status a.ring, value := BitVec.ofNat 64 a.value }

/-- The size of the secured record that carries a response (log entry 20): header, data and the record's own bytes. -/
def recordLen (r : Rsp) : Nat := 64 + r.data.length + 24

/-- Answer an inner command: its response goes inside the secured record of its SECURED command (R399). A record that
does not fit its buffer gives the outer status NO_SPACE and leaves the state as it was before the inner command; a session
that has ended gives DENIED (R467). -/
def sealAnswer (c : Nat) (so : SecOpen) (v : Nat) (r : Rsp) (blob : Option Saved) (before after : State) : State :=
  let close (s : State) : State := modMbx c (fun m => { m with secOpen := none }) s
  let outer (st : Status) : Rsp := { op := 0x0E01, status := st, tag := so.tag, v := v, ring := ringField st v }
  if !(session after c).any (fun y => y.ems == so.sess) then deliver c { rsp := outer .denied } (close after)
  else if so.outLen < recordLen r then deliver c { rsp := outer .noSpace } (close before)
  else
    let data := Config.crypto 7 [leBytes 4 so.tag.toNat, leBytes 2 r.status.code, r.data]
    deliver c { rsp := { outer .ok with aux := BitVec.ofNat 32 r.status.code, dataAddr := so.outAddr,
                                        data := padTo (recordLen r) data },
                inner := some { r with rotation := (cmpOf after c).rotation }, blob := blob } (close after)

/-- Deliver an answer: a plain response, or the inner response of a SECURED command. -/
def answer (o : Op) (q : Req) (v : Nat) (before : State) (a : Ans) : State :=
  let r := rspOf o q v a
  if q.inner then
    match (mbxOf a.st q.c).secOpen with
    | none => a.st
    | some so => sealAnswer q.c so v r a.blob before a.st
  else deliver q.c { rsp := r, blob := a.blob } a.st

/-- The item of a command whose effect lands later (R416). -/
def itemOf (o : Op) (q : Req) (v due : Nat) (rsp : Bool) : Item :=
  { due := due, v := v, op := o, req := q, rsp := rsp }

/-- A command is served: not in HALTED, not after a restart has stopped the mailboxes (R421, R405, R496), and not when it
is read after a RESTART (R433). An inner command needs its SECURED command (R399). -/
def served (s : State) (q : Req) : Bool :=
  !dmaStopped s && (!q.inner || (mbxOf s q.c).secOpen.isSome) &&
    (!s.host.closing || (mbxOf s q.c).reads.any (fun e => e.ans.isNone && (q.inner || e.tag == q.tag)))

/-- The validation ring v of a request that is being carried out. -/
def vOf (s : State) (q : Req) (o : Op) : Nat :=
  ringOfV s q.c (if q.inner then ((mbxOf s q.c).secOpen.map SecOpen.tag).getD 0 else q.tag)
    (if q.inner then 0x0E01 else opCode o)

/-- What a command answers in its validation ring, and the item it leaves. -/
def evalOp (o : LOp) (q : Req) (v : Nat) (s : State) : Ans × Option Item :=
  match admission o v s q with
  | .ok =>
    match epochMoved (o.units s q) v s with
    | some x => ({ st := s, status := .fenced, aux := x }, none)
    | none =>
      match opEff o.op with
      | .target =>
        let a := o.now s q
        if a.status = .ok then
          ({ a with status := .accepted, ring := q.t },
           some { itemOf o.op q v q.t false with blob := a.blob, num := a.value })
        else (a, none)
      | .next =>
        let a := o.now s q
        if a.status = .ok then (a, some { itemOf o.op q v (v + 1) true with blob := a.blob, num := a.value })
        else (a, none)
      | _ =>
        let a := o.eval s q
        if q.outLen.toNat < a.data.length then (refuse .noSpace s, none) else (a, none)
  | .fenced =>
    match (o.units s q).find? (fun u => isFenced s u) with
    | some u => ({ st := s, status := .fenced, aux := BitVec.ofNat 32 (u + 65536 * (unitSt s u).epoch) }, none)
    | none => (refuse .fenced s, none)
  | st => (refuse st s, none)

/-- The SECURED command of an inner command that is answered later leaves the mailbox with it (R399). -/
def takeSec (q : Req) (s : State) : Option SecOpen × State :=
  if q.inner then ((mbxOf s q.c).secOpen, modMbx q.c (fun m => { m with secOpen := none }) s) else (none, s)

/-- Answer a command later: its SECURED command stands again while the response is formed. -/
def answerLater (o : Op) (q : Req) (v : Nat) (sec : Option SecOpen) (before : State) (a : Ans) : State :=
  if q.inner then
    let old := (mbxOf a.st q.c).secOpen
    let t := answer o q v before { a with st := modMbx q.c (fun m => { m with secOpen := sec }) a.st }
    modMbx q.c (fun m => { m with secOpen := old }) t
  else answer o q v before a

/-- Carry out a Laent command: the checks in order, then its effect, its acceptance or its refusal (R400, R416). A
"next" command is answered at the boundary at which it lands. -/
def runOp (o : LOp) (q : Req) (s : State) : State :=
  if served s q then
    let v := vOf s q o.op
    let (a, it) := evalOp o q v s
    match it with
    | none => answer o.op q v s a
    | some i =>
      if i.rsp then
        let (sec, st) := takeSec q a.st
        { st with items := st.items ++ [{ i with sec := sec }] }
      else
        let st := { a.st with items := a.st.items ++ [i] }
        answer o.op q v s { a with st := st }
  else s

end Sys2Proof.Machine
end

