-- ==== Sys2Proof/Machine/HostIf.lean ====
section
/-!
DEFINITION. The host interface (R385 to R412): mailbox registers and doorbells, the reading of commands, responses,
events, vectors and DMA faults; BARRIER.
-/
namespace Sys2Proof.Machine

/-- What a command answers. -/
abbrev Out := Host.Outcome State Fault Refusal

/-- The module is HALTED or without power: no doorbell is acted on and no register is written (R405, R561; log entry
5). -/
def halted (s : State) : Bool := s.md.mode == .halted || !s.pwr.on

/-- An effect that HALTED bars. -/
def unlessHalted (s : State) (t : State) : State := if halted s then s else t

/-- A `CMD_TAIL` write (R391). -/
def cmdTailWrite (c : Nat) (v : BitVec 32) (s : State) : State :=
  let m := mbxOf s c
  if span v m.cmdHead ≤ 4096 ∧ span m.cmdTail m.cmdHead ≤ span v m.cmdHead then
    modMbx c (fun m => { m with cmdTail := v }) s
  else note 0x49 0x0D01 c [] (setMbxFault c 1 (cnt .mbxTailBad c 0 1 s))

/-- An `RSP_HEAD` write (R392). -/
def rspHeadWrite (c : Nat) (v : BitVec 32) (s : State) : State :=
  let m := mbxOf s c
  if span v m.rspHead ≤ span m.rspTail m.rspHead then modMbx c (fun m => { m with rspHead := v }) s
  else cnt .mbxTailBad c 0 1 s

/-- An `EVT_HEAD` write (R392); EVT_LOST follows when space returns (R401). -/
def evtHeadWrite (c : Nat) (v : BitVec 32) (s : State) : State :=
  let m := mbxOf s c
  if span v m.evtHead ≤ span m.evtTail m.evtHead then flushLost c (modMbx c (fun m => { m with evtHead := v }) s)
  else cnt .mbxTailBad c 0 1 s

/-- The slots of the event ring that hold events not consumed. -/
def openEvts (s : State) (c : Nat) : List Evt :=
  let m := mbxOf s c
  let n := span m.evtTail m.evtHead
  (List.range (min n 8192)).map
    (fun i => tget {} s.host.evtSlots (k2 c ((m.evtTail.toNat + 2 ^ 32 - 1 - i) % 2 ^ 32 % 8192)))

/-- The condition of a vector still stands (R404; log entry 6): responses or events of its family not consumed. -/
def vecStands (s : State) (c k : Nat) : Bool :=
  if k = 0 then (mbxOf s c).rspTail != (mbxOf s c).rspHead
  else (openEvts s c).any (fun e => e.code / 256 + 1 == k)

/-- Signal a re-armed vector whose condition stands, once its holdoff has passed (R404). -/
def rearmSignal (c k : Nat) (s : State) : State := if vecStands s c k then signal c k s else s

/-- Re-arm a vector (R404). -/
def rearm (c k : Nat) (s : State) : State :=
  let h := (mbxOf s c).holdoff
  rearmSignal c k (modVec c k (fun v => { v with armed := true, holdUntil := if h = 0 then 0 else s.ran + h }) s)

/-- The six counts at enable (R389). -/
def clearCounts (m : Mbx) : Mbx :=
  { m with cmdTail := 0, cmdHead := 0, rspHead := 0, rspTail := 0, evtHead := 0, evtTail := 0, fetchTo := 0,
           lost := 0, lostRing := 0 }

/-- Commands held that are not in the list of those read: an inner command is there with its SECURED command. -/
def heldNum (m : Mbx) : Nat := if m.held.any (fun x => x.sec.isNone) then 1 else 0

/-- What waits of commands of compartment `c` that have no response yet is dropped, and its DMA not yet issued is cancelled (R405,
R406). -/
def dropWaiting (c : Nat) (s : State) : State :=
  { s with items := s.items.filter (fun i => !(i.req.c == c && i.rsp)),
           grv := { s.grv with jobs := s.grv.jobs.filter (fun j => j.req.c != c) },
           cap := { s.cap with reads := s.cap.reads.filter (fun j => j.req.c != c) },
           dram := { s.dram with reqs := s.dram.reqs.filter (fun r => !(r.cls == 3 && r.cid == c)) } }

/-- A write of `ENABLE` 1 (R389, R405). Commands read before a DMA fault and never answered are discarded and counted
(R406). -/
def mbxEnable (c : Nat) (s : State) : State :=
  let m := mbxOf s c
  if m.enable then s
  else if cmpDefined s c && m.cmdBase != 0 && m.rspBase != 0 && m.evtBase != 0 then
    let n := m.reads.length + heldNum m
    cnt .mbxRotDiscard c 0 n (setMbxFault c 0 (modMbx c (fun m =>
      { clearCounts m with enable := true, enabling := true, dmaStop := false, reads := [], held := none,
                           secOpen := none, late := [] }) (dropWaiting c s)))
  else setMbxFault c 6 s

/-- A write of `ENABLE` 0 stops the reading of commands at once (R389). -/
def mbxDisable (c : Nat) (s : State) : State :=
  modMbx c (fun m => { m with enable := false, enabling := false, fetchTo := m.cmdHead }) s

/-- Close a compartment's session (R467). -/
def closeSession (c : Nat) (s : State) : State :=
  { s with trust := { s.trust with sess := tput none s.trust.sess (k1 c) none } }

/-- `ENABLED` clears once every command read has its response, or when none can be written any more (R389, R405,
R467). -/
def mbxDrained (c : Nat) (s : State) : State :=
  let m := mbxOf s c
  if m.enabled && !m.enable && ((m.reads.isEmpty && m.held.isNone) || m.dmaStop)
  then closeSession c (modMbx c (fun m => { m with enabled := false }) s)
  else s

/-- `ENABLED` is set at the boundary after an accepted write (R389). -/
def mbxEnabling (c : Nat) (s : State) : State :=
  if (mbxOf s c).enabling then modMbx c (fun m => { m with enabling := false, enabled := true }) s else s

/-- Put a 32-bit or 64-bit write into a 64-bit register's present value. -/
def mergeWrite (old v : BitVec 64) (off size : Nat) : BitVec 64 :=
  if size = 8 then v
  else if off % 8 = 4 then BitVec.ofNat 64 (old.toNat % 2 ^ 32 + (v.toNat % 2 ^ 32) * 2 ^ 32)
  else BitVec.ofNat 64 (old.toNat / 2 ^ 32 * 2 ^ 32 + v.toNat % 2 ^ 32)

/-- `MBX.CFG` as a register (R388). -/
def mbxCfg (m : Mbx) : BitVec 64 :=
  BitVec.ofNat 64 (b2n m.enable + 2 * b2n m.evtSeal + m.timeout * 2 ^ 8 + m.holdoff * 2 ^ 35)

/-- A write of a ring base (R387, R388): changing it while in service, or to an address not aligned to 4 KiB, is a
CFG_ERR. -/
def baseWrite (c : Nat) (get : Mbx → BitVec 64) (put : Mbx → BitVec 64 → Mbx) (off size : Nat) (v : BitVec 64)
    (s : State) : State :=
  let m := mbxOf s c
  let n := mergeWrite (get m) v off size
  if (m.enabled && n != get m) || n.toNat % 4096 ≠ 0 then setMbxFault c 5 s
  else modMbx c (fun m => put m n) s

/-- A write of `MBX.CFG` (R388, R389). -/
def cfgWrite (c : Nat) (off size : Nat) (v : BitVec 64) (s : State) : State :=
  let m := mbxOf s c
  let n := mergeWrite (mbxCfg m) v off size
  let t := fld n 34 8
  let h := fld n 44 35
  if t < 1000 ∨ 100000000 < t ∨ 1000 < h ∨ (m.enabled ∧ t ≠ m.timeout) then setMbxFault c 5 s
  else
    let s := modMbx c (fun m => { m with timeout := t, holdoff := h, evtSeal := bit n 1 }) s
    if bit n 0 && !m.enable then mbxEnable c s
    else if !bit n 0 && m.enable then mbxDisable c s
    else s

/-- DOORBELL.FETCH (R393). -/
def doorFetch (c : Nat) (s : State) : State := modMbx c (fun m => { m with fetchTo := m.cmdTail }) s

/-- A doorbell write (R393). -/
def doorbell (c : Nat) (v : BitVec 64) (s : State) : State :=
  let s := if bit v 0 then doorFetch c s else s
  let s := if bit v 1 then rearm c 0 s else s
  if bit v 2 then foldS (List.range 18) (fun k => rearm c (k + 1)) s else s

/-- A write access to a mailbox page (R387, R388): a malformed access is counted; a write of a read-only or reserved
offset is ignored (R19). -/
def registerWrite (c : Nat) (off size : Nat) (v : BitVec 64) (s : State) : State :=
  if (size ≠ 4 ∧ size ≠ 8) ∨ off % size ≠ 0 then cnt .mbxBadAccess c 0 1 s
  else
    match off / 8 with
    | 0 => if off % 8 = 0 then cmdTailWrite c (v.setWidth 32) s else s
    | 1 => if off % 8 = 0 then rspHeadWrite c (v.setWidth 32) s else s
    | 5 => if off % 8 = 0 then evtHeadWrite c (v.setWidth 32) s else s
    | 6 => if off % 8 = 0 then doorbell c v s else s
    | 10 => baseWrite c Mbx.cmdBase (fun m n => { m with cmdBase := n }) off size v s
    | 11 => baseWrite c Mbx.rspBase (fun m n => { m with rspBase := n }) off size v s
    | 12 => baseWrite c Mbx.evtBase (fun m n => { m with evtBase := n }) off size v s
    | 13 => cfgWrite c off size v s
    | _ => s

/-- The host writes a double word of a vector's entry in the MSI-X table: 0 and 1 the address, 2 the data, 3 the mask in bit 0; a
message that is pending is sent when the mask is lifted (R404; log entry 4). -/
def msixDword (i : Nat) (v : BitVec 32) (x : Vec) : Vec :=
  match i with
  | 0 => { x with addr := BitVec.ofNat 64 (x.addr.toNat / 2 ^ 32 * 2 ^ 32 + v.toNat / 4 * 4) }
  | 1 => { x with addr := BitVec.ofNat 64 (x.addr.toNat % 2 ^ 32 + v.toNat * 2 ^ 32) }
  | 2 => { x with data := v }
  | _ => if !bit v 0 && x.pend then { x with masked := false, pend := false, sent := x.sent + 1 } else { x with masked := bit v 0 }

/-- A write to BAR4 (R385): the MSI-X table takes aligned writes of 4 or 8 bytes; the pending-bit array is read-only. -/
def msixWrite (off size : Nat) (v : BitVec 64) (s : State) : State :=
  if (size ≠ 4 ∧ size ≠ 8) ∨ off % size ≠ 0 ∨ 0x8000 ≤ off then s
  else
    let n := off / 16
    let i := off % 16 / 4
    modVec (n / 64) (n % 64) (fun x =>
      let x := msixDword i (v.setWidth 32) x
      if size = 8 then msixDword (i + 1) (BitVec.ofNat 32 (v.toNat / 2 ^ 32)) x else x) s

/-- A write to the module's PCIe configuration space (R385): Device Control, in which the host sets the largest payload and the largest
read request, and the error status of AER, whose bits a one clears. The places are the family's (PRESUMED, log entry 128). -/
def configWrite (off size : Nat) (v : BitVec 64) (s : State) : State :=
  if off = 0x008 ∧ (size = 2 ∨ size = 4) then { s with host := { s.host with devCtl := v.setWidth 16 } }
  else if off = 0x104 ∧ size = 4 then { s with host := { s.host with aer := s.host.aer &&& ~~~(v.setWidth 32) } }
  else s

/-- The largest payload of a DMA request, 128 to 512 bytes as the host sets, and the largest read request, up to 4,096 bytes (R385). -/
def maxPayload (s : State) : Nat := min 512 (128 * 2 ^ fld s.host.devCtl 7 5)
def maxRead (s : State) : Nat := min 4096 (128 * 2 ^ fld s.host.devCtl 14 12)

/-- A register write of the host: to the mailbox page of compartment `c` (bar 0), to BAR2, where it is ignored and counted (R408; log
entry 112), to BAR4 (bar 2), or to configuration space (bar 3). -/
def hostWrite (bar c off size : Nat) (v : BitVec 64) (s : State) : State :=
  match bar with
  | 0 => registerWrite c (off % 4096) size v s
  | 1 => cnt .mbxBadAccess c 0 1 s
  | 2 => msixWrite off size v s
  | _ => configWrite off size v s

/-- A read access to the mailbox page of compartment `c` (R387): one of `RING_NOW`'s low half latches the high half, a malformed one is
counted; what the access returns is `mbxRead`. -/
def registerRead (c off size : Nat) (s : State) : State :=
  if (size ≠ 4 ∧ size ≠ 8) ∨ off % size ≠ 0 then cnt .mbxBadAccess c 0 1 s
  else if off = 0x20 ∧ size = 4 then modMbx c (fun m => { m with latch := BitVec.ofNat 32 (s.ring / 2 ^ 32) }) s
  else s

/-! ## Reading commands (R390 to R398) -/

/-- The Ranger may read one more command of compartment `c` (R392 to R394). -/
def mayRead (s : State) (c : Nat) : Bool :=
  let m := mbxOf s c
  m.enabled && m.enable && !dmaStopped s && !m.dmaStop &&
    m.held.isNone && decide (0 < span m.fetchTo m.cmdHead) && decide (span m.fetchTo m.cmdHead ≤ 4096) &&
    decide (m.reads.length + span m.rspTail m.rspHead < 4096) && decide (m.readsInRing < 16) &&
    decide (s.host.readsInRing < 128)

/-- The compartment whose command the Ranger reads next (R394): round-robin, from CID n mod 32 at ring n. -/
def nextRead (s : State) : Option Nat :=
  let t := if s.host.turn = 0 then s.ring else s.host.turn - 1
  ((List.range 32).map (fun d => (t + d) % 32)).find? (mayRead s)

/-- The header with bytes 36 to 39 taken as zero, for the CRC (R397). -/
def hdrNoCrc (h : List Byte) : List Byte := h.take 36 ++ zeros 4 ++ h.drop 40

/-- Steps 1 to 8 of R398 for a header and the payload that came with it. Inside a secured record (R399) `FLAGS` [1] is set,
`PAYLOAD_ADDR` is 0 and `PAYLOAD_LEN` is the number of bytes that follow. -/
def headCheck (inner : Bool) (s : State) (c : Nat) (h p : List Byte) (dmaOk : Bool) : Status :=
  let len := leAt h 32 4
  let addr := leAt h 24 8
  let op := opOfCode (leAt h 4 2)
  orElseSt (firstBad [
    (leAt h 0 2 == 0x4C41 && leAt h 2 1 == 1 && leAt h 3 1 == 2 * b2n inner && leAt h 6 2 == 0 && leAt h 13 1 == 0, .range),
    (decide (len ≤ 16777216), .range),
    (decide (len ≠ 0) || addr == 0, .range),
    (addr % 8 == 0, .range),
    (!inner || (addr == 0 && len == p.length), .range)]) <|
  orElseSt (match op with | some o => payPresence (opPay o) len | none => .ok) <|
  firstBad [
    (dmaOk, .range),
    (crc32c (hdrNoCrc h ++ p) == BitVec.ofNat 32 (leAt h 36 4), .crc),
    (leAt h 12 1 == c, .denied),
    (leAt h 14 2 == (cmpOf s c).rotation.toNat, .staleRotation),
    (op.isSome, .unknownOp),
    (decide (leAt h 16 8 ≤ s.ring + 100000000), .range)]

/-- Steps 1 to 8 of R398 for a command as it is read. -/
def fetchCheck (s : State) (c : Nat) (h p : List Byte) (dmaOk : Bool) : Status := headCheck false s c h p dmaOk

/-- Step 9 of R398 for a command outside a session. -/
def outsideOk (o : Op) (c : Nat) : Bool :=
  match opRights o with
  | .any => true
  | .manager | .managerOrOwner => c == 0
  | .owner => false

/-- The DMA request that fetches a command's payload (R386). -/
def payloadDma (s : State) (c : Nat) (h : List Byte) : Dma :=
  if leAt h 32 4 = 0 then {} else { pasid := (cmpOf s c).pasid, addr := BitVec.ofNat 64 (leAt h 24 8) }

/-- The Ranger reads a command (R394): `CMD_HEAD` advances, and the checks of R398 either answer it, hold it for its
`NOT_BEFORE`, or leave it validated in this ring. -/
def commandFetch (c : Nat) (h p : List Byte) (dmaOk : Bool) (s : State) : State :=
  if nextRead s = some c then
    let s := modMbx c (fun m => { m with cmdHead := m.cmdHead + 1, readsInRing := m.readsInRing + 1,
                                         cmdDma := slotDma s c m.cmdBase (m.cmdHead.toNat % 4096), payDma := payloadDma s c h }) s
    let s := { s with host := { s.host with readsInRing := s.host.readsInRing + 1, turn := (c + 1) % 32 + 1 } }
    let code := leAt h 4 2
    let tag := BitVec.ofNat 32 (leAt h 8 4)
    let o := opOfCode code
    if s.host.closing then s else
    let long := match o with | some o => opLong o | none => false
    let nb := leAt h 16 8
    let refuseWith (v : Nat) (st : Status) : State :=
      let bad : Slot := { rsp := { op := code, inner := bit (BitVec.ofNat 8 (leAt h 3 1)) 1, status := st, tag := tag, v := v,
                                   cid := some (leAt h 12 1) } }
      let e : ReadEnt := { tag := tag, op := code, v := v, long := false, ans := some bad }
      flushRsp c (modMbx c (fun m => { m with reads := m.reads ++ [e] }) s)
    match fetchCheck s c h p dmaOk with
    | .ok =>
      if s.ring < nb then
        let x : Held := { tag := tag, op := code, notBefore := nb, arg1 := BitVec.ofNat 32 (leAt h 60 4) }
        modMbx c (fun m => { m with held := some x }) s
      else
        match o with
        | some o =>
          if outsideOk o c then
            modMbx c (fun m => { m with reads := m.reads ++ [{ tag := tag, op := code, v := s.ring, long := long }] }) s
          else refuseWith s.ring .denied
        | none => refuseWith 0 .unknownOp
    | st => refuseWith 0 st
  else s

/-- The inner command that a mailbox holds is validated: v is the present ring, and its SECURED command stands (R398,
R399). Where the session has ended meanwhile, the SECURED command is refused with DENIED (R467). -/
def releaseInner (c : Nat) (x : Held) (so : SecOpen) (s : State) : State :=
  if !(session s c).any (fun y => y.ems == so.sess) then
    deliver c { rsp := { op := 0x0E01, status := .denied, tag := x.tag, v := s.ring } }
      (modMbx c (fun m => { m with held := none }) s)
  else
    modMbx c (fun m => { m with
      held := none, secOpen := some so,
      reads := m.reads.map (fun e => if e.tag = x.tag ∧ e.op = x.op ∧ e.ans.isNone then { e with v := s.ring } else e) }) s

/-- A held command is validated at the first boundary at or after its `NOT_BEFORE` (R398). -/
def notBeforeRelease (c : Nat) (s : State) : State :=
  match (mbxOf s c).held with
  | some x =>
    if x.notBefore ≤ s.ring then
      match x.sec with
      | some so => releaseInner c x so s
      | none =>
      let o := opOfCode x.op
      let long := match o with | some o => opLong o | none => false
      let ok := match o with | some o => outsideOk o c | none => false
      let bad : Slot := { rsp := { op := x.op, status := .denied, tag := x.tag, v := s.ring } }
      let ent : ReadEnt :=
        { tag := x.tag, op := x.op, v := s.ring, long := long && ok, ans := if ok then none else some bad }
      flushRsp c (modMbx c (fun m => { m with held := none, reads := m.reads ++ [ent] }) s)
    else s
  | none => s

/-- The bit of AER's uncorrectable error status that reports a DMA error (R385, R405): `pcie` names it (log entry 128). -/
def aerBit (pcie : Nat) : BitVec 32 := BitVec.ofNat 32 (2 ^ (pcie % 32))

/-- A DMA error on a compartment's ring (R405): 0 command, 1 response, 2 event. Until `ENABLE` is written 0 and 1 nothing is read or
written any more. -/
def mbxDma (c which pcie : Nat) (s : State) : State :=
  note 0x49 0x0D02 c [which, pcie] (setMbxFault c (2 + which) (modMbx c (fun m => { m with fetchTo := m.cmdHead, dmaStop := true })
    { s with host := { s.host with aer := s.host.aer ||| aerBit pcie } }))

/-! ## BARRIER (R425) -/

/-- BARRIER's checks (R425). -/
def opBarrier : LOp :=
  { op := .barrier, args := fun _ q => if q.arg1.toNat ≤ 1000000 then .ok else .range }

/-- Every command of the compartment before the one with this tag has its response. -/
def earlierDone (s : State) (c : Nat) (tag : BitVec 32) (op : Nat) : Bool :=
  let l := (mbxOf s c).reads
  match l.findIdx? (fun e => e.tag = tag && e.op == op && e.ans.isNone) with
  | some i => i == 0
  | none => l.isEmpty

/-- The tag and opcode under which a request's command was read: SECURED's for an inner command. -/
def outerId (s : State) (q : Req) (o : Op) : BitVec 32 × Nat :=
  if q.inner then (((mbxOf s q.c).secOpen.map SecOpen.tag).getD 0, 0x0E01) else (q.tag, opCode o)

/-- A BARRIER is answered when every earlier command has its response and its wait rings have passed. -/
def barrierDone (s : State) (q : Req) (v : Nat) : Bool :=
  let (tag, op) := outerId s q .barrier
  earlierDone s q.c tag op && decide (v + q.arg1.toNat ≤ s.ring)

/-- BARRIER (R425): answered at once when nothing is left to wait for, else at the first boundary that finds so. Its
effect code is "now", so `RING` is v (R414, R416). -/
def runBarrier (q : Req) (s : State) : State :=
  if served s q then
    let (tag, op) := outerId s q .barrier
    let v := ringOfV s q.c tag op
    match admission opBarrier v s q with
    | .ok =>
      if barrierDone s q v then answer .barrier q v s { st := s, ring := v }
      else
        let (sec, s) := takeSec q s
        { s with items := s.items ++ [{ itemOf .barrier q v (v + q.arg1.toNat) true with sec := sec }] }
    | st => answer .barrier q v s (refuse st s)
  else s

/-! ## Meanings -/

/-- CMD_TAIL_WRITE (R391). -/
def execCmdTailWrite (cid : Fin 32) (v : BitVec 32) (s : State) : Out :=
  .next (unlessHalted s (cmdTailWrite cid.val v s))
/-- RSP_HEAD_WRITE (R392). -/
def execRspHeadWrite (cid : Fin 32) (v : BitVec 32) (s : State) : Out :=
  .next (unlessHalted s (rspHeadWrite cid.val v s))
/-- EVT_HEAD_WRITE (R392). -/
def execEvtHeadWrite (cid : Fin 32) (v : BitVec 32) (s : State) : Out :=
  .next (unlessHalted s (evtHeadWrite cid.val v s))
/-- FETCH (R393). -/
def execFetch (cid : Fin 32) (s : State) : Out := .next (unlessHalted s (doorFetch cid.val s))
/-- ARM_RSP (R404). -/
def execArmRsp (cid : Fin 32) (s : State) : Out := .next (unlessHalted s (rearm cid.val 0 s))
/-- ARM_EVT (R404): vectors 1 to 18. -/
def execArmEvt (cid : Fin 32) (s : State) : Out :=
  .next (unlessHalted s (foldS (List.range 18) (fun k => rearm cid.val (k + 1)) s))
/-- MBX_ENABLE (R389). -/
def execMbxEnable (cid : Fin 32) (s : State) : Out := .next (unlessHalted s (mbxEnable cid.val s))
/-- MBX_DISABLE (R389). -/
def execMbxDisable (cid : Fin 32) (s : State) : Out := .next (unlessHalted s (mbxDisable cid.val s))
/-- MBX_DRAINED (R389). -/
def execMbxDrained (cid : Fin 32) (s : State) : Out := .next (unlessHalted s (onBoundary (mbxDrained cid.val) s))
/-- RING_NOW_LOW_READ (R387): a read of a mailbox page. -/
def execRingNowLowRead (rd : PageRead) (s : State) : Out :=
  .next (if s.pwr.on then registerRead rd.cid.val rd.off.toNat rd.size s else s)
/-- REGISTER_WRITE (R385, R387, R388, R408). -/
def execRegisterWrite (page : PageRef) (off : BitVec 16) (size : Nat) (v : BitVec 64) (s : State) : Out :=
  .next (unlessHalted s (hostWrite page.bar.val page.cid.val off.toNat size v s))
/-- COMMAND_FETCH (R394, R398). -/
def execCommandFetch (cid : Fin 32) (hdr payload : List Byte) (dmaOk : Bool) (s : State) : Out :=
  .next (commandFetch cid.val hdr payload dmaOk s)
/-- NOT_BEFORE_RELEASE (R398). -/
def execNotBeforeRelease (cid : Fin 32) (s : State) : Out := .next (unlessHalted s (notBeforeRelease cid.val s))
/-- EVT_LOST (R401). -/
def execEvtLost (cid : Fin 32) (s : State) : Out :=
  .next (flushLost cid.val s)
/-- IRQ_HOLDOFF_EXPIRE (R404). -/
def execIrqHoldoffExpire (cid : Fin 32) (k : Fin 19) (s : State) : Out :=
  .next (unlessHalted s (rearmSignal cid.val k.val s))
/-- MBX_DMA (R405). -/
def execMbxDma (cid : Fin 32) (which : Fin 3) (pcie : BitVec 8) (s : State) : Out :=
  .next (unlessHalted s (mbxDma cid.val which.val pcie.toNat s))
/-- BARRIER (R425). -/
def execBarrier (q : Req) (s : State) : Out := .next (runBarrier q s)

end Sys2Proof.Machine
end

