-- ==== Sys2Proof/Machine/Queues.lean ====
section
/-!
DEFINITION. What every stage of a frame's journey shares: programmable counters (R526 to R529), blaze records (R534,
R536), the pools and their states (R299 to R309), PFC (R83), egress credits (R278), frame records and the settling of
copies (R151, R274, R291), and the queues of copies (R273 to R276, R310 to R315).
-/
namespace Sys2Proof.Machine

/-! ## Programmable counters and blaze records -/

/-- The counting of one event by one select (R527, R528): (value, overflow, wrapped now). -/
def progOne (sel : BitVec 32) (val ovf k code cid qual n : Nat) : Nat × Nat × Bool :=
  let hit := fld sel 7 0 == code && (!bit sel 13 || fld sel 12 8 == cid) &&
    (fld sel 23 16 == 0 || (fld sel 23 16 &&& qual) != 0)
  if hit && code != 0 then
    let v := val + n
    if 2 ^ 32 ≤ v then (v % 2 ^ 32, ovf ||| 2 ^ k, true) else (v, ovf, false)
  else (val, ovf, false)

/-- Count an event over the eight selects of a unit. -/
def progAll (p : Prog) (code cid qual n : Nat) : Nat → List (BitVec 32) → List Nat → List Nat × Nat × Nat
  | _, [], _ => ([], p.ovf, p.ringOvf)
  | _, _, [] => ([], p.ovf, p.ringOvf)
  | k, sel :: ss, v :: vs =>
    let (rest, o, r) := progAll p code cid qual n (k + 1) ss vs
    let (v', o', w) := progOne sel v o k code cid qual n
    (v' :: rest, o', if w then r ||| 2 ^ k else r)

/-- An event of R527 at a unit: `qual` is the bit of the event's qualifier, 0 where the event has none. -/
def progEvt (unit code cid qual n : Nat) (s : State) : State :=
  let p := tget {} s.ctr.prog (k1 unit)
  if p.sel.all (· == 0) then s
  else
    let (vs, o, r) := progAll p code cid qual n 0 p.sel p.val
    { s with ctr := { s.ctr with prog := tput {} s.ctr.prog (k1 unit) { p with val := vs, ovf := o, ringOvf := r, ringSet := p.ringSet || o != p.ovf } } }

/-- The fields of a stamp (R26). -/
def stEntry (x : BitVec 128) : Nat := fld x 63 0
def stPort (x : BitVec 128) : Nat := fld x 69 64
def stCid (x : BitVec 128) : Nat := fld x 74 70
def stHandle (x : BitVec 128) : Nat := fld x 80 75
def stRotation (x : BitVec 128) : Nat := fld x 96 81
def stBlaze (x : BitVec 128) : Bool := bit x 97
def stPipe (x : BitVec 128) : Nat := fld x 102 100
def stLength (x : BitVec 128) : Nat := fld x 116 103

/-- The record of `BLZ.CFG` that governs frames of an entry ring (R530). -/
def blzFor (s : State) (n : Nat) : BitVec 128 :=
  match s.ctr.blzWas.find? (fun w => decide (n < w.1)) with
  | some w => w.2
  | none => s.ctr.blz

/-- Write a blaze record (R534, R536): 128 of one pipeline in a ring, the newest 8,192 kept. `side` is 0 for the
ingress and 1 for the egress pipelines; ports and classes not formed yet are 255. -/
def blaze (stamp : BitVec 128) (pos stage outPort cls unit detail side pipe : Nat) (s : State) : State :=
  if stBlaze stamp && bit (blzFor s (stEntry stamp)) (82 + stage) then
    let n := tget 0 s.ctr.blzRing (k2 side pipe)
    let cid := stCid stamp
    if 128 ≤ n then cnt .blzTraceDrop cid 0 1 s
    else
      let body := packLE [(8, stEntry stamp), (8, s.ring), (2, s.clock), (1, stage), (1, cid), (1, stPort stamp),
        (1, outPort), (2, pos), (1, cls), (1, unit), (2, min detail 65535), (4, s.ctr.blzSeq % 2 ^ 32)]
      let old := s.ctr.trace.drop 8191
      let s := foldS old (fun e => if tget 0 s.ctr.marks (k2 e.2.1 e.2.1) ≤ e.1 then cnt .blzTraceLost e.2.1 0 1 else id) s
      { s with ctr := { s.ctr with trace := (s.ctr.blzSeq, cid, body) :: s.ctr.trace.take 8191,
                                   blzSeq := s.ctr.blzSeq + 1,
                                   blzRing := tput 0 s.ctr.blzRing (k2 side pipe) (n + 1) } }
  else s

/-! ## Attachment (R439 to R442) -/

/-- The compartments attached to a port. -/
def attachedTo (s : State) (p : Nat) : List Nat :=
  allCids.filter (fun c => s.cmp.att.any (fun a => a.port == p && a.cid == c))

/-- Compartment `c` is attached to port `p`. -/
def attached (s : State) (c p : Nat) : Bool := s.cmp.att.any (fun a => a.port == p && a.cid == c)

/-- The compartment a frame resolves to under a map (R440): `tagged` and `vid` are its outer tag. -/
def resolveIn (att : List Att) (p : Nat) (tagged : Bool) (vid : Nat) : Option Nat :=
  let es := att.filter (fun a => a.port == p)
  match es.find? (fun a => a.kind == 0) with
  | some a => some a.cid
  | none =>
    if tagged && vid != 0 then
      (es.find? (fun a => a.kind == 1 && decide (a.lo ≤ vid) && decide (vid ≤ a.hi))).map Att.cid
    else (es.find? (fun a => a.kind == 2)).map Att.cid

/-- The outer VLAN tag of a frame: whether bytes 12 and 13 name one, and its VID and PCP (R112). -/
def outerTag (bytes : List Byte) : Bool × Nat × Nat :=
  let et := beAt bytes 12 2
  if (et == 0x8100 || et == 0x88A8) && decide (16 ≤ bytes.length) then
    let tci := beAt bytes 14 2
    (true, tci % 4096, tci / 8192)
  else (false, 0, 0)

/-- The ingress priority of a frame (R82). -/
def ingPrio (s : State) (p : Nat) (bytes : List Byte) : Nat :=
  let (t, _, pcp) := outerTag bytes
  if t then pcp else fld (port s p).cfg 45 43

/-! ## Gate banks -/

/-- The active bank of a port: 0 or 1. -/
def activeBank (s : State) (p : Nat) : Nat := b2n (tget false s.sch.active (k1 p))
/-- A bank of a port. -/
def bankOf (s : State) (p b : Nat) : Bank := tget {} s.sch.bank (k2 p b)
/-- `GATED` of the active bank (R323). -/
def gatedMask (s : State) (p : Nat) : Nat := fld (bankOf s p (activeBank s p)).hdr 44 37
/-- Class `c` is gated on port `p`. -/
def gated (s : State) (p c : Nat) : Bool := (gatedMask s p).testBit c
/-- A switch of the port's bank is accepted and has not landed. -/
def switchPending (s : State) (p : Nat) : Bool :=
  s.items.any (fun i => i.op == .gateSwitch && i.req.a1 5 0 == p)

/-! ## Pools (R299 to R306) -/

/-- Pool `p`. -/
def poolOf (s : State) (p : Nat) : Pool := tget {} s.buf.pool (k1 p)
/-- Change pool `p`. -/
def modPool (p : Nat) (f : Pool → Pool) (s : State) : State :=
  { s with buf := { s.buf with pool := tmod {} s.buf.pool (k1 p) f } }
/-- The pool's segments, and its capacity K in cells (R300). -/
def poolSegs (s : State) (p : Nat) : Nat := fld (poolOf s p).cfg 7 0
def poolCap (s : State) (p : Nat) : Nat := poolSegs s p * 4096
/-- The first cell of a pool (R299). -/
def poolBase (s : State) (p : Nat) : Nat := ((List.range p).map (poolSegs s)).foldl (· + ·) 0 * 4096

/-- A threshold of a pool by state code: 1 ADVISE, 2 PRESS, 3 HOLD (R299). -/
def poolThr (q : Pool) (l : Nat) : Nat :=
  match l with | 1 => fld q.cfg 27 8 | 2 => fld q.cfg 47 28 | 3 => fld q.cfg 67 48 | _ => 0

/-- Fall through each state that the occupancy no longer holds (R305); at most three falls. -/
def poolFall (q : Pool) : Nat → Nat → Nat
  | 0, st => st
  | n + 1, st => if st ≠ 0 ∧ q.occ + fld q.cfg 79 68 < poolThr q st then poolFall q n (st - 1) else st

/-- The state of a pool after its occupancy or its record changed (R305): a rise may skip states. -/
def poolNext (q : Pool) : Nat :=
  let up := if poolThr q 3 ≤ q.occ then 3 else if poolThr q 2 ≤ q.occ then 2 else if poolThr q 1 ≤ q.occ then 1 else 0
  if q.state < up then up else poolFall q 3 q.state

/-- The priorities for which port `p` must hold XOFF (R83, R305, R445, R505): by its pool's state, by the module's
mode, and by the freeze of a compartment with a PORT entry on it. In HOLD it is every ungated priority and no gated one, also where
PRESS held one before (DESIGN CHOICE, log entry 131). -/
def xoffWant (s : State) (p : Nat) : Nat :=
  let cfg := (port s p).cfg
  let tx := fld cfg 39 32
  let st := (poolOf s (fld cfg 42 40)).state
  let pool := match st with | 3 => tx &&& (255 - gatedMask s p) | 2 => tx &&& 0xF | _ => 0
  let frz := s.cmp.att.any (fun a => a.port == p && a.kind == 0 && (cmpOf s a.cid).frozen)
  if s.md.mode = .frozen ∨ s.md.mode = .staged ∨ frz then tx else pool

/-- The PFC frame of port `p` for the priorities of a mask, each with the same pause time in quanta (R83): destination
01-80-C2-00-00-01, EtherType 0x8808, opcode 0x0101, padded to 60 bytes. -/
def pfcFrame (p mask quanta : Nat) : List Byte :=
  padTo 60 (beBytes 6 0x0180C2000001 ++ beBytes 6 (Config.portMac p).toNat ++ beBytes 2 0x8808 ++ beBytes 2 0x0101 ++
    beBytes 2 mask ++ (List.range 8).flatMap (fun i => beBytes 2 (if mask.testBit i then quanta else 0)))

/-- A frame that port `p` has put on the wire. -/
def putWire (p : Nat) (l : List Byte) (s : State) : State :=
  { s with link := { s.link with wire := tput [] s.link.wire (k1 p) l } }

/-- Send one PFC frame on port `p` and count it (R81, R83, R527). R81 does not say whether it counts as a transmitted frame too: the
model counts it in `PORT.TX.PFC` alone, as R81 does on receive (DESIGN CHOICE, log entry 131). -/
def pfcSend (p mask quanta : Nat) (s : State) : State :=
  if s.pwr.fallAt.isSome then s else
  progEvt (uGroup (portGroup s p)) 0x32 255 (2 ^ ((fld (port s p).cfg 8 6 + 2 * (portCage s p % 4)) % 8)) 1
    (cnt .txPfc p 0 1 (putWire p (withFcs false (pfcFrame p mask quanta)) s))

/-- Send XOFF with `PFC_QUANTA` for a mask of priorities; the next repetition is counted from here (R83). -/
def pfcXoff (p mask : Nat) (s : State) : State :=
  modPort p (fun q => { q with xoffRing := s.ran }) (pfcSend p mask (fld (port s p).cfg 79 64) s)

/-- Bring the XOFF of port `p` to what the pool and the freezes call for (R83): XOFF where a priority enters it, and where
the pool itself has just entered PRESS or HOLD (`entered`); one frame of time 0 for the priorities that are released. A port
that is down sends no PFC (R80). -/
def pfcTo (entered : Bool) (p : Nat) (s : State) : State :=
  if (port s p).up then
    let want := xoffWant s p
    let old := (port s p).xoff
    let s := if (want &&& (255 - old)) ≠ 0 || (entered && want != 0) then pfcXoff p want s else s
    let s := if (old &&& (255 - want)) ≠ 0 then pfcSend p (old &&& (255 - want)) 0 s else s
    if want = old then s else modPort p (fun q => { q with xoff := want }) s
  else s

/-- Bring the XOFF of port `p` up to date after anything but a rise of its pool. -/
def pfcUpdate (p : Nat) (s : State) : State := pfcTo false p s

/-- Evaluate the state of a pool (R305) and the XOFF of its ports. -/
def poolEval (p : Nat) (s : State) : State :=
  let q := poolOf s p
  let st := poolNext q
  let d := if q.state ≤ st then st - q.state else q.state - st
  let s := modPool p (fun q => { q with state := st, peak := max q.peak q.occ, ringPeak := max q.ringPeak q.occ,
                                        ringHigh := max q.ringHigh st, crossings := q.crossings + d }) s
  if d = 0 then s
  else foldS (allPorts.filter (fun x => fld (port s x).cfg 42 40 == p)) (pfcTo (decide (q.state < st) && decide (2 ≤ st))) s

/-- The first `m` entries of a pool's free ring (R302): cells never taken first, then freed cells in order. -/
def ringSeq (s : State) (p m : Nat) : List Nat :=
  let q := poolOf s p
  let k := min m (poolCap s p - q.fresh)
  (List.range k).map (fun i => poolBase s p + q.fresh + i) ++ q.free.take (m - k)

/-- Take the first `m` entries off a pool's free ring. -/
def ringDrop (p m : Nat) (s : State) : State :=
  let k := min m (poolCap s p - (poolOf s p).fresh)
  modPool p (fun q => { q with fresh := q.fresh + k, free := q.free.drop (m - k) }) s

/-- The check of R304 that a pointer fails when it enters or leaves a cache or a free ring. -/
def ptrFault (s : State) (x : Nat) : Option Nat := (s.buf.badPtr.find? (fun b => b.2 == x)).map Prod.fst

/-- The cache of a group for a pool. -/
def cacheOf (s : State) (g p : Nat) : List Nat := tget [] s.buf.cache (k2 g p)
/-- Replace the cache of a group for a pool. -/
def setCache (g p : Nat) (l : List Nat) (s : State) : State :=
  { s with buf := { s.buf with cache := tput [] s.buf.cache (k2 g p) l } }

/-- The fullest other cache of a pool (R302). -/
def fullestCache (s : State) (g p : Nat) : Nat :=
  (List.range 16).foldl (fun b x =>
    if x ≠ g ∧ ((cacheOf s b p).length < (cacheOf s x p).length ∨ b = g) then x else b) g

/-- A pointer that failed its check is dropped from wherever it stands, and its cell leaks (R304). -/
def leakCell (p check ptr : Nat) (s : State) : State :=
  let s := cnt (match check with | 0 => .poolPtrRange | 1 => .poolPtrAlign | _ => .poolPtrState) p 0 1 s
  let s := note 0x43 0x0B02 255 [p, check, ptr] s
  let s := modPool p (fun q => { q with leaked := q.leaked + 1, free := q.free.filter (· ≠ ptr) }) { s with buf := { s.buf with
    leaked := ptr :: s.buf.leaked, badPtr := s.buf.badPtr.filter (fun b => b.2 != ptr),
    cache := (s.buf.cache.map (fun e => (e.1, e.2.filter (· ≠ ptr)))).filter (fun e => !e.2.isEmpty) } }
  if (poolOf s p).leaked = 4096 then restartFault 0x43 0x0B03 255 [p] s else s

/-- Drop the pointers of a list that fail their check (R304). -/
def leakBad (p : Nat) (l : List Nat) (s : State) : State :=
  foldS (l.filterMap (fun x => (ptrFault s x).map (fun k => (k, x)))) (fun b => leakCell p b.1 b.2) s

/-- Take `n` entries from a pool's free ring (R302): one that fails its check is replaced by the next (R304), and a leaked cell
is not used again. -/
def ringTake (p n : Nat) (s : State) : List Nat × State :=
  let l := ringSeq s p (n + s.buf.badPtr.length + s.buf.leaked.length)
  let good := (l.filter (fun x => !s.buf.leaked.contains x && (ptrFault s x).isNone)).take n
  let m := if good.length < n then l.length else match good.getLast? with | some x => l.idxOf x + 1 | none => 0
  (good, leakBad p (l.take m) (ringDrop p m s))

/-- Take up to 64 entries from the fullest other cache of a pool (R302): one that fails its check as it leaves is dropped, and where a
cache has no good entry the next fullest is asked (R304). -/
def donorTake (g p : Nat) : Nat → State → List Nat × State
  | 0, s => ([], s)
  | fuel + 1, s =>
    let o := fullestCache s g p
    let oc := cacheOf s o p
    if o = g ∨ oc.isEmpty then ([], s)
    else
      let good := (oc.filter (fun x => (ptrFault s x).isNone)).take 64
      let m := if good.length < 64 then oc.length else match good.getLast? with | some x => oc.idxOf x + 1 | none => 0
      let t := leakBad p (oc.take m) (setCache o p (oc.drop m) s)
      if good.isEmpty then donorTake g p fuel t else (good, t)

/-- Refill a cache (R302): 256 entries from the ring when it falls below 128; when both are empty, 64 from the fullest
other cache. -/
def refill (g p : Nat) (s : State) : State :=
  let c := cacheOf s g p
  if c.length < 128 then
    let (l, s) := ringTake p 256 s
    let c := c ++ l
    if c.isEmpty then
      let (l, s) := donorTake g p 16 s
      setCache g p l s
    else setCache g p c s
  else s

/-- Take one cell of pool `p` for group `g` (R301, R302): a pointer of the cache that fails its check is dropped first (R304),
and the cache is refilled when it runs low. -/
def allocCell (g p : Nat) (s : State) : Option (Nat × State) :=
  let s := leakBad p ((cacheOf s g p).takeWhile (fun x => (ptrFault s x).isSome)) s
  let s := refill g p s
  if poolCap s p ≤ (poolOf s p).occ then none
  else
    match cacheOf s g p with
    | [] => none
    | x :: r => some (x, poolEval p (modPool p (fun q => { q with occ := q.occ + 1 }) (refill g p (setCache g p r s))))

/-- The state as it stands at another clock of the run. -/
def toClk (k : Nat) (s : State) : State :=
  { s with ring := s.ring + k / 1600 - s.ran, ran := k / 1600, clock := k % 1600 }

/-- Do something at another clock of the run and come back. -/
def atClk (k : Nat) (f : State → State) (s : State) : State :=
  { f (toClk k s) with ring := s.ring, ran := s.ran, clock := s.clock }

/-- Take one cell at each clock of a list; the second part says whether all were given. -/
def allocCells (g p : Nat) : List Nat → State → List Nat × Bool × State
  | [], s => ([], true, s)
  | k :: ks, s =>
    match allocCell g p (toClk k s) with
    | none => ([], false, s)
    | some (x, t) =>
      let (l, ok, s) := allocCells g p ks { t with ring := s.ring, ran := s.ran, clock := s.clock }
      (x :: l, ok, s)

/-- The check that a released pointer fails (R304): its cell index lies outside the pool's segments, or it was found bad. -/
def freeFault (s : State) (p x : Nat) : Option Nat :=
  if x < poolBase s p ∨ poolBase s p + poolCap s p ≤ x then some 0 else ptrFault s x

/-- Return one cell to its group's cache (R302); a cache above 448 entries gives 256 back to the ring, each pointer checked
(R304). -/
def freeCell (g p x : Nat) (s : State) : State :=
  let s := match freeFault s p x with
    | some k => leakCell p k x s
    | none =>
      let c := cacheOf s g p ++ [x]
      if 448 < c.length then
        let s := leakBad p (c.take 256) (setCache g p c s)
        let gone := (c.take 256).filter (fun x => !s.buf.leaked.contains x)
        modPool p (fun q => { q with free := q.free ++ gone })
          (setCache g p ((cacheOf s g p).drop gone.length) s)
      else setCache g p c s
  poolEval p (modPool p (fun q => { q with occ := q.occ - 1 }) s)

/-- Charge cells of a pool to their owner, the ingress port and priority (R303, R318). -/
def ownerAdd (pool p prio : Nat) (n : Nat) (s : State) : State :=
  { s with buf := { s.buf with ownerOcc := tmod 0 s.buf.ownerOcc (k3 pool p prio) (· + n) } }
/-- Take cells off their owner. -/
def ownerSub (pool p prio : Nat) (n : Nat) (s : State) : State :=
  { s with buf := { s.buf with ownerOcc := tmod 0 s.buf.ownerOcc (k3 pool p prio) (· - n) } }

/-! ## Frame records (R274, R291, R301) -/

/-- The frame record with a serial number. -/
def frameOf (s : State) (n : Nat) : Option Frame := s.lnd.frames.find? (fun f => f.serial == n)

/-- Replace the frame record with a serial number. -/
def modFrame (n : Nat) (f : Frame → Frame) (s : State) : State :=
  { s with lnd := { s.lnd with frames := s.lnd.frames.map (fun x => if x.serial = n then f x else x) } }

/-- The frame record by which a copy's cells are held: its frame's, or its own once it was restored (R274, R313). -/
def copyRec (c : Copy) : Nat := if c.rcd = 0 then c.fi.serial else c.rcd - 1

/-- A frame record that no copy counts against, whose copies are settled and whose cells are released, is gone (R274). -/
def reapFrame (n : Nat) (s : State) : State :=
  { s with lnd := { s.lnd with frames := s.lnd.frames.filter (fun f =>
      f.serial != n || f.unsettled != 0 || f.onDie != 0 || f.cells.any (fun c => c.2 != 0)) } }

/-- Take one holder off the listed cells of a frame; cells without a holder return to their pool, or to their group's staging
area (R301, R313). -/
def dropHolders (n : Nat) (p : Nat → Bool) (s : State) : State :=
  match frameOf s n with
  | none => s
  | some f =>
    let cells := f.cells.mapIdx (fun i c => if p i then (c.1, c.2 - 1) else c)
    let s := modFrame n (fun f => { f with cells := cells }) s
    let gone := ((f.cells.zip cells).filter (fun e => e.1.2 != 0 && e.2.2 == 0)).map (fun e => e.1.1)
    let s := if f.staging then
        { s with buf := { s.buf with staging := tmod [] s.buf.staging (k1 f.group) (·.filter (fun x => !gone.contains x)) } }
      else ownerSub f.pool f.port f.prio gone.length (foldS gone (fun x => freeCell f.group f.pool x) s)
    reapFrame n s

/-- A finding of the 144 code on a cell of the buffer (R298): kind 0 corrected, 1 uncorrectable at ingress, 2 at kerf
dispatch, 3 in transmission. -/
def cbFinding (cell kind : Nat) (s : State) : State :=
  progEvt 0x43 0x03 255 0 1 <| note 0x43 0x0B01 255 [cell, kind]
    (cnt (match kind with | 0 => .cbCorr | 3 => .cbUncorrTx | _ => .cbUncorr) 0 0 1 s)

/-- The number of cells of a copy (R277). -/
def copyCells (c : Copy) : Nat := (stLength c.fi.stamp + 255) / 256

/-- A copy stops counting against its frame record (R274). -/
def leaveRec (c : Copy) (s : State) : State :=
  reapFrame (copyRec c) (modFrame (copyRec c) (fun f => { f with onDie := f.onDie - 1 }) s)

/-- A copy ends: it leaves its kerf engine, or it is discarded before (R151, R291). `lost` says that the discard is one
that R291 names. When the last copy of the frame ends, the frame is settled. -/
def settleFrame (c : Copy) (lost : Bool) (s : State) : State :=
  let s := { s with cut := { s.cut with cuts := s.cut.cuts.map (fun x =>
    if x.handle = stHandle c.fi.stamp then { x with live := x.live - 1 } else x) } }
  match frameOf s c.fi.serial with
  | none => s
  | some f =>
    let inc := f.incomplete || lost
    let s := modFrame c.fi.serial (fun f => { f with unsettled := f.unsettled - 1, incomplete := inc }) s
    reapFrame c.fi.serial (match f.pset with
    | some p => if inc && f.unsettled == 1 then cnt .lndPsetIncomplete f.cid p 1 s else s
    | none => s)

/-- A copy on die ends. -/
def settle (c : Copy) (lost : Bool) (s : State) : State := leaveRec c (settleFrame c lost s)

/-! ## Egress credits (R278, R336) -/

/-- The port slot of a port within its group (R278). -/
def portSlot (s : State) (p : Nat) : Nat :=
  let cage := portCage s p
  let lane := fld (port s p).cfg 8 6
  if cage < 48 then 2 * (cage % 4) + lane else lane

/-- Credits in use in an allowance. -/
def creditUsed (s : State) (g slot cls : Nat) : Nat := tget 0 s.lnd.credit (k3 g slot cls)

/-- The occupancy of a compartment on a port in its ungated classes 0 to 5 (R336). -/
def shareOcc (s : State) (cid p : Nat) : Nat :=
  ((List.range 6).map (fun c => if gated s p c then 0 else tget 0 s.lnd.occ (k3 cid p c))).foldl (· + ·) 0

/-- `SHARE` of a compartment on a port; the values of R335 where none is written. -/
def shareOf (s : State) (cid p : Nat) : BitVec 32 := (tget none s.sch.share (k2 cid p)).getD 0x180010#32

/-- The credits of R278 suffice for the copy. -/
def creditOk (s : State) (c : Copy) : Bool :=
  decide (creditUsed s (portGroup s c.port) (portSlot s c.port) c.cls + copyCells c ≤ 64)

/-- The share limit of R336 admits the copy. -/
def shareOk (s : State) (c : Copy) : Bool :=
  decide (5 < c.cls) || gated s c.port c.cls ||
    decide (shareOcc s (stCid c.fi.stamp) c.port + copyCells c ≤ fld (shareOf s (stCid c.fi.stamp) c.port) 20 12)

/-- Take the credits of a copy at the grant of its first cell; the copy keeps the allowance it took them from. -/
def takeCredits (c : Copy) (s : State) : Copy × State :=
  let g := portGroup s c.port
  let sl := portSlot s c.port
  let n := copyCells c
  ({ c with egr := g, slot := sl, downs := (port s c.port).downs },
   { s with lnd := { s.lnd with credit := tmod 0 s.lnd.credit (k3 g sl c.cls) (· + n),
                                occ := tmod 0 s.lnd.occ (k3 (stCid c.fi.stamp) c.port c.cls) (· + n) } })

/-- Return `n` credits of a copy: so many of its cells were transmitted or discarded (R278). -/
def returnSome (n : Nat) (c : Copy) (s : State) : State :=
  { s with lnd := { s.lnd with credit := tmod 0 s.lnd.credit (k3 c.egr c.slot c.cls) (· - n),
                               occ := tmod 0 s.lnd.occ (k3 (stCid c.fi.stamp) c.port c.cls) (· - n) } }

/-- Return all credits of a copy. -/
def returnCredits (c : Copy) (s : State) : State := returnSome (copyCells c) c s

/-! ## Discards -/

/-- The blaze record of a discard (R535, stage 11). -/
def blazeDrop (c : Copy) (cause unit side pipe : Nat) (s : State) : State :=
  blaze c.fi.stamp c.fi.pos 11 c.port c.cls unit cause side pipe s

/-- Discard what a copy still has at ingress from its cell `from_` on: those cells lose a holder (R301). -/
def dropIngress (c : Copy) (from_ : Nat) (s : State) : State := dropHolders (copyRec c) (fun i => decide (from_ ≤ i)) s

/-- Discard a queued copy under a counter: counted, blazed, its cells released and its holds ended. `lost` says that the
discard is one that R291 names. -/
def discardWaiting (lost : Bool) (ctr : Ctr) (i j cause : Nat) (c : Copy) (s : State) : State :=
  settle c lost (dropIngress c 0 (blazeDrop c cause (uIngress (stPipe c.fi.stamp)) 0 (stPipe c.fi.stamp)
    (cnt ctr i j 1 s)))

/-- Discard a queued copy under a rule that R291 names (R275, R276, R290). -/
def discardQueued (ctr : Ctr) (i j cause : Nat) (c : Copy) (s : State) : State := discardWaiting true ctr i j cause c s

/-- Discard a copy that has crossed and not left its kerf engine: its credits return (R278, R288). -/
def discardCrossed (ctr : Ctr) (i j cause : Nat) (lost : Bool) (c : Copy) (s : State) : State :=
  settle c lost (returnCredits c (blazeDrop c cause (uEgress (c.egr / 2)) 1 (c.egr / 2) (cnt ctr i j 1 s)))

/-- Discard a copy that has left its kerf engine: its credits return. -/
def discardDone (ctr : Ctr) (i j cause : Nat) (c : Copy) (s : State) : State :=
  returnCredits c (blazeDrop c cause (uEgress (c.egr / 2)) 1 (c.egr / 2) (cnt ctr i j 1 s))

/-- Discard a copy in transmission (R80): the credits that it still holds return. -/
def discardTx (ctr : Ctr) (i j cause : Nat) (x : TxFrame) (s : State) : State :=
  returnSome (copyCells x.copy - x.out) x.copy
    (blazeDrop x.copy cause (uEgress (x.copy.egr / 2)) 1 (x.copy.egr / 2) (cnt ctr i j 1 s))

/-! ## VOQs (R273, R310 to R315) -/

/-- A VOQ: (ingress group, egress port, class). -/
def voqOf (s : State) (k : Key) : Voq := tget {} s.lnd.voq k
/-- Replace a VOQ. -/
def setVoq (k : Key) (v : Voq) (s : State) : State :=
  { s with lnd := { s.lnd with voq := tput {} s.lnd.voq k v } }

/-! ### Pages and the requests of VOQs (R343, R347, R353) -/

/-- Channel, rank, bank and row of a page (R343). -/
def pageCh (s : State) (p : Nat) : Nat := p % nChannels s.variant
def pageRank (s : State) (p : Nat) : Nat := p / (nChannels s.variant * 1048576) % 2
def pageBank (s : State) (p : Nat) : Nat := p / nChannels s.variant % 32
def pageRow (s : State) (p : Nat) : Nat := p / (nChannels s.variant * 32) % 32768

/-- The record of a rank. -/
def rankOf (s : State) (ch r : Nat) : Rank := tget {} s.dram.rank (k2 ch r)
/-- Change the record of a rank. -/
def modRank (ch r : Nat) (f : Rank → Rank) (s : State) : State :=
  { s with dram := { s.dram with rank := tmod {} s.dram.rank (k2 ch r) f } }

/-- Return a page to the pool (R353); a page of a fenced channel joins it at the lift (R359). -/
def freePage (p : Nat) (s : State) : State :=
  let s := { s with dram := { s.dram with head := tput {} s.dram.head (k1 p) {} } }
  if isFenced s (uChannel (pageCh s p)) then s
  else modRank (pageCh s p) (pageRank s p) (fun x => { x with free := x.free ++ [p] }) s

/-- Return a list of pages. -/
def freePages (l : List (Nat × Nat)) (s : State) : State := foldS l (fun e => freePage e.1) s

/-- A request of this VOQ and class still stands. -/
def reqsOf (s : State) (cls : Nat) (k : Key) : Bool := s.dram.reqs.any (fun r => r.cls == cls && r.voq == k)

/-- Nothing of the VOQ is in DRAM and no write of it is outstanding (R314). -/
def voqLanded (s : State) (k : Key) : Bool :=
  let v := voqOf s k
  v.spilling && v.dram.isEmpty && v.writing.isNone && !reqsOf s 1 k

/-- A VOQ becomes DIRECT: its tail joins its head, and what pages it still has return to the pool (R314). -/
def toDirect (k : Key) (s : State) : State :=
  let v := voqOf s k
  if voqLanded s k then
    setVoq k { v with spilling := false, head := v.head ++ v.tail, tail := [], pages := [], wr := 0, rd := 0, part := 0,
                      hdrBad := false } (freePages v.pages s)
  else s

/-- A SPILLING VOQ with nothing in DRAM and nothing to write is DIRECT (R314). -/
def voqNorm (k : Key) (s : State) : State := if (voqOf s k).tail.isEmpty then toDirect k s else s

/-- A partly written copy leaves the tail: the slots sent for it are taken back (R314). -/
def voqUnsend (pc : Copy → Bool) (v : Voq) : Voq :=
  if (v.tail.head?.map pc).getD false then { v with wr := v.wr - v.part, part := 0 } else v

/-- Remove from the on-die parts of every VOQ whose key satisfies `pk` the copies that satisfy `pc`, discarding each
by `drop`. A copy whose slots are being written leaves its slots to be passed. -/
def removeVoqs (pk : Key → Bool) (pc : Copy → Bool) (drop : Copy → State → State) (s : State) : State :=
  foldS (s.lnd.voq.filter (fun e => pk e.1)) (fun e s =>
    let v := voqOf s e.1
    let gone := (v.head ++ (v.writing.filter (fun c => !c.doomed)).toList ++ v.tail).filter pc
    let v := voqUnsend pc v
    let v := { v with head := v.head.filter (fun c => !pc c), tail := v.tail.filter (fun c => !pc c),
                      writing := v.writing.map (fun c => if pc c then { c with doomed := true } else c) }
    foldS gone drop (voqNorm e.1 (setVoq e.1 v s))) s

/-- Settle the copies of the DRAM portions that satisfy `pc` and leave their slots to be passed (R315). -/
def doomVoqs (pk : Key → Bool) (pc : Copy → Bool) (drop : Copy → State → State) (s : State) : State :=
  foldS (s.lnd.voq.filter (fun e => pk e.1)) (fun e s =>
    let v := voqOf s e.1
    let gone := v.dram.filter (fun c => pc c && !c.doomed)
    foldS gone drop (setVoq e.1 { v with dram := v.dram.map (fun c => if pc c then { c with doomed := true } else c) } s)) s

/-- Discard a copy whose cells are in DRAM: it holds no cell on die. -/
def discardSpilled (ctr : Ctr) (i j cause : Nat) (lost : Bool) (c : Copy) (s : State) : State :=
  settleFrame c lost (blazeDrop c cause 0x44 0 (stPipe c.fi.stamp) (cnt ctr i j 1 s))

/-- Close the idle span that a gate alone caused (R339). -/
def guardEnd (p t : Nat) (s : State) : State :=
  let g := tget 0 s.sch.guard (k1 p)
  if g = 0 then s
  else cnt .schedGuardIdle p 0 (t - (g - 1)) { s with sch := { s.sch with guard := tput 0 s.sch.guard (k1 p) 0 } }

/-- A port with no copy at its scheduler idles for no gate (R339). -/
def guardEmpty (s : State) : State :=
  foldS (s.sch.guard.filter (fun g => s.sch.queue.all (fun e => e.1.1 != g.1.1 || e.2.isEmpty)))
    (fun g s => guardEnd g.1.1 (nowClk s) s) s

/-- Remove from the scheduler queues the copies that satisfy `pc` (R322, R441, R445). -/
def removeSched (pk : Key → Bool) (pc : Copy → Bool) (drop : Copy → State → State) (s : State) : State :=
  guardEmpty <| foldS (s.sch.queue.filter (fun e => pk e.1)) (fun e s =>
    let l := tget [] s.sch.queue e.1
    let gone := (l.filter (fun d => pc d.copy)).map Done.copy
    foldS gone drop { s with sch := { s.sch with queue := tput [] s.sch.queue e.1 (l.filter (fun d => !pc d.copy)) } }) s

/-- The rotation of a copy's stamp is not its compartment's current rotation (R28). -/
def stale (s : State) (c : Copy) : Bool := stRotation c.fi.stamp != (cmpOf s (stCid c.fi.stamp)).rotation.toNat

/-- The cell buffer is empty of frames and no VOQ holds a DRAM portion (R50, R300, R506): no pool cell, no readback staging cell
and no egress reception cell, which is a credit in use, is held (R297). -/
def quiet (s : State) : Bool :=
  s.lnd.frames.all (fun f => f.cells.all (fun c => c.2 == 0)) && s.lnd.credit.all (fun e => e.2 == 0) &&
    s.buf.staging.all (fun e => e.2.isEmpty) && s.lnd.voq.all (fun e => e.2.dram.isEmpty)

end Sys2Proof.Machine
end

