-- ==== Sys2Proof/Machine/Mac.lean ====
section
/-!
DEFINITION. The MACs: the time that bytes take on a port, the gates as they stand at a clock (R323 to R328), frame preemption
(R86, R88), the credits of cells that have been transmitted (R278), and the timestamps of PTP (R91, R92).
-/
namespace Sys2Proof.Machine

/-! ## Bytes and clocks -/

/-- The speed of a port in Gb/s (R74). -/
def speedGb (s : State) (p : Nat) : Nat :=
  match portSpeed s p with | 1 => 10 | 2 => 25 | 3 => 50 | 4 => 100 | 5 => 200 | 6 => 400 | 7 => 100 | _ => 100

/-- Division rounded up. -/
def ceilDiv (a b : Nat) : Nat := (a + b - 1) / b

/-- Core clocks that bytes occupy on a port, rounded up. -/
def wireClocks (s : State) (p bytes : Nat) : Nat := ceilDiv (bytes * 128) (10 * speedGb s p)

/-- Whole bytes that a port sends in some core clocks. -/
def bytesIn (s : State) (p clocks : Nat) : Nat := clocks * 10 * speedGb s p / 128

/-! ## Gates -/

/-- Fields of a bank's header (R323) and of an entry (R324). -/
def bankCycle (b : Bank) : Nat := max 1 (fld b.hdr 26 16)
def bankPhase (b : Bank) : Nat := fld b.hdr 36 27
def bankGated (b : Bank) : Nat := fld b.hdr 44 37
def entStart (e : BitVec 32) : Nat := fld e 9 0 * 64 + fld e 15 10
def entOpen (e : BitVec 32) : Nat := fld e 23 16

/-- The ring of an accepted switch of the port's bank. -/
def switchRing (s : State) (p : Nat) : Option Nat :=
  (s.items.find? (fun i => i.op == .gateSwitch && i.req.a1 5 0 == p)).map Item.due

/-- The number on the grid of a ring of the run, the present one or a later one. -/
def ringAt (s : State) (r : Nat) : Nat := s.ring + (r - s.ran)

/-- The bank in force in the ring `r` of the run, the present one or a later one: an accepted switch is known in advance (R328), and
one that a setting of the grid has passed over comes with the next boundary (R53). -/
def bankIn (s : State) (p r : Nat) : Bank :=
  match switchRing s p with
  | some t => if t ≤ ringAt s r && (s.ran < r || !s.tim.stepped) then bankOf s p (1 - activeBank s p) else bankOf s p (activeBank s p)
  | none => bankOf s p (activeBank s p)

/-- The open mask at notch `n` of the cycle (R324): that of the last entry that has started. -/
def openAt (b : Bank) (n : Nat) : Nat :=
  b.ents.foldl (fun m e => if entStart e ≤ n then entOpen e else m) 0

/-- The place in the cycle of notch `n` of the ring numbered `r` (R323). -/
def cyclePos (b : Bank) (r n : Nat) : Nat :=
  let c := bankCycle b
  (r + (c - bankPhase b % c)) % c * 64 + n

/-- The gate of class `c` is open in notch `n` of the run, in the present ring or a later one: a ring has its number on the grid. -/
def gateOpen (s : State) (p c n : Nat) : Bool :=
  let b := bankIn s p (n / 64)
  (openAt b (cyclePos b (ringAt s (n / 64)) (n % 64))).testBit c

/-- The gate of class `c` is open at every clock from `t` to `t + w − 1`. -/
def gateOpenFor (s : State) (p c t w : Nat) : Bool :=
  let a := t / 25
  let z := (t + w - 1) / 25
  (List.range (z + 1 - a)).all (fun d => gateOpen s p c (a + d))

/-- The first notch of `fuel` from `n` on that satisfies a test. -/
def firstNotch (f : Nat → Bool) : Nat → Nat → Option Nat
  | 0, _ => none
  | fuel + 1, n => if f n then some n else firstNotch f fuel (n + 1)

/-! ## A frame in transmission (R88, R328) -/

/-- The least bytes of a fragment that is not a frame's last (R88). -/
def minFrag (s : State) (p : Nat) : Nat := 64 * (fld (port s p).cfg 47 46 + 1)

/-- The byte of the fragment begun at clock `b` at which a preemption asked for at clock `g` cuts it (R88): its next byte, but no
fragment is shorter than the least. -/
def cutAt (s : State) (p b g : Nat) : Nat := max (minFrag s p) (bytesIn s p (g - b))

/-- The first notch from clock `b` on, but not before the present ring, in which the gate of a class is closed, within `w` clocks of
`b`: what earlier rings' gates have cut is noted in the transmission. -/
def shutNotch (s : State) (p c b w : Nat) : Option Nat :=
  let a := max (b / 25) (64 * s.ran)
  firstNotch (fun n => !gateOpen s p c n) ((b + w - 1) / 25 + 1 - a) a

/-- The bytes of the fragment begun at clock `b`, and whether it is the frame's last: a preemptable frame is cut where a waiting
express frame or the closing of its gate has it cut (R328), unless fewer than 64 bytes would be left (log entry 91). -/
def fragLen (s : State) (p b : Nat) (x : TxFrame) : Nat × Bool :=
  let rem := x.len - x.sent
  if !x.preempt then (rem, true)
  else
    let shut := (shutNotch s p x.copy.cls b (wireClocks s p rem)).map (fun n => cutAt s p b (25 * n))
    let n := (x.cut.toList ++ shut.toList).foldl min rem
    if n + 64 ≤ rem then (n, false) else (rem, true)

/-- A frame in transmission as it stands at clock `t` (R88, R328): a fragment takes its bytes with preamble, gap and, but for the
last, mCRC; the rest goes on when the gate is open and the port free of express frames. -/
def txAdvance (s : State) (p t : Nat) : Nat → TxFrame → TxFrame
  | 0, x => x
  | fuel + 1, x =>
    if x.done.isSome then x
    else
      match x.frag with
      | some b =>
        let (n, fin) := fragLen s p b x
        let e := b + wireClocks s p (n + if fin then 20 else 24)
        if t < e then x
        else if fin then { x with done := some e, frag := none, cut := none, sent := x.len }
        else txAdvance s p t fuel { x with sent := x.sent + n, frag := none, cut := none, from_ := e }
      | none =>
        match firstNotch (gateOpen s p x.copy.cls) (t / 25 + 1 - x.from_ / 25) (x.from_ / 25) with
        | some n =>
          if max x.from_ (25 * n) ≤ t then txAdvance s p t fuel { x with frag := some (max x.from_ (25 * n)) } else x
        | none => x

/-- Bytes of a frame that have been sent by clock `t`. -/
def bytesOut (s : State) (p t : Nat) (x : TxFrame) : Nat :=
  if x.done.isSome then x.len
  else x.sent + match x.frag with | some b => min (bytesIn s p (t - b)) (fragLen s p b x).1 | none => 0

/-- Cells of a frame that have been transmitted by clock `t` (R278): cell k with byte 256 (k + 1) of the frame as it is sent, the
last with the frame's last byte (log entry 81). -/
def cellsOut (s : State) (p t : Nat) (x : TxFrame) : Nat :=
  let b := bytesOut s p t x
  if x.len ≤ b then copyCells x.copy else min (b / 256) (copyCells x.copy - 1)

/-- The transmissions of a port brought to clock `t`. -/
def macAdvance (p t : Nat) (s : State) : State :=
  { s with sch := { s.sch with tx := tmod [] s.sch.tx (k1 p) (fun l => l.map (txAdvance s p t 512)) } }

/-- The cells that the MACs have fully transmitted by clock `t` return their credits (R278). -/
def cellCredits (t : Nat) (s : State) : State :=
  foldS (s.sch.tx.map (fun e => e.1.1)) (fun p s =>
    let s := macAdvance p t s
    let l := tget [] s.sch.tx (k1 p)
    let s := foldS l (fun x s => returnSome (cellsOut s p t x - x.out) x.copy s) s
    { s with sch := { s.sch with tx := tput [] s.sch.tx (k1 p) (l.map (fun x => { x with out := max x.out (cellsOut s p t x) })) } }) s

/-- What the gates of a ring have done to a transmission is noted at the ring's end: where they cut the fragment in progress, and
that a rest which waits goes on in the next ring at the earliest. -/
def txNote (s : State) (p : Nat) (x : TxFrame) : TxFrame :=
  let z := clkOf s 1600
  if x.done.isSome then x
  else
    match x.frag with
    | none => { x with from_ := max x.from_ z }
    | some b =>
      if z ≤ b then { x with frag := none, cut := none, from_ := z }
      else if !x.preempt then x
      else
        let shut := (shutNotch s p x.copy.cls b (z - b)).map (fun n => cutAt s p b (25 * n))
        { x with cut := match x.cut, shut with | some a, some n => some (min a n) | some a, none => some a | none, n => n }

/-- Every transmission is noted at the end of a ring. -/
def txRingEnd (s : State) : State :=
  { s with sch := { s.sch with tx := s.sch.tx.map (fun e => (e.1, e.2.map (txNote s e.1.1))) } }

/-! ## PTP timestamps (R91, R92) -/

/-- The first lane of a port, over the module (R7, R574). -/
def portLane (s : State) (p : Nat) : Nat :=
  (if portCage s p < 48 then 2 * portCage s p else 96 + 8 * (portCage s p - 48)) + fld (port s p).cfg 8 6

/-- Receive (0) and transmit (1) delay of a lane's PHY and FEC, and its MACsec delay (2), in 1/64 ns (log entry 85). -/
def laneDelay (s : State) (lane which : Nat) : Int := calInt s (0x1140 + 16 * lane + 4 * which) 4

/-- `ASYM` of a port, in 0.5 ns: delayAsymmetry (R91). -/
def portAsym (s : State) (p : Nat) : Int := (BitVec.ofNat 16 (fld (port s p).cfg 127 112)).toInt

/-- Grid time at a clock of a ring, in 1/64 ns. -/
def gridFine (ring clk : Nat) : Int := 64000 * (ring : Int) + 40 * (clk : Int)

/-- The ingress timestamp of a frame of `n` bytes whose last byte the MAC of port `p` sees at the present clock (R23, R91): its
first byte at the cage, in 0.5 ns. The lane's receive delay is subtracted, and where link security looks at the frame, the lane's
MACsec delay from the clock at which it hands the frame on (log entry 28). -/
def ingressStamp (s : State) (p n : Nat) (secure : Bool) : Int :=
  let at_ := if secure then gridFine s.ring (s.clock + 40) - laneDelay s (portLane s p) 2 else gridFine s.ring s.clock
  (at_ - laneDelay s (portLane s p) 0 - (n * 512 / speedGb s p : Nat)) / 32

/-- The egress timestamp predicted for a copy whose first byte reaches the MAC of port `p` so many clocks from now (R31, R92), with the
lane's transmit delay added, and its MACsec delay for a copy that is protected (R91), in 0.5 ns (log entry 28). -/
def egressStamp (s : State) (p ahead : Nat) (secured : Bool) : Int :=
  (gridFine s.ring (s.clock + ahead) + laneDelay s (portLane s p) 1 +
    if secured then laneDelay s (portLane s p) 2 else 0) / 32

end Sys2Proof.Machine
end

