-- ==== Sys2Proof/Machine/Landing.lean ====
section
/-!
DEFINITION. The Landing (R273 to R296): enqueue, requests and matching, crossing and resequencing, the copy hold
limit, and the fences of planes and port groups.
-/
namespace Sys2Proof.Machine

/-! ## Enqueue (R273, R275, R311) -/

/-- Copy descriptors in use (R274): one for each enqueued copy that counts against a frame record. -/
def descUsed (s : State) : Nat :=
  (s.lnd.frames.map Frame.onDie).foldl (· + ·) 0 - (s.lnd.pipe.map (fun e => e.copies.length)).foldl (· + ·) 0

/-- Cells of a list of copies. -/
def cellsOf (l : List Copy) : Nat := (l.map copyCells).foldl (· + ·) 0

/-- A path: (ingress group, egress group). -/
def pathOf (s : State) (i j : Nat) : Path := tget {} s.lnd.path (k2 i j)
/-- Replace a path. -/
def setPath (i j : Nat) (p : Path) (s : State) : State :=
  { s with lnd := { s.lnd with path := tput {} s.lnd.path (k2 i j) p } }

/-- Cells still to be sent of the copies granted from a VOQ (R311). -/
def grantedLeft (s : State) (k : Key) : Nat :=
  let p := pathOf s k.1 (portGroup s k.2.1)
  let mine (c : Copy) : Bool := c.port == k.2.1 && c.cls == k.2.2
  (match p.cur with | some (c, n) => if mine c then copyCells c - n else 0 | none => 0) +
    (match p.nxt with | some c => if mine c then copyCells c else 0 | none => 0)

/-- The VOQ latches spill for this copy (R311, R326). -/
def latches (s : State) (k : Key) (v : Voq) (c : Copy) : Bool :=
  let pool := (frameOf s c.fi.serial).map Frame.pool |>.getD 0
  let cfg := (poolOf s pool).cfg
  s.variant != .e && bit cfg 96 && !gated s k.2.1 k.2.2 &&
    !(switchPending s k.2.1 && (fld (bankOf s k.2.1 (1 - activeBank s k.2.1)).hdr 44 37).testBit k.2.2) &&
    decide (v.pages.length ≤ fld s.buf.spill 48 25) &&
    decide (fld cfg 95 80 ≤ cellsOf v.head + grantedLeft s k + copyCells c)

/-- Put a copy in its VOQ (R273, R310, R311). -/
def voqPush (c : Copy) (s : State) : State :=
  let k : Key := k3 c.ing c.port c.cls
  let v := voqOf s k
  let s := blaze c.fi.stamp c.fi.pos 4 c.port c.cls (uIngress (stPipe c.fi.stamp))
    (cellsOf v.head + cellsOf v.tail) 0 (stPipe c.fi.stamp) s
  if v.spilling then setVoq k { v with tail := v.tail ++ [c] } s
  else if latches s k v c then setVoq k { v with spilling := true, tail := v.tail ++ [c] } s
  else setVoq k { v with head := v.head ++ [c] } s

/-- Enqueue one copy, or discard it under the first row of R275 that holds. -/
def enqueueOne (c : Copy) (s : State) : State :=
  let cid := stCid c.fi.stamp
  if !(port s c.port).up then discardQueued .txDownDiscard c.port 0 3 c s
  else if groupFenced s (portGroup s c.port) then discardQueued .lndFencedPort cid 0 4 c s
  else if (cmpOf s cid).frozen || s.md.mode == .frozen || s.md.mode == .staged then
    discardQueued .lndFrozenDiscard cid 0 2 c s
  else if stale s c then discardQueued .cmpStaleFrames cid 0 1 c s
  else if 1048576 < descUsed s then discardQueued .lndDescFull cid 0 10 c s
  else voqPush c s

/-- The frames whose enqueue falls at or before a clock are enqueued, each at its own clock (R31, R273): the cut gains a
hold for every copy but the first (R151). -/
def drainPipe (limit : Nat) (s : State) : State :=
  let due := sortBy (fun a b => decide (a.at_ < b.at_)) (s.lnd.pipe.filter (fun e => decide (e.at_ ≤ limit)))
  foldS due (fun e s => atClk e.at_ (fun s =>
    let h := (e.copies.head?.map (fun c => stHandle c.fi.stamp)).getD 0
    let s := { s with cut := { s.cut with cuts := s.cut.cuts.map (fun x =>
      if x.handle = h then { x with live := x.live + (e.copies.length - 1) } else x) } }
    let s := foldS e.copies (fun c s => enqueueOne { c with q := s.ran, qRing := s.ring } { s with lnd := { s.lnd with
      pipe := s.lnd.pipe.map (fun x => { x with copies := x.copies.filter (· ≠ c) }) } }) s
    { s with lnd := { s.lnd with pipe := s.lnd.pipe.filter (fun x => !x.copies.isEmpty) } }) s) s

/-! ## Requests and matching (R279 to R284) -/

/-- The class is served on the path's port by a VOQ head that R280 admits. -/
def eligible (s : State) (c : Copy) : Bool := creditOk s c && shareOk s c && !stale s c

/-- The slot pointer of a path (R280). -/
def slotPtrOf (s : State) (i j : Nat) : Nat :=
  let p := (pathOf s i j).slotPtr
  if p = 0 then (i + s.ring) % 8 else p - 1

/-- The next copy of a path under R280: highest class first, then port slots upward from the slot pointer. -/
def nextCopy (s : State) (i j : Nat) : Option (Key × Copy) :=
  let ps := groupPorts s j
  let start := slotPtrOf s i j
  let order : List (Nat × Nat) :=
    [7, 6, 5, 4, 3, 2, 1, 0].flatMap (fun c => (List.range 8).map (fun d => (c, (start + d) % 8)))
  order.findSome? (fun cs =>
    match ps.find? (fun p => portSlot s p == cs.2) with
    | none => none
    | some p =>
      match (voqOf s (k3 i p cs.1)).head with
      | [] => none
      | c :: _ => if eligible s c then some (k3 i p cs.1, c) else none)

/-- The group pairs that may have something to send. -/
def livePaths (s : State) : List (Nat × Nat) :=
  (s.lnd.path.filterMap (fun e => if e.2.cur.isSome || e.2.nxt.isSome then some (e.1.1, e.1.2.1) else none) ++
   s.lnd.voq.filterMap (fun e => if e.2.head.isEmpty then none else some (e.1.1, portGroup s e.1.2.1))).eraseDups

/-- Cells of a path ready at the slot's start (R281). -/
def readyCells (s : State) (i j : Nat) : Nat :=
  let p := pathOf s i j
  (match p.cur with | some (c, n) => copyCells c - n | none => 0) +
    (match p.nxt with
     | some c => copyCells c
     | none => match nextCopy s i j with | some (_, c) => copyCells c | none => 0)

/-- The requests of a plane (R281, R292, R293). -/
def requestsOf (s : State) (plane : Nat) : List (Nat × Nat) :=
  if isFenced s (uPlane plane) then []
  else (livePaths s).filter (fun ij =>
    !groupFenced s ij.1 && !groupFenced s ij.2 &&
      (let r := readyCells s ij.1 ij.2
       let only := isFenced s (uPlane (1 - plane))
       decide (2 ≤ r) || (r == 1 && (only || (pathOf s ij.1 ij.2).seq % 2 == plane))))

/-- A matcher pointer: as it moved in this ring, else as R284 sets it at the boundary. -/
def ptrOf (s : State) (plane kind g : Nat) : Nat :=
  let p := tget 0 s.lnd.ptr (k3 plane kind g)
  if p = 0 then (g + s.ring + 8 * plane) % 16 else p - 1

/-- The first group at or after `start`, in circular order, that satisfies `p`. -/
def firstFrom (p : Nat → Bool) (start : Nat) : Option Nat :=
  ((List.range 16).map (fun d => (start + d) % 16)).find? p

/-- One iteration of a matcher (R282): every unmatched egress group grants, every ingress group accepts. -/
def matchIter (s : State) (plane : Nat) (req m : List (Nat × Nat)) : List (Nat × Nat) :=
  let free := req.filter (fun r => m.all (fun x => x.1 != r.1 && x.2 != r.2))
  let grants := (List.range 16).filterMap (fun j =>
    (firstFrom (fun i => free.contains (i, j)) (ptrOf s plane 0 j)).map (fun i => (i, j)))
  (List.range 16).filterMap (fun i =>
    (firstFrom (fun j => grants.contains (i, j)) (ptrOf s plane 1 i)).map (fun j => (i, j)))

/-- Three iterations; the pointers move on the accepts of the first (R282). -/
def matchPlane (plane : Nat) (req : List (Nat × Nat)) (s : State) : List (Nat × Nat) × State :=
  let m1 := matchIter s plane req []
  let s' := foldS m1 (fun ij s => { s with lnd := { s.lnd with
      ptr := tput 0 (tput 0 s.lnd.ptr (k3 plane 0 ij.2) ((ij.1 + 1) % 16 + 1)) (k3 plane 1 ij.1) ((ij.2 + 1) % 16 + 1) } }) s
  let m2 := m1 ++ matchIter s' plane req m1
  (m2 ++ matchIter s' plane req m2, s')

/-- Grant a cell of a path: when nothing of it is left to send, the next copy is chosen and takes its credits (R278,
R280). `taken` cells of the path are already granted in this slot. -/
def grantCell (taken : Nat) (ij : Nat × Nat) (s : State) : State :=
  let p := pathOf s ij.1 ij.2
  let left := (match p.cur with | some (c, n) => copyCells c - n | none => 0) +
    (match p.nxt with | some c => copyCells c | none => 0)
  if taken < left || p.nxt.isSome then s
  else
    match nextCopy s ij.1 ij.2 with
    | none => s
    | some (k, c) =>
      let v := voqOf s k
      let (c, s) := takeCredits c s
      setPath ij.1 ij.2 { p with nxt := some c, slotPtr := (c.slot + 1) % 8 + 1 }
        (setVoq k { v with head := v.head.drop 1 } s)

/-- Cells read with an error: the cell's index, and whether the error is uncorrectable (R298). -/
abbrev CellErrs := List (Fin 655360 × Bool)

/-- The errors that reading cell `n` of a copy at ingress meets, one for each 128-bit word that is bad. -/
def cellErr (s : State) (c : Copy) (n : Nat) (errs : CellErrs) : CellErrs :=
  match (frameOf s (copyRec c)).bind (fun f => f.cells[n]?) with
  | some x => errs.filter (fun e => e.1.val == x.1)
  | none => []

/-- Report the errors that the reading of a cell for a crossing or a spill write met, and mark the copy (R298). -/
def markCell (l : CellErrs) (c : Copy) (s : State) : Copy × State :=
  ({ c with bad := c.bad || l.any Prod.snd }, foldS l (fun e => cbFinding e.1.val (if e.2 then 1 else 0)) s)

/-- The descriptor of a copy in the copy descriptor store (R274): which index the store gives is open. -/
def copyDesc (c : Copy) : Nat := (Config.descIndex (copyRec c) c.ord).toNat

/-- The stores of R274: frame records (0) and copy descriptors (1). -/
abbrev Stores := List (Fin 2)

/-- The stores in which the reading of a copy's record and descriptor meets an uncorrectable error (R274): those found now, and a
frame record found bad before. -/
def storesBad (s : State) (c : Copy) (found : Stores) : Stores :=
  if ((frameOf s (copyRec c)).map Frame.bad).getD false then 0 :: found.filter (· ≠ 0) else found

/-- A copy is discarded for an uncorrectable error of its record or descriptor (R274; log entry 104): counted, with a NOTE of the
store and the index; a bad record stays so for the frame's other copies. -/
def storeFinding (c : Copy) (st : Fin 2) (s : State) : State :=
  let i := if st = 0 then (Config.recordIndex (copyRec c)).toNat else copyDesc c
  let s := if st = 0 then modFrame (copyRec c) (fun f => { f with bad := true }) s else s
  progEvt 0x43 0x03 255 0 1 (note 0x43 0x0B01 255 [st.val, i] (cnt .cbUncorr 0 0 1 s))

/-- Data bytes of cell `n` of a copy (R277). -/
def cellBytes (c : Copy) (n : Nat) : Nat := min 256 (stLength c.fi.stamp - 256 * n)

/-- The 128-bit header of a cell (R277). -/
def cellHeader (x : Cell) : BitVec 128 :=
  BitVec.ofNat 128 (x.seq % 2 ^ 16 + x.src % 16 * 2 ^ 16 + x.dst % 16 * 2 ^ 20 + b2n x.first * 2 ^ 24 + b2n x.last * 2 ^ 25 +
    x.bytes % 512 * 2 ^ 26 + x.plane % 2 * 2 ^ 35 + x.index % 64 * 2 ^ 36 + x.copy.port % 64 * 2 ^ 42 + x.copy.cls % 8 * 2 ^ 48 +
    x.epoch % 16 * 2 ^ 51 + x.desc % 2 ^ 20 * 2 ^ 56)

/-- Send the next cell of a path on a plane (R279, R283): one holder of the ingress cell is dropped. It is 30 clocks on its way from
the start of its slot (R31, R285). -/
def sendCell (errs : CellErrs) (plane i j : Nat) (s : State) : State :=
  let p := pathOf s i j
  let cn := match p.cur with | some x => some x | none => p.nxt.map (fun c => (c, 0))
  match cn with
  | none => s
  | some (c, n) =>
    let nxt := if p.cur.isSome then p.nxt else none
    let (c, s) := markCell (cellErr s c n errs) c s
    let last := n + 1 == copyCells c
    let cell : Cell := { plane := plane, src := i, dst := j, seq := p.seq, first := n == 0, last := last, index := n,
                         epoch := (unitSt s (uPlane plane)).epoch, bytes := cellBytes c n, desc := copyDesc c, copy := c,
                         at_ := nowClk s + 30 }
    let s := setPath i j { p with seq := (p.seq + 1) % 65536, cur := if last then none else some (c, n + 1), nxt := nxt } s
    let s := { s with lnd := { s.lnd with flight := s.lnd.flight ++ [cell] } }
    let s := if n = 0 then blaze c.fi.stamp c.fi.pos 7 c.port c.cls (uPlane plane) plane 0 (stPipe c.fi.stamp) s else s
    let s := progEvt (uPlane plane) 0x40 (stCid c.fi.stamp) 0 1 (cnt .lndCells plane 0 1 s)
    dropHolders (copyRec c) (fun x => x == n) s

/-- Mark the compartments whose heads R336 holds in this ring, each counted once per ring (R339). -/
def markHeld (s : State) : State :=
  foldS (s.lnd.voq.filterMap (fun e => e.2.head.head?)) (fun c s =>
    let k := k2 (stCid c.fi.stamp) c.port
    if shareOk s c || tget false s.sch.held k then s
    else cnt .schedShareHeld (stCid c.fi.stamp) c.port 1
      { s with sch := { s.sch with held := tput false s.sch.held k true } }) s

/-- What comes before the crossing of a slot: the cells transmitted so far return their credits, and what is due is
enqueued (R278, R281). -/
def slotBegin (slot : Nat) (s : State) : State :=
  let s := cellCredits (clkOf s (10 * slot)) { s with clock := 10 * slot }
  drainPipe (clkOf s (10 * slot)) s

/-- The previous slot's match is carried out, plane A before plane B (R282, R283), but for a fenced plane. -/
def slotCross (errs : CellErrs) (s : State) : State :=
  let old := s.lnd.mtch.filter (fun m => !isFenced s (uPlane m.1))
  let s := foldS (old.filter (fun m => m.1 == 0) ++ old.filter (fun m => m.1 == 1)) (fun m s => sendCell errs m.1 m.2.1 m.2.2 s)
    { s with lnd := { s.lnd with mtch := [] } }
  let idle (p : Nat) (s : State) : State :=
    progEvt (uPlane p) 0x42 255 0 (16 - (old.filter (fun m => m.1 == p)).length) s
  markHeld (idle 1 (idle 0 s))

/-- Both matchers find the match of a slot (R282): a path that both planes match is granted plane A's cell first. -/
def slotMatch (s : State) : State :=
  let ra := requestsOf s 0
  let rb := requestsOf s 1
  let a := matchPlane 0 ra s
  let b := matchPlane 1 rb a.2
  let s := foldS a.1 (grantCell 0) b.2
  let s := foldS b.1 (fun ij s => grantCell (if a.1.contains ij then 1 else 0) ij s) s
  let s := progEvt (uPlane 0) 0x41 255 0 (ra.length - a.1.length) s
  let s := progEvt (uPlane 1) 0x41 255 0 (rb.length - b.1.length) s
  { s with lnd := { s.lnd with mtch := a.1.map (fun ij => (0, ij.1, ij.2)) ++ b.1.map (fun ij => (1, ij.1, ij.2)) } }

/-- One cell slot (R281 to R284). -/
def cellSlot (slot : Nat) (errs : CellErrs) (s : State) : State := slotMatch (slotCross errs (slotBegin slot s))

/-! ## Crossing and resequencing (R285 to R288) -/

/-- The resequencer window of a path. -/
def reseqOf (s : State) (i j : Nat) : Reseq := tget {} s.lnd.reseq (k2 i j)
/-- Replace the resequencer window of a path. -/
def setReseq (i j : Nat) (r : Reseq) (s : State) : State :=
  { s with lnd := { s.lnd with reseq := tput {} s.lnd.reseq (k2 i j) r } }

/-- The name of a copy: its frame and its ordinal. -/
def copyId (c : Copy) : Nat × Nat := (c.fi.serial, c.ord)

/-- A completed copy is checked (R288) and, 8 clocks later, passes to the dispatch queue of its pipeline (R286), or it is
discarded. -/
def reassembled (c : Copy) (s : State) : State :=
  let cid := stCid c.fi.stamp
  if stale s c then discardCrossed .cmpStaleFrames cid 0 1 true c s
  else if c.bad then discardCrossed .lndBadCell cid 0 6 true c s
  else if (port s c.port).downs ≠ c.downs then discardCrossed .txDownDiscard c.port 0 3 true c s
  else
    let k := k1 (c.egr / 2)
    { s with krf := { s.krf with ready := tput [] s.krf.ready k (tget [] s.krf.ready k ++ [{ c with at_ := nowClk s + 8 }]) } }

/-- The order in which released copies enter a dispatch queue: by clock, then group 2p before 2p+1 (R218), then the lower
ingress group (R286). -/
def entersFirst (a b : Copy) : Bool :=
  decide (a.at_ < b.at_) || (a.at_ == b.at_ && (decide (a.egr < b.egr) || (a.egr == b.egr && decide (a.ing < b.ing))))

/-- The released copies whose clock has come enter the dispatch queue of pipeline `p`, one per clock (R218). -/
def enterDue (p : Nat) (s : State) : State :=
  let now := nowClk s
  foldS (sortBy entersFirst ((tget [] s.krf.ready (k1 p)).filter (fun c => decide (c.at_ ≤ now)))) (fun c s =>
    let e := max c.at_ (tget 0 s.krf.accept (k1 p))
    if now < e || s.krf.wait.isSome || decide (s.ran < s.krf.resume) then s
    else
      { s with krf := { s.krf with
          ready := tput [] s.krf.ready (k1 p) ((tget [] s.krf.ready (k1 p)).filter (fun d => copyId d != copyId c)),
          queue := tput [] s.krf.queue (k1 p) (tget [] s.krf.queue (k1 p) ++ [{ c with at_ := e + 24 }]),
          accept := tput 0 s.krf.accept (k1 p) (e + 1) } }) s

/-- Take one cell in sequence. -/
def takeCell (i j : Nat) (x : Cell) (s : State) : State :=
  let r := reseqOf s i j
  let id := copyId x.copy
  if r.dead.contains id then
    setReseq i j { r with dead := if x.last then r.dead.filter (· ≠ id) else r.dead } s
  else
    let g := match r.gather with
      | some c => if copyId c = id then { c with bad := c.bad || x.copy.bad } else x.copy
      | none => x.copy
    if x.last then reassembled g (setReseq i j { r with gather := none } s)
    else setReseq i j { r with gather := some g } s

/-- The dispatch queue of a group's pipeline takes no copy: with the copies on their way it is full (R218), or dispatch is stopped for a common
image (R271). -/
def queueShut (s : State) (j : Nat) : Bool :=
  decide (64 ≤ (tget [] s.krf.queue (k1 (j / 2))).length + (tget [] s.krf.ready (k1 (j / 2))).length) ||
     s.krf.wait.isSome || decide (s.ran < s.krf.resume)

/-- Release what is in sequence (R286): held cells, and numbers declared lost. A queue that takes no copy holds back the
cell that would complete one (R218). -/
def releaseSeq (i j : Nat) : Nat → State → State
  | 0, s => s
  | fuel + 1, s =>
    let r := reseqOf s i j
    if r.void_.contains r.next then
      releaseSeq i j fuel (setReseq i j
        { r with next := (r.next + 1) % 65536, void_ := r.void_.filter (· ≠ r.next),
                 lost := r.lost.filter (fun x => x.seq != r.next) } s)
    else
      match r.held.find? (fun x => x.seq == r.next) with
      | none => s
      | some x =>
        if x.last && queueShut s j then s
        else
          releaseSeq i j fuel (takeCell i j x (setReseq i j
            { r with next := (r.next + 1) % 65536, held := r.held.filter (fun y => y.seq != r.next) } s))

/-- What the dispatch queue of pipeline `p` held back is released, the copies of group 2p first (R218). -/
def releaseHeld (p : Nat) (s : State) : State :=
  foldS [2 * p, 2 * p + 1] (fun j => foldS (List.range 16) (fun i => releaseSeq i j 128)) s

/-- A cell that is dropped on arrival leaves a gap (R285, R286). -/
def dropCell (i j : Nat) (x : Cell) (s : State) : State :=
  let r := reseqOf s i j
  setReseq i j { r with lost := r.lost ++ [x] } s

/-- The NOTE of a cell error (R285). -/
def cellNote (x : Cell) (finding : Nat) (s : State) : State :=
  note (uPlane x.plane) 0x0A01 255 [x.plane, x.src, x.dst, finding]
    (if finding < 3 then progEvt (uPlane x.plane) 0x03 255 0 1 s else s)

/-- The distance of a sequence number ahead of the next one. -/
def seqAhead (next seq : Nat) : Nat := (seq + 65536 - next) % 65536

/-- What the 144 code finds in the 17 beats of a cell, header first (R285): the beat, and whether it cannot be corrected. -/
abbrev Beats := List (Fin 17 × Bool)

/-- One finding of the 144 code on a beat (R285). -/
def beatFinding (x : Cell) (b : Fin 17 × Bool) (s : State) : State :=
  if !b.2 then cellNote x 0 (cnt .lndCorr x.plane 0 1 s)
  else if b.1.val = 0 then windowCount (uPlane x.plane) 1 16 (cellNote x 1 (cnt .lndUncorrHdr x.plane 0 1 s))
  else windowCount (uPlane x.plane) 1 16 (cellNote x 2 (cnt .lndUncorrData x.plane 0 1 s))

/-- What the arrival of a cell does (R285, R286): every bad beat is counted; a bad header drops the cell, bad data marks its copy. -/
def cellIn (x : Cell) (beats : Beats) (s : State) : State :=
  let s := foldS beats (beatFinding x) s
  if beats.any (fun b => b.2 && b.1.val == 0) then dropCell x.src x.dst x s
  else if x.epoch ≠ (unitSt s (uPlane x.plane)).epoch then cellNote x 3 (cnt .lndEpochDrop x.plane 0 1 s)
  else
    let r := reseqOf s x.src x.dst
    if 64 ≤ seqAhead r.next x.seq then cnt .lndSeqRange 0 0 1 (dropCell x.src x.dst x s)
    else
      let x := { x with copy := { x.copy with bad := x.copy.bad || beats.any Prod.snd } }
      releaseSeq x.src x.dst 128 (setReseq x.src x.dst { r with held := r.held ++ [x] } s)

/-- A cell arrives 30 clocks after the start of its slot (R31, R285): a row before that clock finds it on its way, and a later one
makes it arrive at that clock. -/
def cellArrive (plane i j seq clk : Nat) (beats : Beats) (s : State) : State :=
  let s := { s with clock := clk }
  let mine (x : Cell) : Bool := x.plane == plane && x.src == i && x.dst == j && x.seq == seq
  match s.lnd.flight.find? mine with
  | none => s
  | some x =>
    if nowClk s < x.at_ then s
    else atClk x.at_ (cellIn x beats) { s with lnd := { s.lnd with flight := s.lnd.flight.eraseP mine } }

/-- The copies of a list, each once. -/
def dedupCopies (l : List Copy) : List Copy :=
  l.foldl (fun acc c => if acc.any (fun d => copyId d = copyId c) then acc else acc ++ [c]) []

/-- The held cell that is next in sequence after a gap. -/
def firstHeld (r : Reseq) : Option Cell :=
  r.held.foldl (fun b x =>
    match b with
    | none => some x
    | some y => if seqAhead r.next x.seq < seqAhead r.next y.seq then some x else b) none

/-- Declare the gap before the first held cell lost (R287): the copy being gathered, the copies of the missing cells,
and the copy whose later cells follow the gap are discarded; the path goes on from the next FIRST. -/
def declareLost (i j : Nat) (s : State) : State :=
  let r := reseqOf s i j
  match firstHeld r with
  | none => s
  | some h =>
    let gap := (List.range (seqAhead r.next h.seq)).map (fun d => (r.next + d) % 65536)
    let known := dedupCopies ((r.gather.toList ++ (if h.first then [] else [h.copy])).filter
      (fun c => !r.dead.contains (copyId c)))
    let missing := (r.lost ++ s.lnd.flight.filter (fun x => x.src == i && x.dst == j)).filter (fun x => gap.contains x.seq)
    let others := (dedupCopies (missing.map Cell.copy)).filter
      (fun c => !r.dead.contains (copyId c) && known.all (fun d => copyId d != copyId c))
    let s := foldS known (fun c s => discardCrossed .lndReseqLost (stCid c.fi.stamp) 0 6 true c s) s
    let s := foldS others (fun c s => discardCrossed .lndReseqLostUnknown 0 0 6 true c s) s
    let deadOnes := known.map copyId ++ (others.filter (fun c => copyCells c ≠ 1)).map copyId
    releaseSeq i j 256 (setReseq i j { r with gather := none, void_ := r.void_ ++ gap, dead := r.dead ++ deadOnes } s)

/-- A gap's oldest held cell has waited its timeout (R287). -/
def reseqTimeout (i j clk : Nat) (s : State) : State :=
  let s := { s with clock := clk }
  let r := reseqOf s i j
  let now := clkOf s clk
  if r.held.all (fun x => x.seq != r.next) && r.held.any (fun x => decide (x.at_ + fld s.lnd.cfg 26 16 ≤ now)) then
    declareLost i j s
  else s

/-! ## The copy hold limit (R290) -/

/-- A multi-copy frame's copy has reached the hold limit at this boundary. -/
def holdOver (s : State) (c : Copy) : Bool :=
  decide (2 ≤ c.fi.copies) && decide (c.q + fld s.lnd.cfg 12 0 ≤ s.ran)

/-- Discard every copy on die whose first cell was not granted by ring q + H (R290). Copies that wait to be written to
DRAM are tested when they come back. -/
def mcHold (s : State) : State :=
  foldS s.lnd.voq (fun e s =>
    let v := voqOf s e.1
    let gone := v.head.filter (holdOver s)
    foldS gone (fun c s => discardQueued .lndMcHold (stCid c.fi.stamp) 0 5 c s)
      (setVoq e.1 { v with head := v.head.filter (fun c => !holdOver s c) } s)) s

/-! ## Fences (R276, R292, R293) -/

/-- Discard the part of a granted copy that is not sent yet (R292). -/
def dropUnsent (c : Copy) (n : Nat) (s : State) : State := dropIngress c n s

/-- Discard the copies of a path that satisfy `p`, in progress, in flight or held, each once; what they still have in
flight is skipped, and the numbers in `lostSeq` are declared lost, held cells among them. A discarded copy is found in no gap again. -/
def killPath (i j : Nat) (p : Copy → Bool) (lostSeq : List Nat) (s : State) : State :=
  let pa := pathOf s i j
  let r := reseqOf s i j
  let fl := s.lnd.flight.filter (fun x => x.src == i && x.dst == j)
  let all := dedupCopies ((pa.cur.map Prod.fst).toList ++ pa.nxt.toList ++ r.gather.toList ++ r.held.map Cell.copy ++
    r.lost.map Cell.copy ++ fl.map Cell.copy)
  let gone := all.filter (fun c => p c && !r.dead.contains (copyId c))
  let ids := gone.map copyId
  let s := match pa.cur with
    | some (c, n) => if ids.contains (copyId c) then dropUnsent c n s else s
    | none => s
  let s := match pa.nxt with
    | some c => if ids.contains (copyId c) then dropUnsent c 0 s else s
    | none => s
  let curSent := match pa.cur with | some (c, _) => ids.contains (copyId c) | none => false
  let s := setPath i j { pa with cur := if curSent then none else pa.cur,
                                 nxt := pa.nxt.filter (fun c => !ids.contains (copyId c)) } s
  let held := r.held.filter (fun x => !lostSeq.contains x.seq)
  let live := (fl.map Cell.copy ++ held.map Cell.copy).map copyId
  let s := setReseq i j { r with gather := r.gather.filter (fun c => !ids.contains (copyId c)), held := held,
                                 lost := r.lost.filter (fun x => !ids.contains (copyId x.copy)),
                                 dead := r.dead ++ ids.filter (fun d => live.contains d),
                                 void_ := r.void_ ++ lostSeq } s
  releaseSeq i j 256 (foldS gone (fun c s => discardCrossed .lndFenceDiscard (stCid c.fi.stamp) 0 4 false c s) s)

/-- The Landing's part of a plane's fence (R292): what was sent on the plane and is not released is lost. -/
def fencePlane (plane : Nat) (s : State) : State :=
  let s := { s with lnd := { s.lnd with mtch := s.lnd.mtch.filter (fun m => m.1 != plane) } }
  foldS ((List.range 16).flatMap (fun i => (List.range 16).map (fun j => (i, j)))) (fun ij s =>
    let r := reseqOf s ij.1 ij.2
    let xs := (s.lnd.flight.filter (fun x => x.src == ij.1 && x.dst == ij.2) ++ r.held ++ r.lost).filter
      (fun x => x.plane == plane && decide (seqAhead r.next x.seq < 32768))
    if xs.isEmpty then s
    else
      let ids := xs.map (fun x => copyId x.copy)
      killPath ij.1 ij.2 (fun c => ids.contains (copyId c)) (xs.map Cell.seq) s) s

/-- The Landing's part of a port group's fence (R276, R293): the VOQs toward its ports and its own VOQs are emptied,
and what crosses to or from it is discarded. -/
def fenceGroup (g : Nat) (s : State) : State :=
  let drop (c : Copy) (s : State) : State := discardQueued .lndFencedPort (stCid c.fi.stamp) 0 4 c s
  let s := removeVoqs (fun k => k.1 == g || portGroup s k.2.1 == g) (fun _ => true) drop s
  let s := doomVoqs (fun k => k.1 == g || portGroup s k.2.1 == g) (fun _ => true)
    (fun c => discardSpilled .lndFencedPort (stCid c.fi.stamp) 0 4 true c) s
  foldS (List.range 16) (fun x s =>
    let s := killPath x g (fun _ => true) [] s
    if x = g then s else killPath g x (fun _ => true) [] s) s

/-- What is queued for a port that goes down is removed and counted (R80, R276), the copies of the DRAM portion
leaving their slots to the page walk (R315); its scheduler queues are emptied. -/
def flushPort (p : Nat) (s : State) : State :=
  let s := removeVoqs (fun k => k.2.1 == p) (fun _ => true) (discardQueued .txDownDiscard p 0 3) s
  let s := doomVoqs (fun k => k.2.1 == p) (fun _ => true) (discardSpilled .txDownDiscard p 0 3 true) s
  let s := foldS (tget [] s.sch.tx (k1 p)) (discardTx .txDownDiscard p 0 3)
    { s with sch := { s.sch with tx := tput [] s.sch.tx (k1 p) [] } }
  removeSched (fun k => k.1 == p) (fun _ => true) (discardDone .txDownDiscard p 0 3) s

/-! ## LND_CFG_WRITE (R294) -/

/-- LND_CFG_WRITE's checks (R294). -/
def opLndCfgWrite : LOp :=
  { op := .lndCfgWrite,
    args := fun _ q =>
      let x := leNat q.payload
      let h := x % 8192
      let t := x / 65536 % 2048
      firstBad [(h != 0, .zeroLen), (decide (h ≤ 4096), .range), (t != 0, .zeroLen),
                (decide (64 ≤ t) && decide (t ≤ 1600), .range)] }

/-- LND_CFG_WRITE lands (R294); reserved bits read as zero (R19). -/
def landLndCfg (i : Item) (s : State) : Ans :=
  { st := { s with lnd := { s.lnd with cfg := BitVec.ofNat 64 (leNat i.req.payload &&& 0x7FF1FFF) } } }

/-! ## Meanings -/

/-- CELL_ARRIVE (R285, R286). -/
def execCellArrive (plane : Fin 2) (src dst : Fin 16) (seq : BitVec 16) (clk : Fin 1600) (beats : List (Fin 17 × Bool))
    (s : State) : Out := .next (unlessHalted s (cellArrive plane.val src.val dst.val seq.toNat clk.val beats s))
/-- RESEQ_TIMEOUT (R287). -/
def execReseqTimeout (src dst : Fin 16) (clk : Fin 1600) (s : State) : Out :=
  .next (unlessHalted s (reseqTimeout src.val dst.val clk.val s))
/-- MC_HOLD_EXPIRE (R290). -/
def execMcHoldExpire (s : State) : Out := .next (unlessHalted s (onBoundary mcHold s))
/-- LND_CFG_WRITE (R294). -/
def execLndCfgWrite (q : Req) (s : State) : Out := .next (runOp opLndCfgWrite q s)

end Sys2Proof.Machine
end

