-- ==== Sys2Proof/Machine/Pools.lean ====
section
/-!
DEFINITION. Pool configuration and the pool events of a ring (R299, R300, R306, R308, R309).
-/
namespace Sys2Proof.Machine

/-- Segments of pool space (R297). -/
def poolSpace (v : Variant) : Nat := if v = .e then 144 else 140

/-- Segments held by the pools other than `p`. -/
def otherSegs (s : State) (p : Nat) : Nat :=
  (((List.range 8).filter (· ≠ p)).map (poolSegs s)).foldl (· + ·) 0

/-- The fields and relations of a `POOL.CFG` record (R299, R300). -/
def poolCfgCheck (s : State) (p : Nat) (x : BitVec 128) : Status :=
  let k := fld x 7 0 * 4096
  let adv := fld x 27 8
  let pre := fld x 47 28
  let hold := fld x 67 48
  let hyst := fld x 79 68
  firstBad [
    (fld x 7 0 != 0, .zeroLen), (decide (fld x 7 0 ≤ poolSpace s.variant), .range),
    (hyst != 0, .zeroLen),
    (fld x 95 80 != 0, .zeroLen),
    (decide (hyst ≤ adv), .range), (decide (adv + hyst ≤ pre), .range), (decide (pre + hyst ≤ hold), .range),
    (decide (hold < k), .range), (decide (otherSegs s p + fld x 7 0 ≤ poolSpace s.variant), .range)]

/-- The record that a 16-byte payload spells. -/
def rec128 (l : List Byte) : BitVec 128 := BitVec.ofNat 128 (leNat l)

/-- POOL_CFG_WRITE's checks (R299, R300): a change of `SEGMENTS` needs STAGED and an empty buffer. -/
def opPoolCfgWrite : LOp :=
  { op := .poolCfgWrite,
    present := fun s q => !(s.variant == .e && bit (rec128 q.payload) 96),
    args := fun s q => firstBad [
      (decide (q.arg1.toNat < 8), .range),
      (poolCfgCheck s q.arg1.toNat (rec128 q.payload) == .ok, poolCfgCheck s q.arg1.toNat (rec128 q.payload))],
    pre := fun s q =>
      if fld (rec128 q.payload) 7 0 = poolSegs s q.arg1.toNat ∨ (s.md.mode = .staged ∧ quiet s) then .ok else .busy }

/-- All cells of a pool are free (R300, R319). -/
def freshPool (p : Nat) (s : State) : State :=
  let s := modPool p (fun q => { q with fresh := 0, free := [] }) s
  { s with buf := { s.buf with cache := tfilter (fun k => k.2.1 != p) s.buf.cache } }

/-- POOL_CFG_WRITE lands (R300): the segments of every pool move with the sizes, so all caches start afresh; the state
is evaluated again. -/
def landPoolCfg (i : Item) (s : State) : Ans :=
  let p := i.req.a1 2 0
  let x := rec128 i.req.payload
  let move := fld x 7 0 != poolSegs s p
  let s := modPool p (fun q => { q with cfg := BitVec.ofNat 128 (x.toNat % 2 ^ 97) }) s
  let s := if move then foldS (List.range 8) freshPool s else s
  { st := poolEval p s }

/-- POOL_STATE of a pool whose state changed in the finished ring (R306, R309). -/
def postPoolState (ring p : Nat) (s : State) : State :=
  let q := poolOf s p
  let s := if q.crossings = 0 then s
    else post 0 0x0901 (packLE [(8, ring), (1, p), (1, q.state), (1, q.ringHigh), (1, 255), (1, 255), (3, 0),
      (4, q.ringPeak), (4, q.crossings)]) s
  modPool p (fun q => { q with ringPeak := q.occ, ringHigh := q.state, crossings := 0 }) s

/-- POOL_EMPTY of each compartment, port and priority refused in the finished ring (R309). -/
def postPoolEmpty (ring : Nat) (s : State) : State :=
  let s := foldS s.buf.empties (fun e s =>
    let pool := e.2.2
    post e.1.1 0x0902 (packLE [(8, ring), (1, pool), (1, 0), (1, 0), (1, e.1.2.1), (1, e.1.2.2), (3, 0),
      (4, (poolOf s pool).ringPeak), (4, e.2.1)]) s) s
  { s with buf := { s.buf with empties := [] } }

/-- The pool events of the finished ring. -/
def poolEvents (ring : Nat) (s : State) : State :=
  foldS (List.range 8) (postPoolState ring) (postPoolEmpty ring s)

/-! ## Meanings -/

/-- POOL_CFG_WRITE (R299, R300). -/
def execPoolCfgWrite (q : Req) (s : State) : Out := .next (runOp opPoolCfgWrite q s)

end Sys2Proof.Machine
end

