-- ==== Sys2Proof/Machine/Dram.lean ====
section
/-!
DEFINITION. The DRAM controller (R341 to R363): pages and their allocation, requests, activations and row hammer,
burst checks, refresh, temperature, retraining, rank power-down, scrub, and a channel's fence.
-/
namespace Sys2Proof.Machine

/-! ## Pages (R341, R343) -/

/-- Pages of the module. -/
def pageCount (v : Variant) : Nat := match v with | .f => 33554432 | .m => 16777216 | .e => 0

/-- The k-th page of a rank of a channel, in rising page number. -/
def pageOf (s : State) (ch r k : Nat) : Nat := ch + nChannels s.variant * (k + r * 1048576)

/-- `SPILL.CFG` fields (R317). -/
def spillPages (s : State) : Nat := fld s.buf.spill 24 0
def voqPages (s : State) : Nat := fld s.buf.spill 48 25
def readAhead (s : State) : Nat := fld s.buf.spill 55 49

/-- The number of spill pages of a rank (R317): its pages below `PAGES`. -/
def rankPages (s : State) (ch r : Nat) : Nat :=
  let n := nChannels s.variant
  let lo := pageOf s ch r 0
  if n = 0 ∨ spillPages s ≤ lo then 0 else min 1048576 ((spillPages s - lo + n - 1) / n)

/-- Free spill pages of a rank. -/
def rankFree (s : State) (ch r : Nat) : Nat := rankPages s ch r - (rankOf s ch r).fresh + (rankOf s ch r).free.length

/-- A rank gives pages: awake, and past the first boundary at least 480 clocks after its wake (R353). -/
def rankGives (s : State) (ch r : Nat) : Bool :=
  (rankOf s ch r).state == 0 && decide ((rankOf s ch r).wakeAt ≤ clkOf s 0) && decide (0 < rankFree s ch r)

/-- Begin to wake a sleeping rank (R352): it accepts requests 480 clocks later. -/
def startWake (ch r : Nat) (s : State) : State :=
  if (rankOf s ch r).state = 1 then modRank ch r (fun x => { x with state := 2, wakeAt := nowClk s + 480 }) s else s

/-- Wake a sleeping rank when the awake ranks of the channel run low (R353). -/
def wakeForPages (ch : Nat) (s : State) : State :=
  let awake := (List.range 2).filter (fun r => (rankOf s ch r).state == 0)
  if (awake.map (rankFree s ch)).foldl (· + ·) 0 < 4096 then
    match (List.range 2).find? (fun r => (rankOf s ch r).state == 1 && decide (0 < rankFree s ch r)) with
    | some r => startWake ch r s
    | none => s
  else s

/-- Take the next free page of a rank (R353): pages never taken in rising order, then freed pages in FIFO order. -/
def takePage (ch r : Nat) (s : State) : Nat × State :=
  let x := rankOf s ch r
  if x.fresh < rankPages s ch r then (pageOf s ch r x.fresh, modRank ch r (fun x => { x with fresh := x.fresh + 1 }) s)
  else (x.free.headD 0, modRank ch r (fun x => { x with free := x.free.drop 1 }) s)

/-- Every channel in service wakes a sleeping rank when its awake ranks run low (R353; log entry 105). -/
def wakeAll (s : State) : State :=
  foldS ((List.range (nChannels s.variant)).filter (fun ch => !isFenced s (uChannel ch))) wakeForPages s

/-- Allocate one page (R345, R353) on the next channel in rotation that can give one; a page's version advances with
each allocation (log entry 24). -/
def allocPage (s : State) : Option (Nat × Nat × State) :=
  let n := nChannels s.variant
  let order := (List.range n).map (fun d => (s.dram.rot + d) % n)
  let can (ch : Nat) : Bool := !isFenced s (uChannel ch) && (rankGives s ch 0 || rankGives s ch 1)
  let s := wakeAll s
  match order.find? can with
  | none => none
  | some ch =>
    let (p, s) := takePage ch (if rankGives s ch 0 then 0 else 1) s
    let v := (tget 0 s.dram.ver (k1 p) + 1) % 65536
    let s := { s with dram := { s.dram with rot := (ch + 1) % n, ver := tput 0 s.dram.ver (k1 p) v } }
    some (p, v, wakeForPages ch s)

/-- Pages that VOQs hold. -/
def heldPages (s : State) : List Nat := s.lnd.voq.flatMap (fun e => e.2.pages.map Prod.fst)

/-! ## Bursts and tags (R342, R344, R345) -/

/-- One byte of the CRC-16 of a tag: polynomial 0x1021, most significant bit first. -/
def crc16Byte (r : Nat) (b : Byte) : Nat :=
  (List.range 8).foldl (fun r _ => if 32768 ≤ r then (r * 2 % 65536) ^^^ 0x1021 else r * 2) (r ^^^ (b.toNat * 256))

/-- The CRC-16 of a tag's first six bytes. -/
def crc16 (l : List Byte) : Nat := l.foldl crc16Byte 0xFFFF

/-- The tag of a burst (R345). -/
def tagOf (page subch burst ver : Nat) : BitVec 64 :=
  let x := page % 2 ^ 25 + burst % 32 * 2 ^ 25 + subch % 2 * 2 ^ 30 + ver % 2 ^ 16 * 2 ^ 32
  BitVec.ofNat 64 (x + crc16 (leBytes 6 x) * 2 ^ 48)

/-- The bursts of a slot, each with its first byte in the slot (R342): byte b of a page lies in sub-channel ⌊b/64⌋ mod 2, burst
⌊b/128⌋. -/
def slotBursts (i : Nat) : List (Nat × Nat × Nat) := [(0, 2 * i, 0), (1, 2 * i, 64), (0, 2 * i + 1, 128), (1, 2 * i + 1, 192)]

/-- A stored burst. -/
def burstAt (s : State) (page subch burst : Nat) : Burst := tget {} s.dram.burst (k3 page subch burst)
/-- Replace a stored burst. -/
def putBurst (page subch burst : Nat) (x : Burst) (s : State) : State :=
  { s with dram := { s.dram with burst := tput {} s.dram.burst (k3 page subch burst) x } }

/-- The check bits of the four codewords of a burst (R344). -/
def burstCheck (page subch burst : Nat) (l : List Byte) : List (BitVec 16) :=
  (List.range 4).map (fun j => Config.code144 [page, subch, burst, j] (slice l (16 * j) 16))

/-- Write the bytes of a slot with tags of a version (R344). -/
def writeSlot (page ver i : Nat) (l : List Byte) (s : State) : State :=
  foldS (slotBursts i) (fun b => putBurst page b.1 b.2.1
    { tag := tagOf page b.1 b.2.1 ver, data := padTo 64 (slice l b.2.2 64),
      check := burstCheck page b.1 b.2.1 (padTo 64 (slice l b.2.2 64)) }) s

/-- What newly reads otherwise than it was written: (sub-channel, burst, bits of the tag, number of bits of each codeword). -/
abbrev Bursts := List (Fin 2 × Fin 32 × BitVec 64 × List Nat)

/-- The sum of two lists of numbers, the shorter taken as zeros beyond its end. -/
def addLists : List Nat → List Nat → List Nat
  | [], l => l
  | l, [] => l
  | x :: l, y :: m => (x + y) :: addLists l m

/-- An error comes into a stored burst; it stays until the burst is written again. -/
def flipBurst (page : Nat) (e : Fin 2 × Fin 32 × BitVec 64 × List Nat) (s : State) : State :=
  let x := burstAt s page e.1.val e.2.1.val
  putBurst page e.1.val e.2.1.val { x with tagFlip := x.tagFlip ^^^ e.2.2.1, flips := addLists x.flips e.2.2.2 } s

/-- The first finding of R346 on a burst as it reads, the version unchecked where none is expected: 0 the tag's check or address,
1 a codeword that cannot be corrected, 2 the version, 3 single-bit errors only. -/
def burstStep (page subch burst : Nat) (ver : Option Nat) (x : Burst) : Option Nat :=
  let t := x.tag ^^^ x.tagFlip
  if crc16 (leBytes 6 (fld t 47 0)) ≠ fld t 63 48 ∨ fld t 24 0 ≠ page ∨ fld t 29 25 ≠ burst ∨ fld t 30 30 ≠ subch then some 0
  else if x.flips.any (fun n => decide (2 ≤ n)) then some 1
  else if ver.any (fun v => v % 65536 != fld t 47 32) then some 2
  else if x.flips.any (· == 1) then some 3
  else none

/-! ## Requests (R347, R352, R355) -/

/-- The compartment that a request of class 3 belongs to; other classes stand alone. -/
def streamOf (cls cid : Nat) : Nat := if cls = 3 then cid else 255

/-- The throttle that a request falls under (R355): the ring of the requester's last activation in the bank. -/
def throttleOf (s : State) (cls cid page : Nat) : Option Nat :=
  (s.dram.throttle.find? (fun t => t.1 == pageCh s page && t.2.1 == pageRank s page && t.2.2.1 == pageBank s page &&
    t.2.2.2.1 == cls && t.2.2.2.2.1 == streamOf cls cid)).map (fun t => t.2.2.2.2.2)

/-- A throttled requester may not activate in the bank yet (R355). -/
def throttled (s : State) (cls cid page : Nat) : Bool :=
  match throttleOf s cls cid page with
  | some r => decide (s.ran < r + 16)
  | none => false

/-- The requests that a throttle delays and that are not counted yet are counted (R355): for the compartment in class 3, else
for the module. -/
def countDelays (s : State) : State :=
  let late (r : DReq) : Bool := !r.delayed && throttled s r.cls r.cid r.page
  let t := foldS (s.dram.reqs.filter late) (fun r s =>
    if r.cls = 3 then cnt .dramThrottled r.cid 0 1 s else cnt .dramThrottledMod 0 0 1 s) s
  { t with dram := { t.dram with reqs := t.dram.reqs.map (fun r => if late r then { r with delayed := true } else r) } }

/-- A request arrives at a rank: its idle time starts afresh, and a sleeping rank wakes (R352). -/
def touchRank (page : Nat) (s : State) : State :=
  startWake (pageCh s page) (pageRank s page)
    (modRank (pageCh s page) (pageRank s page) (fun x => { x with lastReq := s.ran + 1 }) s)

/-- A requester writes a page: the scrub's writeback to it is dropped (R356). -/
def dropBack (page : Nat) (s : State) : State :=
  { s with dram := { s.dram with reqs := s.dram.reqs.filter (fun x => !(x.cls == 5 && x.write && x.page == page)) } }

/-- A request joins the front end (R347). -/
def enqueueReq (r : DReq) (s : State) : State :=
  let s := touchRank r.page (if r.write && r.cls != 5 then dropBack r.page s else s)
  countDelays { s with dram := { s.dram with reqs := s.dram.reqs ++ [{ r with id := s.dram.nextId, at_ := nowClk s }],
                                             nextId := s.dram.nextId + 1 } }

/-! ## Activations and row hammer (R354, R355) -/

/-- The entry with the lowest count, the first of equals. -/
def lowestRow (l : List (Nat × Nat)) : Nat × Nat :=
  l.foldl (fun b e => if e.2 < b.2 then e else b) (l.headD (0, 0))

/-- The tracked rows after one more activation of `row`, and its count (R354). -/
def trackRow (l : List (Nat × Nat)) (row : Nat) : List (Nat × Nat) × Nat :=
  match l.find? (fun e => e.1 == row) with
  | some e => (l.map (fun x => if x.1 = row then (row, e.2 + 1) else x), e.2 + 1)
  | none =>
    if l.length < 64 then (l ++ [(row, 1)], 1)
    else
      let b := lowestRow l
      (l.map (fun x => if x.1 = b.1 then (row, b.2 + 1) else x), b.2 + 1)

/-- The requester's last activation in a bank that it is throttled on. -/
def stampThrottle (cls cid page : Nat) (s : State) : State :=
  { s with dram := { s.dram with throttle := s.dram.throttle.map (fun t =>
      if t.1 = pageCh s page ∧ t.2.1 = pageRank s page ∧ t.2.2.1 = pageBank s page ∧ t.2.2.2.1 = cls ∧
        t.2.2.2.2.1 = streamOf cls cid then (t.1, t.2.1, t.2.2.1, t.2.2.2.1, t.2.2.2.2.1, s.ran) else t) } }

/-- A row reaches `HAMMER_LIMIT` (R354, R355): the rows on each side, as far as the bank has them, are refreshed in the next ring,
and the requester is throttled. -/
def hammer (cls cid page : Nat) (s : State) : State :=
  let ch := pageCh s page
  let body := packLE [(8, s.ring), (1, ch), (1, pageRank s page), (1, pageBank s page), (1, cls),
    (2, pageRow s page), (1, if cls = 3 then cid else 255)]
  let s := post 0 0x0A01 body (cnt .dramHammer ch 0 1 s)
  let s := if cls = 3 ∧ cid ≠ 0 then post cid 0x0A01 body s else s
  let row := pageRow s page
  let near := ([row - 2, row - 1, row + 1, row + 2].filter (fun x => decide (x < 32768) && x != row)).eraseDups
  let s := { s with dram := { s.dram with
    victims := s.dram.victims ++ near.map (fun x => (2 * ch + pageRank s page, pageBank s page, x)) } }
  if 2 ≤ cls ∧ (throttleOf s cls cid page).isNone then
    countDelays { s with dram := { s.dram with throttle := s.dram.throttle ++
        [(ch, pageRank s page, pageBank s page, cls, streamOf cls cid, s.ran)] } }
  else s

/-- Each request activates its page's row once (R348, R354). -/
def activate (cls cid page : Nat) (s : State) : State :=
  let k := k3 (pageCh s page) (pageRank s page) (pageBank s page)
  let row := pageRow s page
  let (l, n) := trackRow (tget [] s.dram.rows k) row
  let hit := fld s.dram.cfg 35 22 ≤ n
  let l := if hit then l.map (fun x => if x.1 = row then (row, 0) else x) else l
  let s := countDelays (stampThrottle cls cid page { s with dram := { s.dram with rows := tput [] s.dram.rows k l } })
  if hit then hammer cls cid page s else s

/-! ## Burst checks (R346, R357) -/

/-- A channel's fence (R357), with the cause in the order of that rule. -/
def channelFault (ch cause : Nat) (s : State) : State := fenceFault (uChannel ch) 0x0C02 255 [cause] s

/-- One finding on a burst that was read (R346): step 0 the tag's address, 1 uncorrectable, 2 the version, 3 corrected. -/
def burstFinding (page step subch burst : Nat) (s : State) : State :=
  let ch := pageCh s page
  let c : Ctr := match step with | 1 => .dramUncorr | 3 => .dramCorr | _ => .dramTagMismatch
  let s := progEvt (uChannel ch) 0x03 255 0 1 s
  let s := note (uChannel ch) 0x0C01 255 [ch, pageRank s page, page, subch, burst] (cnt c ch 0 1 s)
  if step < 3 then
    let n := tget 0 s.dram.errWin (k1 ch) + 1
    let s := { s with dram := { s.dram with errWin := tput 0 s.dram.errWin (k1 ch) n } }
    if n = 16 then channelFault ch 1 s else s
  else s

/-- The bursts that a request reads, in burst order: those of its slots that have been written. -/
def readBursts (s : State) (r : DReq) : List (Nat × Nat) :=
  (r.slots.flatMap (fun i => (slotBursts i).map (fun b => (b.1, b.2.1)))).filter
    (fun b => burstAt s r.page b.1 b.2 != {})

/-- The findings of a read (R346): each burst's first, as (step, sub-channel, burst). The Ranger and the scrub read with the version
unchecked. -/
def findings (s : State) (r : DReq) : List (Nat × Nat × Nat) :=
  (readBursts s r).filterMap (fun b =>
    (burstStep r.page b.1 b.2 (if 4 ≤ r.cls then none else some r.ver) (burstAt s r.page b.1 b.2)).map (fun k => (k, b)))

/-- A read meets new errors in the bursts that it reads, and its findings are counted (R346). -/
def readPage (r : DReq) (errs : Bursts) (s : State) : List (Nat × Nat × Nat) × State :=
  let mine := errs.filter (fun e => (readBursts s r).contains (e.1.val, e.2.1.val))
  let s := foldS mine (flipBurst r.page) s
  (findings s r, foldS (findings s r) (fun x => burstFinding r.page x.1 x.2.1 x.2.2) s)

/-- The slots that a read leaves bad: those of bursts with a finding of steps 1 to 3 (R342, R346). -/
def badSlots (f : List (Nat × Nat × Nat)) : List Nat := ((f.filter (fun x => decide (x.1 < 3))).map (fun x => x.2.2 / 2)).eraseDups

/-! ## Ranks, refresh and retraining (R349, R350, R352) -/

/-- A channel that is present and in service. -/
def chLive (s : State) (ch : Nat) : Bool := chPresent s.variant ch && !isFenced s (uChannel ch)

/-- Rank r of channel c is refreshed in a ring: in every third ring, or in every ring while hot (R349). -/
def refreshIn (s : State) (ch r n : Nat) : Bool := n % 3 == ch % 3 || (rankOf s ch r).hot

/-- DRAM_REFRESH: once at clock 800 × r of such a ring (R349). -/
def dramRefresh (ch r : Nat) (s : State) : State :=
  if chLive s ch && refreshIn s ch r s.ring && (rankOf s ch r).state == 0 && (rankOf s ch r).refreshed != s.ran + 1 then
    progEvt (uChannel ch) 0x62 255 0 312
      (modRank ch r (fun x => { x with refreshes := x.refreshes + 1, refreshed := s.ran + 1 }) { s with clock := 800 * r })
  else s

/-- DRAM_TEMP_READ (R349, R357): the temperature in °C. -/
def dramTemp (ch r : Nat) (t : Int) (s : State) : State :=
  if chLive s ch then
    let s := modRank ch r (fun x => { x with temp := t, hot := decide (85 < t) }) s
    if 95 < t then channelFault ch 3 s else s
  else s

/-- The ring in which channel c pauses (R350). -/
def pauseIn (ch n : Nat) : Bool := n % 100000 == 6250 * ch

/-- DRAM_RETRAIN: channel c pauses once in its own ring (R350); drift beyond the correction range fences it. -/
def dramRetrain (ch : Nat) (ok : Bool) (s : State) : State :=
  if chLive s ch && pauseIn ch s.ring && tget 0 s.dram.paused (k1 ch) != s.ran + 1 then
    let s := { s with clock := 1000, dram := { s.dram with retrains := tmod 0 s.dram.retrains (k1 ch) (· + 1),
                                                           paused := tput 0 s.dram.paused (k1 ch) (s.ran + 1) } }
    let s := progEvt (uChannel ch) 0x62 255 0 320 s
    if ok then s else channelFault ch 2 s
  else s

/-- A rank holds an allocated spill page, or one that a request or the Ranger still has to deal with. -/
def rankHolds (s : State) (ch r : Nat) : Bool :=
  (heldPages s ++ s.dram.orphan ++ s.dram.reqs.map DReq.page).any (fun p => pageCh s p == ch && pageRank s p == r)

/-- `DRAM.CFG.IDLE_RINGS`, as a night-trim step replaces it (R518). -/
def idleRings (s : State) : Nat := s.md.idleOverride.getD (fld s.dram.cfg 20 1)

/-- What `DRAM.STATUS` of a channel shows (R361): a rank that wakes reads self-refresh until it accepts requests (R352). -/
def dramNow (s : State) (ch : Nat) : Nat :=
  let rank (r : Nat) : Nat := if isFenced s (uChannel ch) then 2 else if (rankOf s ch r).state = 0 then 0 else 1
  let temp := max (rankOf s ch 0).temp (rankOf s ch 1).temp
  rank 0 + 4 * rank 1 + 16 * b2n ((rankOf s ch 0).hot || (rankOf s ch 1).hot) + 256 * (BitVec.ofInt 8 temp).toNat +
    65536 * (tget 0 s.dram.errWin (k1 ch) % 65536)

/-- Every channel's status is updated: a ring boundary stands here (R361). -/
def dramLatch (s : State) : State :=
  { s with dram := { s.dram with
    status := (List.range (nChannels s.variant)).foldl (fun t ch => tput 0 t (k1 ch) (dramNow s ch)) [] } }

/-- A ring boundary: the status is updated, and the rows beside one that reached `HAMMER_LIMIT` in the ring before are refreshed in
the ring that begins (R354). -/
def dramTurn (s : State) : State :=
  let s := dramLatch s
  { s with dram := { s.dram with
    victims := [],
    rowDone := s.dram.victims.foldl (fun t v => tput 0 t (k3 v.1 v.2.1 v.2.2) s.ran) s.dram.rowDone } }

/-- RANK_SELF_REFRESH at a boundary, after `IDLE_RINGS` whole rings without a request (R352). -/
def rankSleep (ch r : Nat) (s : State) : State :=
  let x := rankOf s ch r
  if chLive s ch && bit s.dram.cfg 0 && x.state == 0 && decide (max x.lastReq s.dram.since + idleRings s ≤ s.ran) &&
      !rankHolds s ch r then
    dramLatch (cnt .dramSrEntries ch r 1 (modRank ch r (fun x => { x with state := 1 }) s))
  else s

/-- RANK_WAKE: a woken rank accepts requests 480 clocks after the wake (R352). -/
def rankWake (ch r clk : Nat) (s : State) : State :=
  let s := { s with clock := clk }
  let x := rankOf s ch r
  if x.state = 2 ∧ x.wakeAt ≤ nowClk s then modRank ch r (fun x => { x with state := 0 }) s else s

/-- HAMMER_WINDOW: a new window of 32,000 rings begins, once, with the first clock of its ring (R354, R355). -/
def hammerWindow (s : State) : State :=
  if s.ring % 32000 = 0 ∧ s.clock = 0 ∧ s.dram.hamWin ≠ s.ran + 1 then
    { s with dram := { s.dram with rows := [], throttle := [], hamWin := s.ran + 1 } }
  else s

/-! ## Patrol scrub (R356) -/

/-- Pages of the tally rings: first page and number of pages, of each compartment. -/
def tallyRuns (s : State) : List (Nat × Nat) :=
  s.cap.tly.filterMap (fun e =>
    let n := fld e.2.cfg 27 8
    if n = 0 then none else some (e.2.base, n))

/-- The lowest allocated page from `p` on. -/
def nextPage (s : State) (p : Nat) : Option Nat :=
  let a := (heldPages s).filter (fun x => decide (p ≤ x))
  let b := (tallyRuns s).filterMap (fun r => if p < r.1 + r.2 then some (max p r.1) else none)
  (a ++ b).foldl (fun m x => match m with | none => some x | some y => some (min x y)) none

/-- The scrub passes over a page: its channel is fenced, its rank sleeps, or a write to it is outstanding. -/
def scrubSkips (s : State) (p : Nat) : Bool :=
  let ch := pageCh s p
  isFenced s (uChannel ch) || (rankOf s ch (pageRank s p)).state != 0 || s.dram.reqs.any (fun r => r.page == p && r.write)

/-- The scrub waits at a page: it has read a page of the channel less than 64 rings ago. -/
def scrubWaits (s : State) (p : Nat) : Bool :=
  let l := tget 0 s.dram.lastScrub (k1 (pageCh s p))
  l != 0 && decide (s.ran + 1 < l + 64)

/-- The next page that the scrub reads, looking at no more than `fuel` pages; the position it reaches otherwise. -/
def scrubPick (s : State) : Nat → Nat → Option Nat × Nat
  | 0, p => (none, p)
  | fuel + 1, p =>
    match nextPage s p with
    | none => (none, 0)
    | some x =>
      if scrubSkips s x then scrubPick s fuel (x + 1)
      else if scrubWaits s x then (none, x) else (some x, x + 1)

/-- The scrub has read a page (R356): the slots whose bursts needed correction are written back. -/
def scrubDone (r : DReq) (f : List (Nat × Nat × Nat)) (s : State) : State :=
  let fix := ((f.filter (fun x => x.1 == 3)).map (fun x => x.2.2 / 2)).eraseDups
  if fix.isEmpty then s else enqueueReq { cls := 5, page := r.page, write := true, slots := fix } s

/-- The scrub's writeback (R356): the bursts of its slots that could be corrected are stored correct. -/
def scrubBack (r : DReq) (s : State) : State :=
  foldS (readBursts s r) (fun b s =>
    let x := burstAt s r.page b.1 b.2
    if burstStep r.page b.1 b.2 none x = some 3 then putBurst r.page b.1 b.2 { x with flips := [] } s else s) s

/-- DRAM_SCRUB (R356): one page is read; what its bursts show is reported when the read completes. -/
def dramScrub (s : State) : State :=
  if bit s.dram.cfg 21 && s.variant != .e then
    match scrubPick s 64 s.dram.scrub with
    | (some p, pos) =>
      let s := { s with dram := { s.dram with
        scrub := pos, lastScrub := tput 0 s.dram.lastScrub (k1 (pageCh s p)) (s.ran + 1) } }
      enqueueReq { cls := 5, page := p, write := false, slots := List.range 16 } s
    | (none, pos) => { s with dram := { s.dram with scrub := pos } }
  else s

/-! ## DRAM_CFG_WRITE (R360) -/

/-- DRAM_CFG_WRITE's checks (R360). -/
def opDramCfgWrite : LOp :=
  { op := .dramCfgWrite,
    present := fun s _ => s.variant != .e,
    args := fun _ q =>
      let x := BitVec.ofNat 64 (leNat q.payload)
      firstBad [(fld x 20 1 != 0, .zeroLen), (decide (fld x 20 1 ≤ 1000000), .range), (fld x 35 22 != 0, .zeroLen),
                (decide (512 ≤ fld x 35 22), .range)] }

/-- DRAM_CFG_WRITE lands. -/
def landDramCfg (i : Item) (s : State) : Ans :=
  { st := { s with dram := { s.dram with cfg := BitVec.ofNat 64 (leNat i.req.payload % 2 ^ 36) } } }

/-! ## Meanings -/

/-- DRAM_REFRESH (R349). -/
def execDramRefresh (ch : Fin 16) (rank : Fin 2) (s : State) : Out :=
  .next (unlessHalted s (dramRefresh ch.val rank.val s))
/-- DRAM_TEMP_READ (R349, R357). -/
def execDramTempRead (ch : Fin 16) (rank : Fin 2) (temp : Int) (s : State) : Out :=
  .next (unlessHalted s (dramTemp ch.val rank.val temp s))
/-- DRAM_RETRAIN (R350). -/
def execDramRetrain (ch : Fin 16) (ok : Bool) (s : State) : Out :=
  .next (unlessHalted s (dramRetrain ch.val ok s))
/-- RANK_SELF_REFRESH (R352). -/
def execRankSelfRefresh (ch : Fin 16) (rank : Fin 2) (s : State) : Out :=
  .next (unlessHalted s (onBoundary (rankSleep ch.val rank.val) s))
/-- RANK_WAKE (R352). -/
def execRankWake (ch : Fin 16) (rank : Fin 2) (clk : Fin 1600) (s : State) : Out :=
  .next (unlessHalted s (rankWake ch.val rank.val clk.val s))
/-- HAMMER_WINDOW (R354). -/
def execHammerWindow (s : State) : Out := .next (unlessHalted s (hammerWindow s))
/-- DRAM_SCRUB (R356). -/
def execDramScrub (s : State) : Out := .next (unlessHalted s (dramScrub s))
/-- DRAM_CFG_WRITE (R360). -/
def execDramCfgWrite (q : Req) (s : State) : Out := .next (runOp opDramCfgWrite q s)

end Sys2Proof.Machine
end

