-- ==== Sys2Proof/Machine/Spill.lean ====
section
/-!
DEFINITION. Deep-buffer spill (R310 to R317): writing, reading back, the page walk and the chain walk, and what a channel's
fence does to spilled copies (R358).
-/
namespace Sys2Proof.Machine

/-! ## What the slots of a copy hold (R274, R312) -/

/-- Slots of a copy in DRAM: its descriptor and its data (R312). -/
def copySlots (c : Copy) : Nat := 1 + copyCells c

/-- The fields of a list, (width, value), one after another from bit 0. -/
def packBits : List (Nat × Nat) → Nat
  | [] => 0
  | (w, x) :: r => x % 2 ^ w + 2 ^ w * packBits r

/-- The copy descriptor and the frame record of R274, in the order of its table (log entry 104). -/
def descSlot (s : State) (c : Copy) : List Byte :=
  let f := frameOf s (copyRec c)
  let pv := c.fi.pv
  let desc := packBits [(20, (Config.recordIndex (copyRec c)).toNat), (6, c.port), (3, c.cls), (16, c.fi.action), (8, c.ord), (64, c.qRing)]
  let frame := packBits [(128, c.fi.stamp.toNat), (256, fld pv 319 64), (8, fld pv 31 24), (8, fld pv 4 0), (8, fld pv 23 16),
    (8, fld pv 15 8), (512, fld pv 831 320), (20, ((f.bind (fun f => f.cells.head?)).map Prod.fst).getD 0), (8, c.fi.copies),
    (8, (f.map Frame.onDie).getD 0)]
  leBytes 16 desc ++ leBytes 128 frame

/-- The 256-byte slots of a copy: its descriptor slot, then its data (R312). -/
def slotData (s : State) (c : Copy) : List (List Byte) :=
  let bs := withFcs false c.fi.bytes
  padTo 256 (descSlot s c) :: (List.range (copyCells c)).map (fun n => padTo 256 (slice bs (256 * n) 256))

/-- The header slot of a page (R312): the link to the next page with its version, and the first descriptor's slot. -/
def headSlot (s : State) (page : Nat) : List Byte :=
  let h : PageHead := tget {} s.dram.head (k1 page)
  padTo 256 (packLE [(4, (h.next.map (fun e => e.1 + 2 ^ 31)).getD 0), (2, (h.next.map Prod.snd).getD 0), (1, h.first)])

/-- Change the header of a page. -/
def modHead (page : Nat) (f : PageHead → PageHead) (s : State) : State :=
  { s with dram := { s.dram with head := tmod {} s.dram.head (k1 page) f } }

/-- Pass `n` slots of the DRAM portion: pages whose last slot has been read are freed (R313). -/
def passSlots (k : Key) (n : Nat) (s : State) : State :=
  let v := voqOf s k
  let rd := v.rd + n
  let gone := rd / 15
  setVoq k { v with rd := rd - 15 * gone, wr := v.wr - 15 * gone, pages := v.pages.drop gone }
    (freePages (v.pages.take gone) s)

/-! ## Writing (R312, R314) -/

/-- The whole DRAM portion was discarded: it waits for a page walk (R315). -/
def walkDue (s : State) (k : Key) : Bool :=
  let v := voqOf s k
  v.spilling && !v.dram.isEmpty && v.dram.all (fun c => c.doomed)

/-- Free pages of the spill page pool: those of the channels in service (R353). -/
def poolPages (s : State) : Nat :=
  (((List.range (nChannels s.variant)).filter (fun ch => !isFenced s (uChannel ch))).map
    (fun ch => rankFree s ch 0 + rankFree s ch 1)).foldl (· + ·) 0

/-- Writes from the VOQ are held (R314): it holds `VOQ_PAGES` pages, or no page is free. -/
def writeHeld (s : State) (k : Key) : Bool :=
  let v := voqOf s k
  v.spilling && !v.tail.isEmpty && !walkDue s k && (decide (voqPages s ≤ v.pages.length) || poolPages s == 0)

/-- Report the findings of the cells of a copy that the spill unit reads, and mark the copy (R298). -/
def readCells (c : Copy) (errs : CellErrs) (s : State) : Copy × State :=
  (List.range (copyCells c)).foldl (fun (cs : Copy × State) n => markCell (cellErr cs.2 cs.1 n errs) cs.1 cs.2) (c, s)

/-- Slots of the VOQ's pages that are not used yet. -/
def slotRoom (v : Voq) : Nat := 15 * v.pages.length - v.wr

/-- Add pages to the VOQ's chain until `want` more slots fit, as far as R314 lets it (R312): the header of the page before takes the
link. -/
def growPages (k : Key) (want : Nat) : Nat → State → State
  | 0, s => s
  | fuel + 1, s =>
    let v := voqOf s k
    if want ≤ slotRoom v ∨ voqPages s ≤ v.pages.length then s
    else
      match allocPage s with
      | none => wakeAll s
      | some (p, ver, s) =>
        let s := match v.pages.getLast? with
          | some l => modHead l.1 (fun h => { h with next := some (p, ver) }) s
          | none => s
        growPages k want fuel (setVoq k { v with pages := v.pages ++ [(p, ver)] } s)

/-- The places, among `n` slots from slot `start` of the DRAM portion on, that lie in page `j` of the chain. -/
def inPage (start n j : Nat) : List Nat := (List.range n).filter (fun i => (start + i) / 15 == j)

/-- The write request of page `j` (R312): the slots of the run that lie in it, and its header. -/
def writeReq (k : Key) (c : Copy) (start : Nat) (data : List (List Byte)) (j : Nat) (s : State) : State :=
  let pg := (voqOf s k).pages.getD j (0, 0)
  let is := inPage start data.length j
  enqueueReq { cls := 1, page := pg.1, cid := stCid c.fi.stamp, write := true, ver := pg.2, voq := k,
               slots := 0 :: is.map (fun i => (start + i) % 15 + 1),
               data := headSlot s pg.1 :: is.map (fun i => data.getD i []) } s

/-- Send the next slots of the copy at the head of the tail, as far as its pages hold them (R312, R314), from the present clock on
(R34). Pages from `old` on are new. -/
def sendSlots (k : Key) (old : Nat) (c : Copy) (s : State) : State :=
  let v := voqOf s k
  let start := v.wr
  let c := if v.part = 0 then { c with at_ := nowClk s } else c
  let data := ((slotData s c).drop v.part).take (slotRoom v)
  let d := start / 15
  let pg := (v.pages.getD d (0, 0)).1
  let s := if v.part = 0 ∧ data ≠ [] ∧ (tget {} s.dram.head (k1 pg)).first = 0 then
      modHead pg (fun h => { h with first := start % 15 + 1 }) s else s
  let whole := v.part + data.length == copySlots c
  let v' := { v with wr := v.wr + data.length, part := if whole then 0 else v.part + data.length,
                     tail := if whole then v.tail.drop 1 else c :: v.tail.drop 1,
                     writing := if whole then some c else none }
  let touched := (List.range v.pages.length).filter (fun j =>
    !(inPage start data.length j).isEmpty || (decide (old ≤ j + 1) && decide (j + 1 < v.pages.length)))
  foldS touched (writeReq k c start data) (setVoq k v' s)

/-- SPILL_WRITE: the next tail copy's descriptor and data slots are sent to DRAM pages (R312). A copy whose record or descriptor is
bad is discarded as it is read (R274). -/
def spillWrite (k : Key) (errs : CellErrs) (stores : Stores) (s : State) : State :=
  let v := voqOf s k
  match v.tail with
  | [] => voqNorm k s
  | c :: rest =>
    if !v.spilling || v.writing.isSome || walkDue s k then s
    else if v.part = 0 ∧ storesBad s c stores ≠ [] then
      let s := foldS (storesBad s c stores) (storeFinding c) (setVoq k { v with tail := rest } s)
      settle c false (dropIngress c 0 (blazeDrop c 10 0x44 0 (stPipe c.fi.stamp) s))
    else if writeHeld s k then
      toDirect k { s with buf := { s.buf with limitWait := tput false s.buf.limitWait k true } }
    else
      let (c, s) := if v.part = 0 then readCells c errs s else (c, s)
      sendSlots k v.pages.length c (growPages k (copySlots c - v.part) (copySlots c) s)

/-- The slots of a copy are written (R312): it leaves the die, it stops counting against its frame record, and its cells lose a
holder. -/
def writeDone (k : Key) (s : State) : State :=
  let v := voqOf s k
  match v.writing with
  | none => voqNorm k s
  | some c =>
    let s := setVoq k { v with writing := none, dram := v.dram ++ [c] } s
    if c.doomed then s else leaveRec c (dropHolders (copyRec c) (fun _ => true) (cnt .spillCopiesOut 0 0 1 s))

/-! ## Reading back (R313) -/

/-- VOQ number v of group g as a key. -/
def voqKey (g v : Nat) : Key := k3 g (v / 8) (v % 8)

/-- The VOQ is due for readback. -/
def readDue (s : State) (k : Key) : Bool :=
  let v := voqOf s k
  v.spilling && !v.dram.isEmpty && !v.reading && !walkDue s k && decide (cellsOf v.head + grantedLeft s k < readAhead s) &&
    (port s k.2.1).up && !groupFenced s (portGroup s k.2.1) &&
    (match v.head with | [] => true | c :: _ => creditOk s c && shareOk s c)

/-- The VOQ from which the turn of a group goes on. -/
def turnOf (s : State) (g : Nat) : Nat :=
  let t := tget 0 s.buf.turn (k1 g)
  if t = 0 then s.ring % 512 else t - 1

/-- The VOQ whose turn it is. -/
def turnVoq (s : State) (g : Nat) : Option Nat :=
  if (s.lnd.voq.any (fun e => e.1.1 == g && !e.2.dram.isEmpty)) then
    ((List.range 512).map (fun d => (turnOf s g + d) % 512)).find? (fun v => readDue s (voqKey g v))
  else none

/-- Pass over the copies at the front of the DRAM portion that are discarded already (R315). -/
def passDoomed (k : Key) : Nat → State → State
  | 0, s => s
  | fuel + 1, s =>
    match (voqOf s k).dram with
    | c :: rest =>
      if c.doomed then
        let v := voqOf s k
        passDoomed k fuel (passSlots k (copySlots c) (setVoq k { v with dram := rest } s))
      else s
    | [] => s

/-- Staging cells in use. -/
def stagingOf (s : State) (g : Nat) : List Nat := tget [] s.buf.staging (k1 g)

/-- The free staging cells of a group, lowest index first (R297; log entry 109). -/
def stagingFree (s : State) (g : Nat) : List Nat :=
  ((List.range 1024).map (fun i => 573440 + 1024 * g + i)).filter (fun x => !(stagingOf s g).contains x)

/-- Take staging cells. -/
def takeStaging (g : Nat) (l : List Nat) (s : State) : State :=
  { s with buf := { s.buf with staging := tmod [] s.buf.staging (k1 g) (· ++ l) } }
/-- Return staging cells. -/
def giveStaging (g : Nat) (l : List Nat) (s : State) : State :=
  { s with buf := { s.buf with staging := tmod [] s.buf.staging (k1 g) (·.filter (fun x => !l.contains x)) } }

/-- The staging area of a group has no room for the next copy of the VOQ whose turn it is. -/
def stageWaits (s : State) (g : Nat) : Bool :=
  match turnVoq s g with
  | none => false
  | some v =>
    match (voqOf s (voqKey g v)).dram.find? (fun c => !c.doomed) with
    | none => false
    | some c => decide ((stagingFree s g).length < copyCells c)

/-- The read request of page `j` (R313): the slots of the copy that lie in it, with the page's header when its first slot is read. -/
def readReq (k : Key) (c : Copy) (start : Nat) (j : Nat) (s : State) : State :=
  let pg := (voqOf s k).pages.getD j (0, 0)
  let is := (inPage start (copySlots c) j).map (fun i => (start + i) % 15 + 1)
  if is.isEmpty then s
  else enqueueReq { cls := 0, page := pg.1, cid := stCid c.fi.stamp, write := false, ver := pg.2, voq := k,
                    slots := if is.contains 1 then 0 :: is else is } s

/-- SPILL_READBACK: the next copy of the due VOQ whose turn it is is read into staging (R313). -/
def spillReadback (g : Nat) (s : State) : State :=
  match turnVoq s g with
  | none => s
  | some n =>
    let k := voqKey g n
    if stageWaits s g then { s with buf := { s.buf with stageWait := tput false s.buf.stageWait (k1 g) true } }
    else
      let s := passDoomed k (voqOf s k).dram.length s
      let s := { s with buf := { s.buf with turn := tput 0 s.buf.turn (k1 g) ((n + 1) % 512 + 1) } }
      let v := voqOf s k
      match v.dram with
      | [] => toDirect k s
      | c :: _ =>
        let l := (stagingFree s g).take (copyCells c)
        foldS (List.range v.pages.length) (readReq k c v.rd)
          (setVoq k { v with reading := true, stage := l } (takeStaging g l s))

/-- Discard the DRAM portion from a slot on (R313, R358): each copy with a slot at or after it, under `drop`; the pages that no copy is
left in are answered. -/
def cutDram (k : Key) (at_ : Nat) (drop : Copy → State → State) (s : State) : List Nat × State :=
  let v := voqOf s k
  let place := v.dram.foldl (fun (a : List (Copy × Nat) × Nat) c => (a.1 ++ [(c, a.2 + copySlots c)], a.2 + copySlots c))
    (([] : List (Copy × Nat)), v.rd)
  let keep := (place.1.filter (fun e => decide (e.2 ≤ at_))).map Prod.fst
  let gone := (place.1.filter (fun e => decide (at_ < e.2))).map Prod.fst
  let wr := v.rd + (keep.map copySlots).foldl (· + ·) 0
  let pages := (wr + 14) / 15
  let v' := { v with dram := keep, wr := wr, pages := v.pages.take pages }
  ((v.pages.drop pages).map Prod.fst, foldS (gone.filter (fun c => !c.doomed)) drop (setVoq k v' s))

/-- The lost copies of a bad page header or a fenced channel (R313): no discard that R291 names. -/
def readLost (c : Copy) (s : State) : State := discardSpilled .spillReadBad 0 0 6 false c s

/-- Return the orphaned pages to the pool. -/
def returnOrphans (s : State) : State :=
  let l := s.dram.orphan
  foldS l freePage { s with dram := { s.dram with orphan := [] } }

/-- What is being written when its VOQ's chain is lost: a copy with all its slots sent is lost with it, one that is partly sent goes
back to being unwritten. -/
def cutWriting (k : Key) (s : State) : State :=
  let v := voqOf s k
  let s := setVoq k { v with writing := none, part := 0 } { s with dram := { s.dram with
    reqs := s.dram.reqs.filter (fun r => !(r.cls == 1 && r.voq == k)) } }
  match v.writing with
  | none => s
  | some c => if c.doomed then s else leaveRec c (readLost c (dropHolders (copyRec c) (fun _ => true) s))

/-- A copy read back stands at the end of the head with a copy descriptor and a frame record of its own; its cells are staging cells
(R313). -/
def restoreCopy (k : Key) (c : Copy) (cells : List Nat) (s : State) : State :=
  let n := s.lnd.serial
  let f : Frame := { serial := n, cid := stCid c.fi.stamp, pool := 0, group := k.1, port := stPort c.fi.stamp, prio := c.fi.prio,
                     cells := cells.map (fun x => (x, 1)), unsettled := 0, onDie := 1, pset := none, staging := true }
  let s := { s with lnd := { s.lnd with serial := n + 1, frames := s.lnd.frames ++ [f] } }
  let v := voqOf s k
  cnt .spillCopiesBack 0 0 1 (setVoq k { v with head := v.head ++ [{ c with rcd := n + 1, bad := false }] } s)

/-- The page reads of a copy are done (R313): the checks in their order, and the copy joins the head. -/
def readDone (k : Key) (s : State) : State :=
  let v := voqOf s k
  match v.dram with
  | [] => setVoq k { v with reading := false, hdrBad := false, stage := [] } (giveStaging k.1 v.stage s)
  | c :: rest =>
    let cid := stCid c.fi.stamp
    let s := passSlots k (copySlots c) (setVoq k { v with dram := rest, reading := false, hdrBad := false, stage := [] } s)
    let back (s : State) : State := giveStaging k.1 v.stage s
    let s :=
      if c.doomed then back s
      else if stale s c then discardSpilled .cmpStaleFrames cid 0 1 true c (back s)
      else if holdOver s c then discardSpilled .lndMcHold cid 0 5 true c (back s)
      else if v.hdrBad || c.bad then readLost c (back s)
      else restoreCopy k c v.stage s
    let s := if v.hdrBad then
        let (l, s) := cutDram k (voqOf s k).rd readLost (cutWriting k s)
        foldS l freePage s
      else s
    toDirect k s

/-- What a read's bad slots mean for the copy that is read back: slot 0 is the page's header (R312, R342). -/
def markRead (r : DReq) (bad : List Nat) (s : State) : State :=
  let v := voqOf s r.voq
  setVoq r.voq { v with
    hdrBad := v.hdrBad || bad.contains 0,
    dram := match v.dram with | [] => [] | c :: rest => { c with bad := c.bad || bad.any (· != 0) } :: rest } s

/-! ## Page walk, chain walk and a channel's fence (R315, R358, R359) -/

/-- The Ranger's read of a page's header (R347, class 4). -/
def walkReq (k : Key) (p : Nat) (s : State) : State :=
  enqueueReq { cls := 4, page := p, write := false, voq := k, slots := [0] } s

/-- SPILL_PAGE_WALK: the Ranger walks the pages of a DRAM portion that was discarded whole (R315). -/
def spillPageWalk (k : Key) (s : State) : State :=
  if walkDue s k && (voqOf s k).writing.isNone && !(voqOf s k).reading && !reqsOf s 4 k then
    foldS ((voqOf s k).pages.map Prod.fst) (walkReq k) s
  else s

/-- The key under which the requests of the chain walk stand: no VOQ has it. -/
def chainKey : Key := k3 16 0 0

/-- RANGER_CHAIN_WALK: the Ranger walks the chains of the SPILLING VOQs (R358); where no page is left to walk, it is done. -/
def chainWalk (s : State) : State :=
  if s.dram.walk && !reqsOf s 4 chainKey then
    let l := (heldPages s).filter (fun p => !isFenced s (uChannel (pageCh s p)))
    if l.isEmpty then returnOrphans { s with dram := { s.dram with walk := false } } else foldS l (walkReq chainKey) s
  else s

/-- A walk has read its last page (R315, R358): the DRAM portion is freed without readback and the VOQ becomes DIRECT, or pages that
no chain reaches return to the pool. -/
def walkDone (k : Key) (s : State) : State :=
  if reqsOf s 4 k then s
  else if k = chainKey then returnOrphans { s with dram := { s.dram with walk := false } }
  else if walkDue s k && (voqOf s k).writing.isNone && !(voqOf s k).reading then
    toDirect k (setVoq k { voqOf s k with dram := [] } s)
  else s

/-- The first slot of a VOQ's DRAM portion that lies on a channel. -/
def firstOn (s : State) (ch : Nat) (v : Voq) : Option Nat :=
  (v.pages.findIdx? (fun p => pageCh s p.1 == ch)).map (fun j => 15 * j)

/-- A readback that the cut at slot `at_` reaches ends: its reads are dropped, and its staging cells return. -/
def cutReading (k : Key) (at_ : Nat) (s : State) : State :=
  let v := voqOf s k
  let n := (v.dram.head?.map copySlots).getD 0
  if v.reading && decide (at_ < v.rd + n) then
    giveStaging k.1 v.stage (setVoq k { v with reading := false, hdrBad := false, stage := [] } { s with dram := { s.dram with
      reqs := s.dram.reqs.filter (fun r => !(r.cls == 0 && r.voq == k)) } })
  else s

/-- The fence of a channel (R358): discard tokens for its requests, its pages lost, and of each VOQ the DRAM portion from
the first page on the channel. -/
def fenceChannel (ch : Nat) (s : State) : State :=
  let mine := s.dram.reqs.filter (fun r => pageCh s r.page == ch)
  let s := foldS mine (fun r s =>
    cnt .lkoSweepTokens (uChannel ch) 0 1 (cnt .dramSweepTokens r.cls 0 1 s)) s
  let s := { s with dram := { s.dram with reqs := s.dram.reqs.filter (fun r => !(pageCh s r.page == ch)), walk := true } }
  let s := cnt .dramFencePages 0 0 2097152 s
  let s := foldS s.lnd.voq (fun e s =>
    let v := voqOf s e.1
    match firstOn s ch v with
    | none => s
    | some a =>
      let at_ := max a v.rd
      let (l, s) := cutDram e.1 at_ readLost (cutWriting e.1 (cutReading e.1 at_ s))
      toDirect e.1 { s with dram := { s.dram with orphan := s.dram.orphan ++ l } }) s
  { s with dram := { s.dram with orphan := s.dram.orphan.filter (fun p => pageCh s p != ch),
                                 burst := tfilter (fun k => pageCh s k.1 != ch) s.dram.burst,
                                 head := tfilter (fun k => pageCh s k.1 != ch) s.dram.head,
                                 rows := tfilter (fun k => k.1 != ch) s.dram.rows,
                                 throttle := s.dram.throttle.filter (fun t => t.1 != ch) } }

/-- The lift of a channel (R359, R363): its pages join the allocator as free, its ranks are active, and its findings are counted
afresh (log entry 110). -/
def liftChannel (ch : Nat) (s : State) : State :=
  foldS (List.range 2) (fun r => modRank ch r (fun x => { x with state := 0, wakeAt := 0, fresh := 0, free := [], lastReq := s.ran }))
    { s with dram := { s.dram with errWin := tput 0 s.dram.errWin (k1 ch) 0 } }

/-! ## SPILL_CFG_WRITE (R317) -/

/-- The record that an 8-byte payload spells. -/
def rec64 (l : List Byte) : BitVec 64 := BitVec.ofNat 64 (leNat l)

/-- No VOQ holds a DRAM portion. -/
def noDram (s : State) : Bool := s.lnd.voq.all (fun e => e.2.dram.isEmpty && e.2.writing.isNone && e.2.pages.isEmpty)

/-- `PAGES` may take this value now (R317, R369): unchanged, or while STAGED with nothing spilled, and no tally ring lies in the
way. -/
def pagesMay (s : State) (n : Nat) : Status :=
  firstBad [(n == spillPages s || (s.md.mode == .staged && noDram s), .busy), ((tallyRuns s).all (fun r => decide (n ≤ r.1)), .noSpace)]

/-- SPILL_CFG_WRITE's checks (R317, R369). -/
def opSpillCfgWrite : LOp :=
  { op := .spillCfgWrite,
    present := fun s _ => s.variant != .e,
    args := fun s q =>
      let x := rec64 q.payload
      firstBad [(fld x 24 0 != 0, .zeroLen), (decide (fld x 24 0 < pageCount s.variant), .range),
                (fld x 48 25 != 0, .zeroLen), (decide (fld x 48 25 ≤ 16777215), .range),
                (decide (16 ≤ fld x 55 49), .range)],
    pre := fun s q => pagesMay s (fld (rec64 q.payload) 24 0) }

/-- SPILL_CFG_WRITE lands: a change of `PAGES` finds every page free; where it may no longer be made it is left out (log entry
111). -/
def landSpillCfg (i : Item) (s : State) : Ans :=
  let x := rec64 i.req.payload
  let n := fld x 24 0
  let set (x : BitVec 64) (s : State) : State := { s with buf := { s.buf with spill := BitVec.ofNat 64 (x.toNat % 2 ^ 56) } }
  if n = spillPages s then { st := set x s }
  else if pagesMay s n = .ok then
    let s := set x s
    { st := { s with dram := { s.dram with rank := tkeep {} (fun x => { x with fresh := 0, free := [] }) s.dram.rank } } }
  else { st := set (setFld x 24 0 (spillPages s)) s }

/-! ## Rings of waiting (R313, R314) -/

/-- Note for the ring in progress which VOQs' writes are held (R314) and which groups' readback waits for staging cells (R313). -/
def spillMark (s : State) : State :=
  let held := (s.lnd.voq.map Prod.fst).filter (writeHeld s)
  let wait := (List.range 16).filter (stageWaits s)
  { s with buf := { s.buf with
    limitWait := held.foldl (fun t k => tput false t k true) s.buf.limitWait,
    stageWait := wait.foldl (fun t g => tput false t (k1 g) true) s.buf.stageWait } }

/-- The ring ends: the VOQs and groups that waited in it are counted (R313, R314). -/
def spillWaits (s : State) : State :=
  let s := spillMark s
  let n := s.buf.limitWait.length
  let t := if n = 0 then s else cnt .spillLimitWait 0 0 n s
  let t := foldS s.buf.stageWait (fun e => cnt .spillStageWait e.1.1 0 1) t
  { t with buf := { t.buf with limitWait := [], stageWait := [] } }

/-! ## Meanings -/

/-- CELL_SLOT (R282). -/
def execCellSlot (slot : Fin 160) (errs : List (Fin 655360 × Bool)) (s : State) : Out :=
  .next (unlessHalted s (spillMark (cellSlot slot.val errs s)))
/-- SPILL_WRITE (R312). -/
def execSpillWrite (group : Fin 16) (port : Fin 64) (cls : Fin 8) (errs : StoreErrs) (s : State) : Out :=
  .next (unlessHalted s (spillMark (spillWrite (k3 group.val port.val cls.val) errs.cells errs.recs s)))
/-- SPILL_READBACK (R313). -/
def execSpillReadback (group : Fin 16) (s : State) : Out := .next (unlessHalted s (spillMark (spillReadback group.val s)))
/-- SPILL_PAGE_WALK (R315). -/
def execSpillPageWalk (group : Fin 16) (port : Fin 64) (cls : Fin 8) (s : State) : Out :=
  .next (unlessHalted s (spillPageWalk (k3 group.val port.val cls.val) s))
/-- RANGER_CHAIN_WALK (R358). -/
def execRangerChainWalk (s : State) : Out := .next (unlessHalted s (chainWalk s))
/-- SPILL_CFG_WRITE (R317). -/
def execSpillCfgWrite (q : Req) (s : State) : Out := .next (runOp opSpillCfgWrite q s)

end Sys2Proof.Machine
end

