-- ==== Sys2Proof/Machine/Tally.lean ====
section
/-!
DEFINITION. Tally ring capture and check units (R364 to R384).
-/
namespace Sys2Proof.Machine

/-! ## Check units (R378 to R383) -/

/-- Check unit `u`. -/
def cvOf (s : State) (u : Nat) : Cv := tget {} s.cap.cv (k1 u)
/-- Change check unit `u`. -/
def modCv (u : Nat) (f : Cv → Cv) (s : State) : State :=
  { s with cap := { s.cap with cv := tmod {} s.cap.cv (k1 u) f } }

/-- The low `w` bits of a number in reverse order. -/
def revBits : Nat → Nat → Nat
  | 0, _ => 0
  | w + 1, x => (x % 2) * 2 ^ w + revBits w (x / 2)

/-- One bit of the register update (R381). -/
def cvBit (w poly reg d : Nat) : Nat :=
  let top := (reg / 2 ^ (w - 1)) % 2 ^^^ d
  let r := (reg * 2) % 2 ^ w
  if top = 1 then r ^^^ poly else r

/-- One byte of the register update (R381). -/
def cvByte (w poly : Nat) (refin : Bool) (reg : Nat) (b : Byte) : Nat :=
  let d := if refin then revBits 8 b.toNat else b.toNat
  [7, 6, 5, 4, 3, 2, 1, 0].foldl (fun r i => cvBit w poly r (d / 2 ^ i % 2)) reg

/-- The fields of `CV.CFG` (R380). -/
def cvWidth (c : Cv) : Nat := fld c.cfg 25 19
def cvPoly (c : Cv) : Nat := fld c.cfg 127 64
def cvInit (c : Cv) : Nat := fld c.cfg 191 128

/-- finish(reg) of R381. -/
def cvFinish (c : Cv) (reg : Nat) : Nat :=
  (if bit c.cfg 18 then revBits (cvWidth c) reg else reg) ^^^ fld c.cfg 255 192

/-- The bytes that a unit takes of a frame or record (R380). -/
def cvBytes (c : Cv) (l : List Byte) : List Byte := slice l (fld c.cfg 39 26) (fld c.cfg 53 40)

/-- A unit takes a frame (R381): it counts every frame, and a frame with no byte in range changes nothing else. -/
def cvTake (c : Cv) (l : List Byte) : Cv :=
  let bs := cvBytes c l
  let c := { c with frames := (c.frames + 1) % 2 ^ 32 }
  if bs.isEmpty then c
  else
    let start := if bit c.cfg 16 then c.reg else cvInit c
    let reg := bs.foldl (cvByte (cvWidth c) (cvPoly c) (bit c.cfg 17)) start
    let fin := cvFinish c reg
    { c with reg := reg, last := fin, xsum := if bit c.cfg 16 then 0 else c.xsum ^^^ fin,
             bytes := (c.bytes + bs.length) % 2 ^ 64 }

/-- The unit takes what passes a point now (R379, R382). -/
def cvSees (s : State) (c : Cv) (point port cls cid : Nat) : Bool :=
  c.armed && c.owner == cid && decide (c.start ≤ s.ring) && decide (s.ring < c.start + c.dur) &&
    fld c.cfg 1 0 == point && (point == 3 || fld c.cfg 7 2 == port) && (fld c.cfg 15 8).testBit cls &&
    !(cmpOf s cid).frozen

/-- Offer the bytes of a frame or record to every check unit at a point (R379). -/
def cvOffer (point port cls cid : Nat) (l : List Byte) (s : State) : State :=
  if s.cap.cv.any (fun e => cvSees s e.2 point port cls cid) then
    { s with cap := { s.cap with cv := s.cap.cv.map (fun e =>
        if cvSees s e.2 point port cls cid then (e.1, cvTake e.2 l) else e) } }
  else s

/-- `CV.RESULT` (R383) as 32 bytes. -/
def cvResult (c : Cv) : List Byte :=
  packLE [(8, c.last), (8, c.xsum), (4, c.frames), (8, c.bytes), (4, b2n c.armed + 2 * b2n c.done)]

/-- The end of the window (R382). -/
def cvWindowEnd (u : Nat) (s : State) : State :=
  let c := cvOf s u
  if c.armed && decide (c.start + c.dur ≤ s.ring) then modCv u (fun c => { c with armed := false, done := true }) s
  else s

/-- The unit is the sender's, or the number names none (R378). -/
def cvOwns (u : Req → Nat) (s : State) (q : Req) : Bool := decide (16 ≤ u q) || (cvOf s (u q)).owner == q.c

/-- CV_ASSIGN's checks (R378). -/
def opCvAssign : LOp :=
  { op := .cvAssign, args := fun s q => if cmpDefined s (q.a1 12 8) then .ok else .range,
    pre := fun s q => if (cvOf s (q.a1 3 0)).armed then .busy else .ok }

/-- CV_ASSIGN lands. -/
def landCvAssign (i : Item) (s : State) : Ans :=
  { st := modCv (i.req.a1 3 0) (fun c => { c with owner := i.req.a1 12 8 }) s, ring := s.ring }

/-- The fields of a `CV.CFG` record (R380). -/
def cvCfgCheck (x : BitVec 256) : Status :=
  let w := fld x 25 19
  firstBad [(fld x 15 8 != 0, .zeroLen), (w != 0, .zeroLen), (decide (w ≤ 64), .range),
            (decide (fld x 39 26 ≤ 9215), .range), (fld x 53 40 != 0, .zeroLen), (decide (fld x 53 40 ≤ 9216), .range),
            (decide (fld x 127 64 < 2 ^ w), .range), (decide (fld x 191 128 < 2 ^ w), .range),
            (decide (fld x 255 192 < 2 ^ w), .range)]

/-- CV_CFG_WRITE (R380). -/
def opCvCfgWrite : LOp :=
  { op := .cvCfgWrite, owns := cvOwns (fun q => q.arg1.toNat),
    args := fun _ q =>
      if q.arg1.toNat < 16 then cvCfgCheck (BitVec.ofNat 256 (leNat q.payload)) else .range,
    pre := fun s q => if (cvOf s q.arg1.toNat).armed then .busy else .ok,
    now := fun s q =>
      let x := BitVec.ofNat 256 (leNat q.payload)
      { st := modCv q.arg1.toNat (fun c => { c with cfg := setFld x 63 54 0 }) s, ring := s.ring } }

/-- CV_ARM's checks (R382). -/
def opCvArm : LOp :=
  { op := .cvArm, owns := cvOwns (fun q => q.a1 31 28),
    args := fun _ q => firstBad [(q.a1 26 0 != 0, .zeroLen), (decide (q.a1 26 0 ≤ 100000000), .range)],
    pre := fun s q => if (cvOf s (q.a1 31 28)).armed then .busy else .ok }

/-- CV_ARM lands at its start ring (R382): the result is cleared, the register takes `INIT`. -/
def landCvArm (i : Item) (s : State) : Ans :=
  { st := modCv (i.req.a1 31 28) (fun c =>
      { c with
        reg := cvInit c, last := 0, xsum := 0, frames := 0, bytes := 0, armed := true, done := false,
        start := i.due, dur := i.req.a1 26 0 }) s }

/-- CV_DISARM (R382). -/
def opCvDisarm : LOp :=
  { op := .cvDisarm, owns := cvOwns (fun q => q.arg1.toNat),
    args := fun _ q => if q.arg1.toNat < 16 then .ok else .range,
    now := fun s q => { st := modCv q.arg1.toNat (fun c => { c with armed := false, done := false }) s, ring := s.ring } }

/-- CV_READ (R383). -/
def opCvRead : LOp :=
  { op := .cvRead, snap := true, owns := cvOwns (fun q => q.arg1.toNat),
    args := fun _ q => if q.arg1.toNat < 16 then .ok else .range,
    now := fun s q => { st := s, ring := s.ring, data := cvResult (cvOf s q.arg1.toNat) } }

/-! ## Tally rings (R364 to R377) -/

/-- The tally ring of a compartment. -/
def tlyOf (s : State) (c : Nat) : Tly := tget {} s.cap.tly (k1 c)
/-- Change the tally ring of a compartment. -/
def modTly (c : Nat) (f : Tly → Tly) (s : State) : State :=
  { s with cap := { s.cap with tly := tmod {} s.cap.tly (k1 c) f } }

/-- `TALLY.CFG` fields (R368) and the capacity N (R370). -/
def tlyPages (t : Tly) : Nat := fld t.cfg 27 8
def tlyN (t : Tly) : Nat := tlyPages t * 16
def tlyOverrun (t : Tly) : Bool := bit t.cfg 2

/-- OLDEST (R370). -/
def tlyOldest (t : Tly) : Nat := if tlyOverrun t then max t.released (t.next - tlyN t) else t.released

/-- Forget the records below OLDEST. -/
def tlyTrim (t : Tly) : Tly :=
  { t with recs := t.recs.filter (fun e => decide (tlyOldest t ≤ e.1)), lost := t.lost.filter (fun n => decide (tlyOldest t ≤ n)) }

/-- The page of record `n`, and the version in its DRAM tag (R370). -/
def tlyPage (t : Tly) (n : Nat) : Nat := t.base + n / 16 % max 1 (tlyPages t)
def tlyVer (t : Tly) (n : Nat) : Nat := n / tlyN t % 65536

/-- A tally page lies on a fenced channel (R375). -/
def tlyFenced (s : State) (page : Nat) : Bool := s.variant != .e && isFenced s (uChannel (pageCh s page))

/-- The snap length (R368). -/
def tlySnap (t : Tly) : Nat := 64 * (fld t.cfg 4 3 + 1)

/-- The key under which the tally writes of an ingress pipeline's records stand at the DRAM front end. -/
def pipeKey (pipe : Nat) : Key := k3 pipe 0 0

/-- Records in the staging of an ingress pipeline: those not taken yet, and those whose writes DRAM has not done (R371). -/
def stagedIn (s : State) (pipe : Nat) : Nat :=
  (tget [] s.cap.staging (k1 pipe)).length + (s.dram.reqs.filter (fun r => r.cls == 2 && r.voq == pipeKey pipe)).length

/-- Take a capture into the staging of an ingress pipeline (R371). -/
def stageCapture (pipe : Nat) (r : TRec) (s : State) : State :=
  let l := tget [] s.cap.staging (k1 pipe)
  if 256 ≤ stagedIn s pipe then cnt .tallyStageDrop r.cid 0 1 s
  else
    cnt .tallyCaptured r.cid 0 1 { s with cap := { s.cap with staging := tput [] s.cap.staging (k1 pipe) (l ++ [r]) } }

/-- The captures whose frames have passed stage 4 by a clock are taken, each at its own clock (R365). -/
def stageDue (limit : Nat) (s : State) : State :=
  let l := sortBy (fun a b => decide (a.at_ < b.at_)) (s.cap.due.filter (fun d => decide (d.at_ ≤ limit)))
  foldS l (fun d => stageCapture d.pipe d.tr)
    { s with cap := { s.cap with due := s.cap.due.filter (fun d => decide (limit < d.at_)) } }

/-- A record with its sequence number. -/
def recSeq (b : List Byte) (n : Nat) : List Byte := b.take 24 ++ leBytes 8 n ++ b.drop 32

/-- Write one staged record of an ingress pipeline (R371, R374, R375). -/
def writeTally (pipe : Nat) (r : TRec) (s : State) : State :=
  let c := r.cid
  let t := tlyOf s c
  if r.rotation ≠ (cmpOf s c).rotation.toNat then cnt .tallyStale c 0 1 s
  else if !bit t.cfg 0 || tlyN t == 0 then s
  else if !tlyOverrun t && decide (tlyN t ≤ t.next - t.released) then
    cnt .tallyDropFull c 0 1 (modTly c (fun t => { t with drops := t.drops + 1 }) s)
  else
    let n := t.next
    let b := recSeq r.bytes n
    let page := tlyPage t n
    let s := if tlyN t ≤ n ∧ t.released ≤ n - tlyN t then cnt .tallyOverwritten c 0 1 s else s
    let gone := tlyFenced s page
    let lost := if gone then t.lost ++ [n] else t.lost
    let s := modTly c (fun t => tlyTrim { t with next := n + 1, recs := t.recs ++ [(n, b)], lost := lost }) s
    let s := if gone then cnt .tallyLost c 0 1 s
      else if s.variant = .e then s
      else enqueueReq { cls := 2, page := page, cid := c, write := true, slots := [n % 16], ver := tlyVer t n,
                        data := [padTo 256 b], voq := pipeKey pipe } s
    cvOffer 3 0 ((b.getD 42 0).toNat % 8) c b s

/-- The records of a compartment in staging that the writer has not taken. -/
def stagedOf (s : State) (c : Nat) : Nat :=
  (s.cap.staging.map (fun e => (e.2.filter (fun r => r.cid == c)).length)).foldl (· + ·) 0

/-- TALLY_WRITE (R371): the staging of a compartment is emptied, pipeline by pipeline, when 16 of its records are staged and at a
ring boundary. -/
def tallyWrite (c : Nat) (s : State) : State :=
  let s := stageDue (nowClk s) s
  if stagedOf s c < 16 && !atBoundary s then s
  else foldS (List.range 8) (fun p s =>
    let l := tget [] s.cap.staging (k1 p)
    let mine := l.filter (fun r => r.cid == c)
    if mine.isEmpty then s
    else foldS mine (writeTally p) { s with cap := { s.cap with
      staging := tput [] s.cap.staging (k1 p) (l.filter (fun r => r.cid != c)) } }) s

/-- TALLY_FULL of the finished ring (R376). -/
def tallyEvents (ring : Nat) (s : State) : State :=
  foldS s.cap.tly (fun e s =>
    let c := e.1.1
    let t := tlyOf s c
    if t.drops = 0 then s
    else
      post c 0x0B01 (packLE [(8, ring), (4, t.drops), (4, 0), (8, t.next), (8, t.released)])
        (modTly c (fun t => { t with drops := 0 }) s)) s

/-- The rotation change of a compartment (R374). -/
def tallyRotate (c : Nat) (s : State) : State :=
  let n := stagedOf s c
  let s := cnt .tallyStale c 0 n { s with cap := { s.cap with
    staging := (s.cap.staging.map (fun e => (e.1, e.2.filter (fun r => r.cid != c)))).filter (fun e => !e.2.isEmpty) } }
  modTly c (fun t => { t with released := t.next, recs := [], lost := [], drops := 0 }) s

/-- TALLY_CFG_WRITE's checks (R368). -/
def opTallyCfgWrite : LOp :=
  { op := .tallyCfgWrite,
    args := fun _ q => if fld (rec64 q.payload) 4 3 = 3 then .range else .ok,
    pre := fun s q => if bit (rec64 q.payload) 0 && tlyPages (tlyOf s q.c) == 0 then .noSpace else .ok }

/-- TALLY_CFG_WRITE lands: the owner's fields alone. -/
def landTallyCfg (i : Item) (s : State) : Ans :=
  { st := modTly i.req.c (fun t => { t with cfg := setFld t.cfg 4 0 (leNat i.req.payload) }) s }

/-- The tally area (R367): first page and end. -/
def tallyArea (s : State) : Nat × Nat := if s.variant = .e then (0, 256) else (spillPages s, pageCount s.variant)

/-- The lowest free run of `n` pages for a compartment (R369): it starts at the area's start or behind another run. -/
def tallyPlace (s : State) (c n : Nat) : Option Nat :=
  let (lo, hi) := tallyArea s
  let runs := s.cap.tly.filterMap (fun e =>
    if e.1.1 = c ∨ tlyPages e.2 = 0 then none else some (e.2.base, tlyPages e.2))
  let free (b : Nat) : Bool :=
    decide (lo ≤ b) && decide (b + n ≤ hi) && runs.all (fun r => decide (b + n ≤ r.1) || decide (r.1 + r.2 ≤ b))
  ((lo :: runs.map (fun r => r.1 + r.2)).filter free).foldl
    (fun m x => match m with | none => some x | some y => some (min x y)) none

/-- TALLY_PAGES_WRITE's checks (R369). -/
def opTallyPagesWrite : LOp :=
  { op := .tallyPagesWrite,
    args := fun s q =>
      let n := fld (rec64 q.payload) 27 8
      firstBad [(decide (q.arg1.toNat < 32) && cmpDefined s q.arg1.toNat, .range), (n != 0, .zeroLen)],
    pre := fun s q =>
      let c := q.arg1.toNat
      firstBad [(!bit (tlyOf s c).cfg 0, .busy), ((tallyPlace s c (fld (rec64 q.payload) 27 8)).isSome, .noSpace)] }

/-- TALLY_PAGES_WRITE lands: the ring is placed, emptied, and its pointers are 0 (R369). -/
def landTallyPages (i : Item) (s : State) : Ans :=
  let c := i.req.arg1.toNat
  let n := fld (rec64 i.req.payload) 27 8
  if bit (tlyOf s c).cfg 0 then refuse .busy s
  else
    match tallyPlace s c n with
    | none => refuse .noSpace s
    | some b =>
      { st := modTly c (fun t =>
          { t with cfg := setFld t.cfg 27 8 n, base := b, next := 0, released := 0, recs := [], lost := [] }) s,
        ring := s.ring }

/-! ## Reading (R372, R373, R375, R430) -/

/-- A record that is delivered without its contents (R375): `SEQ` and `STATUS` alone. -/
def zeroRec (n st : Nat) : List Byte := zeros 24 ++ leBytes 8 n ++ zeros 14 ++ [BitVec.ofNat 8 st] ++ zeros 209

/-- A record that the tally ring holds. -/
def recAt (t : Tly) (n : Nat) : List Byte := ((t.recs.find? (fun e => e.1 == n)).map Prod.snd).getD (zeroRec n 2)

/-- TALLY_READ's checks (R372, R430). -/
def opTallyRead : LOp :=
  { op := .tallyRead,
    args := fun s q => firstBad [
      (q.a1 12 0 != 0, .zeroLen), (decide (q.a1 12 0 ≤ 4096), .range), (decide (q.t ≤ (tlyOf (atSnap s) q.c).next), .range)],
    pre := fun _ q => if 32 + 256 * q.a1 12 0 ≤ q.outLen.toNat then .ok else .noSpace }

/-- A read before its next record (R373): where its records have been overwritten, it starts again at OLDEST; where the ring was
emptied, it ends. -/
def readAgain (t : Tly) (j : TlyRead) : TlyRead :=
  if j.pos < tlyOldest t then
    let first := tlyOldest t
    { j with first := first, pos := first, stop := first + min (j.req.a1 12 0) (j.next - first), got := [] }
  else { j with stop := min j.stop t.next }

/-- A read is done: records are released, and the command is answered with OLDEST and NEXT of the boundary of ring v (R372, R420, R430). -/
def readEnd (j : TlyRead) (s : State) : State :=
  let q := j.req
  let n := j.got.length
  let s' := if bit q.arg1 31 && decide (0 < n) then
      modTly q.c (fun t => tlyTrim { t with released := max t.released (j.first + n) }) s else s
  answerLater .tallyRead q j.v j.sec s
    { st := s', ring := j.v, count := n,
      data := packLE [(8, j.first), (8, n), (8, j.oldest), (8, j.next)] ++ j.got.flatMap id }

/-- Replace the first read of a compartment: its stream serves one read at a time (R347). -/
def setRead (c : Nat) (x : Option TlyRead) (s : State) : State :=
  let l := s.cap.reads
  let l := l.takeWhile (fun j => j.req.c != c) ++ x.toList ++ (l.dropWhile (fun j => j.req.c != c)).drop 1
  { s with cap := { s.cap with reads := l } }

/-- The records from `n` on that lie on one page and can be read: at most up to `stop`. -/
def pageRun (t : Tly) (n stop : Nat) : List Nat :=
  ((List.range (16 - n % 16)).map (n + ·)).takeWhile (fun x => decide (x < stop) && !t.lost.contains x)

/-- The read stream of a compartment goes on until it waits for a page, or has no read left (R347, R372). -/
def readOn (c : Nat) : Nat → State → State
  | 0, s => s
  | fuel + 1, s =>
    if s.dram.reqs.any (fun r => r.cls == 3 && r.cid == c) then s
    else
      match s.cap.reads.find? (fun j => j.req.c == c) with
      | none => s
      | some j =>
        let t := tlyOf s c
        let j := readAgain t j
        if j.stop ≤ j.pos then readOn c fuel (readEnd j (setRead c none s))
        else
          let run := pageRun t j.pos j.stop
          if run.isEmpty then readOn c fuel (setRead c (some { j with pos := j.pos + 1, got := j.got ++ [zeroRec j.pos 2] }) s)
          else if s.variant = .e then
            readOn c fuel (setRead c (some { j with pos := j.pos + run.length, got := j.got ++ run.map (recAt t) }) s)
          else
            enqueueReq { cls := 3, page := tlyPage t j.pos, cid := c, write := false, slots := run.map (· % 16),
                         ver := tlyVer t j.pos, data := run.map (recAt t) } (setRead c (some j) s)

/-- Enough turns for a compartment's stream: a turn takes a page's records, one lost record, or ends a read. -/
def readFuel (s : State) : Nat := 4097 * (s.cap.reads.length + 1)

/-- The read streams that wait for nothing go on. -/
def readAll (s : State) : State := foldS allCids (fun c s => readOn c (readFuel s) s) s

/-- TALLY_READ (R372, R373): a read that passes its checks joins its compartment's stream. `clk` is the clock at which its first
request reaches the DRAM front end (R347, R352). -/
def runTallyRead (q : Req) (clk : Nat) (s : State) : State :=
  let v := vOf s q .tallyRead
  if served s q && admission opTallyRead v s q == .ok then
    let (sec, s) := takeSec q s
    let t := tlyOf (atSnap s) q.c
    let first := max q.t (tlyOldest t)
    let j : TlyRead := { req := q, v := v, sec := sec, first := first, pos := first, stop := first + min (q.a1 12 0) (t.next - first),
                         oldest := tlyOldest t, next := t.next }
    let s := { s with clock := clk, cap := { s.cap with reads := s.cap.reads ++ [j] } }
    readOn q.c (readFuel s) s
  else runOp opTallyRead q s

/-- The records of a page have been read for a stream (R372, R375): those with a bad burst are delivered empty. -/
def readGot (r : DReq) (bad : List Nat) (s : State) : State :=
  match s.cap.reads.find? (fun j => j.req.c == r.cid) with
  | none => s
  | some j =>
    let l := (r.slots.zip r.data).mapIdx (fun i e => if bad.contains e.1 then zeroRec (j.pos + i) 1 else e.2)
    let s := setRead r.cid (some { j with pos := j.pos + l.length, got := j.got ++ l }) s
    readOn r.cid (readFuel s) s

/-- Reads are dropped, with what the streams of their compartments wait for. -/
def dropReads (p : TlyRead → Bool) (s : State) : State :=
  let gone := (s.cap.reads.filter p).map (fun j => j.req.c)
  readAll { s with cap := { s.cap with reads := s.cap.reads.filter (fun j => !p j) },
                   dram := { s.dram with reqs := s.dram.reqs.filter (fun r => !(r.cls == 3 && gone.contains r.cid)) } }

/-- Records on the pages of a channel that is fenced are lost (R358, R375), and the reads that waited for them go on. -/
def tallyFence (ch : Nat) (s : State) : State :=
  let gone (t : Tly) : List Nat :=
    (t.recs.map Prod.fst).filter (fun n => pageCh s (tlyPage t n) == ch && !t.lost.contains n)
  readAll { s with cap := { s.cap with tly := s.cap.tly.map (fun e => (e.1, { e.2 with lost := e.2.lost ++ gone e.2 })) } }

/-- What waits is of the command read with this opcode and tag: it, or, for SECURED, the command that it carries (R399). -/
def carries (op : Nat) (tag : BitVec 32) (q : Req) (sec : Option SecOpen) : Bool :=
  if q.inner then op == 0x0E01 && sec.any (fun x => x.tag == tag) else op != 0x0E01 && q.tag == tag

/-- A command that has not reached its commit point within `TIMEOUT` rings of v is abandoned (R400): what waits of it
is dropped, and its response has status TIMEOUT. -/
def commandTimeout (c : Nat) (tag : BitVec 32) (s : State) : State :=
  match (mbxOf s c).reads.find? (fun e => e.tag = tag && e.ans.isNone) with
  | some e =>
    if e.v + (mbxOf s c).timeout < s.ring then
      let mine (q : Req) (sec : Option SecOpen) : Bool := q.c == c && carries e.op tag q sec
      let s := dropReads (fun j => mine j.req j.sec) { s with
        items := s.items.filter (fun i => !(i.rsp && mine i.req i.sec)),
        grv := { s.grv with jobs := s.grv.jobs.filter (fun j => !mine j.req j.sec) } }
      let s := if e.op = 0x0E01 then modMbx c (fun m => { m with secOpen := m.secOpen.filter (fun x => x.tag != tag) }) s else s
      deliver c { rsp := { op := e.op, status := .timeout, tag := tag, v := e.v } } s
    else s
  | none => s

/-! ## DRAM_PAGE_DONE (R346 to R355) -/

/-- The spans of a ring of the run, each with its first clock and the clock after its last, in which a channel pauses or a rank is
refreshed (R349, R350). -/
def dramBars (s : State) (ch rk r : Nat) : List (Nat × Nat) :=
  let n := if r ≤ s.ran then s.ring - (s.ran - r) else s.ring + (r - s.ran)
  (if pauseIn ch n then [(1600 * r + 1000, 1600 * r + 1320)] else []) ++
    (if refreshIn s ch rk n then [(1600 * r + 800 * rk, 1600 * r + 800 * rk + 312)] else [])

/-- The first clock from `t` on with `n` clocks that no span bars. -/
def clearFrom (bars : List (Nat × Nat)) (n : Nat) : Nat → Nat → Nat
  | 0, t => t
  | fuel + 1, t =>
    match bars.find? (fun b => decide (t < b.2) && decide (b.1 < t + n)) with
    | some b => clearFrom bars n fuel b.2
    | none => t

/-- A tally write waits for a read of its page that came before it, and a read for a write (R373). -/
def tallyWaits (s : State) (r : DReq) : Bool :=
  (r.cls == 2 || r.cls == 3) && s.dram.reqs.any (fun x => x.page == r.page && x.cls + r.cls == 5 && (x.cls == 2 || x.cls == 3) &&
    decide (x.id < r.id))

/-- The direction of a request: 1 read, 2 write. -/
def dramDir (r : DReq) : Nat := if r.write then 2 else 1

/-- The clocks that a channel needs to switch to the direction of a request (R348): at most 32, a free value. -/
def turnCost (s : State) (ch : Nat) (r : DReq) : Nat :=
  let d := tget 0 s.dram.dir (k1 ch)
  if d = 0 ∨ d = dramDir r then 0 else Config.turnClocks ch (tget 0 s.dram.busy (k1 ch)) % 33

/-- The clocks of a request: 8 for each slot, two bursts in each sub-channel (R348). -/
def dramClocks (r : DReq) : Nat := 8 * r.slots.length

/-- The clock at which a request can begin on its channel (R347 to R355): it has arrived, the channel has ended the request before and
switched, its rank accepts requests, its throttle lets it, and no refresh and no pause falls into its clocks. A read for a spilling
VOQ ends 1,120 clocks after the copy was given to the spill unit at the earliest (R34). -/
def dramStart (s : State) (ch : Nat) (r : DReq) : Nat :=
  let rk := pageRank s r.page
  let busy := tget 0 s.dram.busy (k1 ch) + turnCost s ch r
  let held := match throttleOf s r.cls r.cid r.page with | some x => 1600 * (x + 16) | none => 0
  let back := if r.cls = 0 then (((voqOf s r.voq).dram.head?.map Copy.at_).getD 0 + 1120) - dramClocks r else 0
  let t := max (max r.at_ busy) (max (rankOf s ch rk).wakeAt (max held back))
  clearFrom ((List.range 4).flatMap (fun d => dramBars s ch rk (t / 1600 + d))) (dramClocks r) 8 t

/-- The requests that channel `ch` can take: on an awake rank, and not behind another of their page. -/
def dramReady (s : State) (ch : Nat) : List DReq :=
  s.dram.reqs.filter (fun r => pageCh s r.page == ch && (rankOf s ch (pageRank s r.page)).state == 0 && !tallyWaits s r)

/-- The clock at which the first of a list of requests can begin. -/
def firstStart (s : State) (ch : Nat) (l : List DReq) : Nat :=
  match l.map (dramStart s ch) with | [] => 0 | t :: r => r.foldl min t

/-- The requests among which the channel chooses: those that wait, in one direction only once it has switched four times in the ring
while reads and writes both wait (R348). -/
def dramCands (s : State) (ch : Nat) : List DReq :=
  let l := dramReady s ch
  let wait := l.filter (fun r => decide (r.at_ ≤ firstStart s ch l))
  let same := wait.filter (fun r => dramDir r == tget 0 s.dram.dir (k1 ch))
  if 4 ≤ tget 0 s.dram.turns (k1 ch) ∧ same ≠ [] ∧ wait.any (fun r => dramDir r != tget 0 s.dram.dir (k1 ch)) then same else l

/-- A request is one of those that can begin when the channel takes its next one. -/
def servable (s : State) (ch : Nat) (r : DReq) : Bool :=
  (dramCands s ch).contains r && decide (dramStart s ch r ≤ firstStart s ch (dramCands s ch))

/-- The next spill request within the entitlement of its class, or beyond it (R347): reads and writes alternate. -/
def nextSpill (s : State) (ch : Nat) (l : List DReq) (within : Bool) : Option DReq :=
  let pick (c : Nat) : Option DReq := if decide (tget 0 s.dram.served (k2 ch c) < 4) == within then l.find? (fun r => r.cls == c) else none
  match pick 0, pick 1 with
  | some a, some b => if tget 0 s.dram.last (k1 ch) = 1 then some b else some a
  | some a, none => some a
  | none, x => x

/-- The request that channel `ch` takes next, in the order of R347. -/
def nextServe (s : State) (ch : Nat) : Option DReq :=
  let l := s.dram.reqs.filter (servable s ch)
  let first (c : Nat) : Option DReq := l.find? (fun r => r.cls == c)
  [nextSpill s ch l true, first 2, nextSpill s ch l false, first 3, first 4, first 5].findSome? id

/-- The request that channel `ch` has served by now: the next one, where its last clock has passed. -/
def servedNow (s : State) (ch : Nat) : Option DReq :=
  (nextServe s ch).filter (fun r => decide (dramStart s ch r + dramClocks r ≤ nowClk s))

/-- The channel has served a request: its row was activated, the channel was busy up to the request's last clock, and the entitlement
and the direction are noted (R347, R348). -/
def channelTake (ch : Nat) (r : DReq) (s : State) : State :=
  let turn := tget 0 s.dram.dir (k1 ch) != 0 && tget 0 s.dram.dir (k1 ch) != dramDir r
  let cost := turnCost s ch r
  let s := { s with dram := { s.dram with
    reqs := s.dram.reqs.filter (fun x => x.id ≠ r.id),
    served := tmod 0 s.dram.served (k2 ch r.cls) (· + 1),
    busy := tput 0 s.dram.busy (k1 ch) (dramStart s ch r + dramClocks r),
    dir := tput 0 s.dram.dir (k1 ch) (dramDir r),
    turns := tmod 0 s.dram.turns (k1 ch) (· + b2n turn),
    last := if r.cls ≤ 1 then tput 0 s.dram.last (k1 ch) (r.cls + 1) else s.dram.last } }
  let s := if cost = 0 then s else progEvt (uChannel ch) 0x62 255 0 cost s
  progEvt (uChannel ch) (if r.write then 0x61 else 0x60) 255 (2 ^ r.cls) 1 (activate r.cls r.cid r.page s)

/-- A write is done (R344): its slots are stored with their tags. -/
def writeServed (r : DReq) (s : State) : State :=
  if r.cls = 5 then scrubBack r s
  else
    let s := dropBack r.page (foldS (r.slots.zip r.data) (fun e => writeSlot r.page r.ver e.1 e.2) s)
    if r.cls = 1 ∧ reqsOf s 1 r.voq = false then toDirect r.voq (writeDone r.voq s) else s

/-- A read is done (R346): its bursts are checked, and its requester takes what it found. -/
def readServed (r : DReq) (errs : Bursts) (s : State) : State :=
  let (f, s) := readPage r errs s
  match r.cls with
  | 0 =>
    let s := markRead r (badSlots f) s
    if reqsOf s 0 r.voq then s else readDone r.voq s
  | 3 => readGot r (badSlots f) s
  | 4 => walkDone r.voq s
  | _ => scrubDone r f s

/-- DRAM_PAGE_DONE: by clock `clk` channel `ch` has served its next request (R347, R348; log entry 107), whose bursts meet the new
errors `errs`. `fault` is a fault of the shared front end (R357). -/
def pageDone (ch clk : Nat) (fault : Bool) (errs : Bursts) (s : State) : State :=
  let s := stageDue (clkOf s clk) { s with clock := clk }
  if fault then restartFault 0x44 0x0C03 255 [] s
  else if !chLive s ch then s
  else
    match servedNow s ch with
    | none => s
    | some r => if r.write then writeServed r (channelTake ch r s) else readServed r errs (channelTake ch r s)

/-! ## Meanings -/

/-- TALLY_WRITE (R371). -/
def execTallyWrite (cid : Fin 32) (s : State) : Out := .next (unlessHalted s (tallyWrite cid.val s))
/-- COMMAND_TIMEOUT (R400). -/
def execCommandTimeout (cid : Fin 32) (tag : BitVec 32) (s : State) : Out :=
  .next (unlessHalted s (commandTimeout cid.val tag s))
/-- CV_WINDOW_END (R382). -/
def execCvWindowEnd (unit : Fin 16) (s : State) : Out := .next (unlessHalted s (cvWindowEnd unit.val s))
/-- TALLY_CFG_WRITE (R368). -/
def execTallyCfgWrite (q : Req) (s : State) : Out := .next (runOp opTallyCfgWrite q s)
/-- TALLY_PAGES_WRITE (R369). -/
def execTallyPagesWrite (q : Req) (s : State) : Out := .next (runOp opTallyPagesWrite q s)
/-- TALLY_READ (R372). -/
def execTallyRead (q : Req) (clk : Fin 1600) (s : State) : Out := .next (runTallyRead q clk.val s)
/-- DRAM_PAGE_DONE (R346, R348). -/
def execDramPageDone (ch : Fin 16) (clk : Fin 1600) (errs : PageErrs) (s : State) : Out :=
  .next (unlessHalted s (spillMark (pageDone ch.val clk.val errs.fault errs.bursts s)))
/-- CV_ASSIGN (R378). -/
def execCvAssign (q : Req) (s : State) : Out := .next (runOp opCvAssign q s)
/-- CV_CFG_WRITE (R380). -/
def execCvCfgWrite (q : Req) (s : State) : Out := .next (runOp opCvCfgWrite q s)
/-- CV_ARM (R382). -/
def execCvArm (q : Req) (s : State) : Out := .next (runOp opCvArm q s)
/-- CV_DISARM (R382). -/
def execCvDisarm (q : Req) (s : State) : Out := .next (runOp opCvDisarm q s)
/-- CV_READ (R383). -/
def execCvRead (q : Req) (s : State) : Out := .next (runOp opCvRead q s)

end Sys2Proof.Machine
end

