-- ==== Sys2Proof/Machine/Macsec.lean ====
section
/-!
DEFINITION. MACsec on the path of frames (R96 to R103): verification and replay protection on receive, protection on
transmit. The cipher itself is the environment's on receive and an opaque function on transmit.
-/
namespace Sys2Proof.Machine

/-- SecY `i` of port `p`. -/
def secyOf (s : State) (p i : Nat) : SecY := tget {} s.link.secy (k2 p i)
/-- Change a SecY. -/
def modSecy (p i : Nat) (f : SecY → SecY) (s : State) : State :=
  { s with link := { s.link with secy := tmod {} s.link.secy (k2 p i) f } }

/-- Fields of `MSEC.SECY` (R97). -/
def secyCid (y : SecY) : Nat := fld y.rec_ 4 0
def secyQuota (y : SecY) : Nat := fld y.rec_ 8 5
def secyXpn (y : SecY) : Bool := bit y.rec_ 9
def secyEnabled (y : SecY) : Bool := bit y.rec_ 14
def secyWin (y : SecY) : Nat := if bit y.rec_ 13 then fld y.rec_ 45 16 else 0

/-- The enabled SecYs of a port. -/
def enabledSecys (s : State) (p : Nat) : List Nat := (List.range 4).filter (fun i => secyEnabled (secyOf s p i))

/-! ## Receive (R100) -/

/-- The SecTAG of a frame: TCI and AN, short length, PN, SCI when it carries one, and the length of the tag. -/
structure SecTag where
  tci : Nat
  an : Nat
  sl : Nat
  pn : Nat
  sci : Option (BitVec 64)
  len : Nat

/-- The frame carries a SecTAG: EtherType 0x88E5. -/
def hasSecTag (l : List Byte) : Bool := beAt l 12 2 == 0x88E5

/-- Read the SecTAG at byte 12. -/
def secTagOf (l : List Byte) : SecTag :=
  let t := beAt l 14 1
  let sc := t / 32 % 2 == 1
  { tci := t / 4, an := t % 4, sl := beAt l 15 1, pn := beAt l 16 4,
    sci := if sc then some (BitVec.ofNat 64 (beAt l 20 8)) else none, len := if sc then 16 else 8 }

/-- A malformed SecTAG (R100; log entry 27): version bit set, ES or SCB together with SC, a short length of 48 or more,
or a frame too short for the tag and its ICV. -/
def badTag (l : List Byte) (t : SecTag) : Bool :=
  t.tci / 32 % 2 == 1 || (t.sci.isSome && (t.tci / 16 % 2 == 1 || t.tci / 4 % 2 == 1)) || decide (48 ≤ t.sl) ||
    decide (l.length < 12 + t.len + 16)

/-- The receive SC of a frame (R100): the SecY, and the number of the SC. -/
def rxScOf (s : State) (p : Nat) (t : SecTag) : Option (Nat × Nat) :=
  (enabledSecys s p).findSome? (fun i =>
    let y := secyOf s p i
    match t.sci with
    | some x => (y.scs.find? (fun c => c.2.1 == x && c.2.2)).map (fun c => (i, c.1))
    | none => match y.scs with | [c] => if c.2.2 then some (i, c.1) else none | _ => none)

/-- The packet number of a frame: with XPN the high half is recovered from the lowest acceptable PN (log entry 27). -/
def fullPn (xpn : Bool) (lowest pn : Nat) : Nat :=
  if xpn then
    let hi := lowest / 2 ^ 32
    let up := if pn < 2 ^ 31 ∧ 2 ^ 31 ≤ lowest % 2 ^ 32 then 1 else 0
    (hi + up) * 2 ^ 32 + pn
  else pn

/-- What stage 1 makes of a frame on a port (R100). -/
inductive MsecRx where
  /-- No SecY covers the frame. -/
  | clear
  /-- Verified by this SecY. -/
  | ok (secy : Nat)
  /-- Discarded, counted. -/
  | bad

/-- Verify a received frame (R100). `icvOk` is the verdict of the integrity check. DESIGN CHOICE (log entry 92): the integrity
check comes before the replay check, so a frame that fails both is counted in `ICV_FAIL` alone. -/
def msecRx (p : Nat) (l : List Byte) (icvOk : Bool) (s : State) : MsecRx × State :=
  match enabledSecys s p with
  | [] => (.clear, s)
  | y0 :: _ =>
    if hasSecTag l then
      let t := secTagOf l
      if badTag l t then (.bad, cnt .msecBadTag p y0 1 s)
      else
        match rxScOf s p t with
        | none => (.bad, cnt .msecNoSc p y0 1 s)
        | some (i, sc) =>
          let y := secyOf s p i
          match y.sas.find? (fun a => !a.tx && a.sc == sc && a.an == t.an && a.inUse) with
          | none => (.bad, cnt .msecNoSa p i 1 s)
          | some a =>
            let pn := fullPn (secyXpn y) a.pn t.pn
            if !icvOk then (.bad, cnt .msecIcv p i 1 s)
            else if pn < a.pn then (.bad, cnt .msecReplay p i 1 s)
            else
              let low := max a.pn (pn + 1 - secyWin y)
              (.ok i, modSecy p i (fun y => { y with sas := y.sas.map (fun x =>
                if !x.tx && x.sc == sc && x.an == t.an then { x with pn := low } else x) }) s)
    else if beAt l 12 2 = 0x888E then (.clear, s)
    else (.bad, cnt .msecUntagged p y0 1 s)

/-! ## Transmit (R102, R103) -/

/-- What protects a copy of compartment `c` on port `p`: `none` where no SecY covers the port, else the compartment's
SecY, if it has one. -/
def txSecy (s : State) (p c : Nat) : Option (Option Nat) :=
  match enabledSecys s p with
  | [] => none
  | l => some (l.find? (fun i => secyCid (secyOf s p i) == c))

/-- Bytes that protection adds (R102). -/
def secyAdds (y : SecY) : Nat := 16 + (if bit y.rec_ 12 then 16 else 8)

/-- The MACsec expansion of a copy. -/
def msecAdds (s : State) (p c : Nat) : Nat :=
  match txSecy s p c with
  | some (some i) => secyAdds (secyOf s p i)
  | _ => 0

/-- The end of the PN space, and the threshold of R103. -/
def pnEnd (y : SecY) : Nat := if secyXpn y then 2 ^ 64 else 2 ^ 32
def pnThreshold (y : SecY) : Nat := if secyXpn y then 0xC000000000000000 else 0xC0000000

/-- A copy's way through MACsec on transmit: the counter that discards it, or the SecY and SA that protect it. -/
def msecTx (s : State) (p c : Nat) : Sum (Ctr × Nat × Nat) (Option (Nat × SaRec)) :=
  match txSecy s p c with
  | none => .inr none
  | some none => .inl (.msecTxNoSecy, p, 0)
  | some (some i) =>
    let y := secyOf s p i
    match y.sas.find? (fun a => a.tx && a.inUse) with
    | none => .inl (.msecTxNoSa, p, i)
    | some a => if pnEnd y ≤ a.pn then .inl (.msecPnExhausted, p, i) else .inr (some (i, a))

/-- Use one packet number of a transmit SA; reaching the threshold tells the owner (R103). DESIGN CHOICE (log entry 93): an SA
installed with its next PN at the threshold or above posts nothing, for its next PN never comes to reach it. -/
def usePn (p i : Nat) (a : SaRec) (s : State) : State :=
  let y := secyOf s p i
  let s := modSecy p i (fun y => { y with sas := y.sas.map (fun x => if x.tx && x.an == a.an then { x with pn := x.pn + 1 } else x) }) s
  if a.pn + 1 = pnThreshold y then
    post (secyCid y) 0x0E01 (packLE [(8, s.ring), (1, p), (1, i), (1, a.an), (5, 0), (8, a.pn + 1)]) s
  else s

/-- The key material of a key-store handle: the SAK, and for XPN its salt (R98, R470). -/
def sakOf (s : State) (h : Nat) : List Byte := (tget {} s.trust.keys (k1 (h % 8192)) : KeySlot).key

/-- The nonce of a protected frame (IEEE 802.1AE): with XPN the SSCI and the PN, to be mixed with the salt; else the SCI and
the PN. -/
def msecNonce (y : SecY) (a : SaRec) : List Byte :=
  if secyXpn y then beBytes 4 a.ssci.toNat ++ beBytes 8 a.pn else beBytes 8 (fld y.rec_ 127 64) ++ beBytes 4 a.pn

/-- The bytes of a protected frame on the wire (R97, R102): addresses, SecTAG, the user data, of which nothing is enciphered
without `CONF` and the first 30 bytes are not with `CONF_OFFSET`, and the ICV. -/
def protectBytes (s : State) (y : SecY) (a : SaRec) (l : List Byte) : List Byte :=
  let sci := bit y.rec_ 12
  let conf := bit y.rec_ 10
  let tci := (if sci then 32 else 0) + (if conf then 12 else 0) + a.an
  let rest := l.drop 12
  let sl := if rest.length < 48 then rest.length else 0
  let tag := beBytes 2 0x88E5 ++ [BitVec.ofNat 8 tci, BitVec.ofNat 8 sl] ++ beBytes 4 (a.pn % 2 ^ 32) ++
    (if sci then beBytes 8 (fld y.rec_ 127 64) else [])
  let open_ := if conf then (if bit y.rec_ 11 then 30 else 0) else rest.length
  let head := l.take 12 ++ tag ++ rest.take open_
  let key := sakOf s a.handle
  let enc := padTo (rest.length - open_) (Config.crypto 20 [key, msecNonce y a, rest.drop open_])
  head ++ enc ++ padTo 16 (Config.crypto 21 [key, msecNonce y a, head, enc])

end Sys2Proof.Machine
end

