-- ==== Sys2Proof/Machine/Sched.lean ====
section
/-!
DEFINITION. Egress scheduling (R320 to R340): received and sent PFC, gates, shapers, the order of service, shares, the
start and the end of a transmission, and the PTP correction of stage 10 (R92).
-/
namespace Sys2Proof.Machine

/-! ## Received PFC (R84, R85) and sent PFC (R83) -/

/-- The clocks of a pause: quanta × 512 bit times at the port's speed, rounded up (R84). -/
def pauseClocks (s : State) (p quanta : Nat) : Nat := ceilDiv (quanta * 512 * 16) (10 * speedGb s p)

/-- End of the pause of a class, in clocks since ring 0; 0 = none. -/
def pauseEnd (s : State) (p c : Nat) : Nat := tget 0 s.link.pause (k2 p c)
/-- Class `c` is paused on port `p` at clock `t`. -/
def paused (s : State) (p c t : Nat) : Bool := decide (t < pauseEnd s p c)

/-- The bit of a port in a port-slot mask (R527). -/
def slotBit (s : State) (p : Nat) : Nat := 2 ^ portSlot s p

/-- The clock, `now` at the latest, up to which some class of port `p` is paused. -/
def pausedTo (s : State) (now p : Nat) : Nat := min now (((List.range 8).map (pauseEnd s p)).foldl max 0)

/-- Count the paused clocks of a port group up to `now` (R527, event 0x33): the span since they were last counted is cut where a
port's pauses end, and each part counts once, for the ports that are paused in it. -/
def accPaused (p now : Nat) (s : State) : State :=
  let g := portGroup s p
  let from_ := tget 0 s.link.pauseAcc (k1 g)
  let ps := groupPorts s g
  let ends := (sortBy (fun a b => decide (a < b)) ((ps.map (pausedTo s now)).filter (fun e => decide (from_ < e)))).eraseDups
  let mask (e : Nat) : Nat := ps.foldl (fun m q => if e ≤ pausedTo s now q then m ||| slotBit s q else m) 0
  let s := foldS ((from_ :: ends).zip ends) (fun x => progEvt (uGroup g) 0x33 255 (mask x.2) (x.2 - x.1)) s
  { s with link := { s.link with pauseAcc := tput 0 s.link.pauseAcc (k1 g) now } }

/-- A class is paused in this ring: counted once per ring (R339). -/
def countPause (p c : Nat) (s : State) : State :=
  if tget 0 s.sch.pauseCnt (k2 p c) = s.ran + 1 then s
  else cnt .schedPauseRings p c 1 { s with sch := { s.sch with
    pauseCnt := tput 0 s.sch.pauseCnt (k2 p c) (s.ran + 1) } }

/-- One time field of a received PFC frame (R84): it restarts the pause, or ends it. -/
def pauseOne (p : Nat) (timers : List (BitVec 16)) (c : Nat) (s : State) : State :=
  let q := (timers.getD c 0).toNat
  let e := if q = 0 then 0 else nowClk s + pauseClocks s p q
  let s := { s with link := { s.link with pause := tput 0 s.link.pause (k2 p c) e } }
  if q = 0 then s else countPause p c s

/-- A received PFC frame (R84, R85): it acts on the ungated classes of `PFC_RX`. -/
def pfcReceive (p : Nat) (cev : BitVec 8) (timers : List (BitVec 16)) (s : State) : State :=
  if !(port s p).up then s
  else
    let named := (List.range 8).filter (fun c => cev.getLsbD c)
    let rx := fld (port s p).cfg 31 24
    let s := accPaused p (nowClk s) (cnt .rxPfc p 0 1 s)
    let s := if named.any (gated s p) then cnt .rxPfcGated p 0 1 s else s
    foldS (named.filter (fun c => rx.testBit c && !gated s p c)) (pauseOne p timers) s

/-- A pause timer runs out (R84). -/
def pauseExpire (p c : Nat) (s : State) : State :=
  let e := pauseEnd s p c
  if e ≠ 0 ∧ e ≤ nowClk s then
    let s := accPaused p (nowClk s) s
    { s with link := { s.link with pause := tput 0 s.link.pause (k2 p c) 0 } }
  else s

/-- Every pause of a port is cleared (R80, R84). -/
def clearPauses (p : Nat) (s : State) : State :=
  let s := accPaused p (nowClk s) s
  { s with link := { s.link with pause := tfilter (fun k => k.1 != p) s.link.pause } }

/-- XOFF is repeated every `PFC_REFRESH` rings while its condition holds (R83). -/
def pfcRefresh (p : Nat) (s : State) : State :=
  let q := port s p
  if q.up && q.xoff != 0 && decide (q.xoffRing + fld q.cfg 95 80 ≤ s.ran) then
    pfcXoff p q.xoff s
  else s

/-! ## Gates (R323 to R330) -/

/-- The spans of a bank's cycle in notches, with their open masks. -/
def bankSpans (b : Bank) : List (Nat × Nat) :=
  let starts := b.ents.map entStart
  (b.ents.mapIdx (fun i e => ((starts.getD (i + 1) (bankCycle b * 64)) - entStart e, entOpen e)))

/-- The longest run of open notches of a class, around the cycle; none when it is always open. -/
def longestRun (b : Bank) (c : Nat) : Option Nat :=
  let sp := bankSpans b
  if sp.all (fun x => x.2.testBit c) then none
  else
    let r := (sp ++ sp).foldl (fun (a : Nat × Nat) x =>
      let cur := if x.2.testBit c then a.1 + x.1 else 0
      (cur, max a.2 cur)) (0, 0)
    some r.2

/-- A copy of `w` clocks fits the longest run of a class in a bank. -/
def fitsRun (b : Bank) (c w : Nat) : Bool :=
  match longestRun b c with
  | none => true
  | some n => decide (w ≤ 25 * n)

/-- A gated copy that no window can hold (R330); with a switch accepted the standby bank's runs count as well. -/
def gateOversize (s : State) (p c w : Nat) : Bool :=
  gated s p c && !fitsRun (bankOf s p (activeBank s p)) c w &&
    !(switchPending s p && fitsRun (bankOf s p (1 - activeBank s p)) c w)

/-! ## When a copy may begin (R321, R328, R332) -/

/-- The frame bytes that a copy has on the port: padded to 60, with FCS, and with what MACsec adds. -/
def frameBytes (s : State) (p : Nat) (d : Done) : Nat :=
  max 60 d.bytes.length + 4 + msecAdds s p (stCid d.copy.fi.stamp)

/-- Its wire bytes: with preamble and gap (R328). -/
def wireBytes (s : State) (p : Nat) (d : Done) : Nat := frameBytes s p d + 20

/-- Class `c` is express on port `p` (R86). -/
def expressCls (s : State) (p c : Nat) : Bool := (fld (port s p).cfg 23 16).testBit c

/-- The copy may be preempted (R86, R87). -/
def preemptable (s : State) (p : Nat) (d : Done) : Bool :=
  (port s p).verified && !expressCls s p d.copy.cls && !bit d.out 1

/-- The transmissions of a port that are not over at clock `t`. -/
def txBusy (s : State) (p t : Nat) : List TxFrame :=
  ((tget [] s.sch.tx (k1 p)).map (txAdvance s p t 512)).filter (fun x => x.done.isNone)

/-- A preempted frame whose rest waits at clock `t`, or could go on at `t` at the earliest. -/
def txWaits (t : Nat) (x : TxFrame) : Bool := x.preempt && (match x.frag with | none => true | some b => decide (t ≤ b))

/-- Two copies belong to one flow (R43): they have an ingress port, an egress port and a class in common. -/
def sameFlow (a b : Copy) : Bool := stPort a.fi.stamp == stPort b.fi.stamp && a.port == b.port && a.cls == b.cls

/-- No frame in transmission is of the flow of a copy: a frame of its flow goes out whole before it (R43). -/
def flowSent (s : State) (p t : Nat) (d : Done) : Bool := (txBusy s p t).all (fun x => !sameFlow x.copy d.copy)

/-- The port is free for a copy: idle, or for an express copy between the fragments of a preempted frame of another flow (R43, R87,
R88). -/
def portFree (s : State) (p t : Nat) (d : Done) : Bool :=
  let b := txBusy s p t
  b.isEmpty || (!preemptable s p d && b.all (txWaits t) && flowSent s p t d)

/-- `SCHED.SHAPE` of a port and class (R331). -/
def shapeOf (s : State) (p c : Nat) : BitVec 64 := tget 0 s.sch.shape (k2 p c)
/-- The bucket's size in 1/512 byte. -/
def shapeCap (x : BitVec 64) : Nat := fld x 35 20 * 64 * 512
/-- The shaper lets a copy begin: the bucket is at zero or above (R332). -/
def shaperOk (s : State) (p c : Nat) : Bool :=
  !bit (shapeOf s p c) 0 || decide (tget 0 s.sch.lack (k2 p c) ≤ shapeCap (shapeOf s p c))

/-- Every earlier copy of the same flow has gone (R321). -/
def flowClear (s : State) (p : Nat) (d : Done) : Bool :=
  s.sch.queue.all (fun e => e.1.1 != p || e.1.2.1 != d.copy.cls ||
    e.2.all (fun x => stPort x.copy.fi.stamp != stPort d.copy.fi.stamp || decide (d.arr ≤ x.arr)))

/-- The gate test of R328. -/
def gateOk (s : State) (p t : Nat) (d : Done) : Bool :=
  if preemptable s p d then gateOpen s p d.copy.cls (t / 25)
  else gateOpenFor s p d.copy.cls t (wireClocks s p (wireBytes s p d))

/-- All of R321 and R328 but the gate and the shaper. -/
def readyOk (s : State) (p t : Nat) (d : Done) : Bool :=
  portFree s p t d && !paused s p d.copy.cls t && flowClear s p d

/-- A copy may begin at MAC clock `t`. -/
def mayBegin (s : State) (p t : Nat) (d : Done) : Bool :=
  readyOk s p t d && shaperOk s p d.copy.cls && gateOk s p t d

/-- The heads of a port's queues: (key, copy). -/
def heads (s : State) (p : Nat) : List (Key × Done) :=
  s.sch.queue.filterMap (fun e => if e.1.1 = p then e.2.head?.map (fun d => (e.1, d)) else none)

/-! ## Order of service (R333, R334) -/

/-- The earliest of a list to reach the scheduler. -/
def earliest (l : List (Key × Done)) : Option (Key × Done) :=
  l.foldl (fun b x => match b with | none => some x | some y => if x.2.arr < y.2.arr then some x else some y) none

/-- The first class of a list that has a candidate, and its earliest copy. -/
def byClass (cand : List (Key × Done)) (cs : List Nat) : Option (Key × Done) :=
  cs.findSome? (fun c => earliest (cand.filter (fun x => x.1.2.1 == c)))

/-- A compartment's first eligible copy in its highest class from 5 down to 0. -/
def topOf (cand : List (Key × Done)) (cid : Nat) : Option (Key × Done) :=
  byClass (cand.filter (fun x => x.1.2.2 == cid)) [5, 4, 3, 2, 1, 0]

/-- Deficits and pointer of a port: the pointer as it stands, else as the boundary sets it. -/
def drrPtr (s : State) (p : Nat) : Nat :=
  let x := tget 0 s.sch.ptr (k1 p)
  if x = 0 then (p + s.ring) % 32 else x - 1

/-- `SHARE.WEIGHT`. -/
def shareWeight (s : State) (c p : Nat) : Nat := fld (shareOf s c p) 11 0

/-- The weighted service of R334 over the candidates of classes 5 to 0. -/
def drr (p : Nat) (cand : List (Key × Done)) : Nat → State → Option (Key × Done) × State
  | 0, s => (none, s)
  | fuel + 1, s =>
    let order := (List.range 32).map (fun d => (drrPtr s p + d) % 32)
    match order.findSome? (fun c => (topOf cand c).map (fun x => (c, x))) with
    | none => (none, s)
    | some (c, x) =>
      let have_ := tget 0 s.sch.deficit (k2 p c)
      let need := wireBytes s p x.2
      if need ≤ have_ then
        (some x, { s with sch := { s.sch with deficit := tput 0 s.sch.deficit (k2 p c) (have_ - need) } })
      else
        let dd := tput 0 s.sch.deficit (k2 p c) (have_ + shareWeight s c p * 64)
        let pp := tput 0 s.sch.ptr (k1 p) ((c + 1) % 32 + 1)
        drr p cand fuel { s with sch := { s.sch with deficit := dd, ptr := pp } }

/-- Deficits of compartments that are not active are zero (R334). -/
def dropDeficits (p : Nat) (cand : List (Key × Done)) (s : State) : State :=
  let dd := tfilter (fun k => k.1 != p || cand.any (fun x => x.1.2.2 == k.2.1)) s.sch.deficit
  { s with sch := { s.sch with deficit := dd } }

/-- A compartment that has no eligible copy in classes 5 to 0 is not active, and its deficit is zero (R321, R334). -/
def dropIdle (p : Nat) (s : State) : State :=
  dropDeficits p ((heads s p).filter (fun x => decide (x.1.2.1 < 6) && !gated s p x.1.2.1 && flowClear s p x.2)) s

/-- The copy that the order of R333 yields. -/
def pick (p : Nat) (cand : List (Key × Done)) (s : State) : Option (Key × Done) × State :=
  let g := cand.filter (fun x => gated s p x.1.2.1)
  let u := cand.filter (fun x => !gated s p x.1.2.1)
  match byClass g [7, 6, 5, 4, 3, 2, 1, 0] with
  | some x => (some x, s)
  | none =>
    match byClass u [7, 6] with
    | some x => (some x, s)
    | none =>
      let low := u.filter (fun x => decide (x.1.2.1 < 6))
      drr p low 8192 (dropIdle p s)

/-! ## Stage 10: PTP correction (R92, R226) -/

/-- The four words of an 8-byte field as the checksum sees them: byte-swapped when the field lies at another parity. -/
def wordsAt (swap : Bool) (b : List Byte) : List Nat :=
  (List.range 4).map (fun i => let w := beAt b (2 * i) 2; if swap then w % 256 * 256 + w / 256 else w)

/-- The incremental update of a UDP checksum when `old` becomes `new` (R92). -/
def udpUpdate (swap : Bool) (ck : Nat) (old new : List Byte) : Nat :=
  let sum := (wordsAt swap old).foldl (fun a w => ocAdd a (ocNot w)) (ocNot ck)
  let r := ocNot ((wordsAt swap new).foldl ocAdd sum)
  if r = 0 then 65535 else r

/-- The bytes of a copy after the correction that its output record asks for (R92, R226): the residence time is the egress
timestamp, predicted for the start 16 clocks from now, less the ingress timestamp, in 2^-16 ns. -/
def ptpCorrect (p : Nat) (secured : Bool) (d : Done) (s : State) : List Byte × State :=
  if !bit d.out 1 then (d.bytes, s)
  else
    let cf := fld d.out 17 4
    let ck := fld d.out 31 18
    let kind := fld d.out 3 2
    let n := d.bytes.length
    let udp := kind == 1 || kind == 2
    if n < cf + 8 ∨ (udp ∧ n < ck + 2) then (d.bytes, cnt .krfPtpBad (stCid d.copy.fi.stamp) 0 1 s)
    else
      let r := 32768 * (egressStamp s p 16 secured - d.copy.fi.ts)
      let old := slice d.bytes cf 8
      let new := beBytes 8 (((beNat old : Int) + r) % 2 ^ 64).toNat
      let b := putBytes d.bytes cf new
      let c0 := beAt d.bytes ck 2
      if udp && !(kind == 1 && c0 == 0) then
        (putBytes b ck (beBytes 2 (udpUpdate (cf % 2 != ck % 2) c0 old new)), s)
      else (b, s)

/-! ## The start and the end of a transmission -/

/-- Remove the head of a queue. -/
def popQueue (k : Key) (s : State) : State :=
  { s with sch := { s.sch with queue := tput [] s.sch.queue k ((tget [] s.sch.queue k).drop 1) } }

/-- `SCHED.GUARD_IDLE` as a read finds it: the clocks of the open span count up to now (R339, R522). -/
def guardSeen (s : State) (p : Nat) : Nat :=
  let g := tget 0 s.sch.guard (k1 p)
  ctrGet s .schedGuardIdle p 0 + (if g = 0 then 0 else nowClk s - (g - 1))

/-- The port idles at `t` with a ready copy that its gate alone holds (R339). -/
def guardIdles (s : State) (p t : Nat) : Bool :=
  (txBusy s p t).isEmpty && (heads s p).any (fun x => readyOk s p t x.2 && shaperOk s p x.2.copy.cls && !gateOk s p t x.2) &&
    !(heads s p).any (fun x => mayBegin s p t x.2)

/-- Follow the idle span of a port at clock `t`. -/
def guardAt (p t : Nat) (s : State) : State :=
  if guardIdles s p t then
    if tget 0 s.sch.guard (k1 p) = 0 then { s with sch := { s.sch with guard := tput 0 s.sch.guard (k1 p) (t + 1) } }
    else s
  else guardEnd p t s

/-- Copies that wait for their shaper, each counted once (R339). -/
def markShaped (p t : Nat) (s : State) : State :=
  foldS ((heads s p).filter (fun x => readyOk s p t x.2 && !shaperOk s p x.2.copy.cls &&
      !s.sch.shaped.contains (copyId x.2.copy))) (fun x s =>
    cnt .schedShaped p x.2.copy.cls 1 { s with sch := { s.sch with shaped := s.sch.shaped ++ [copyId x.2.copy] } }) s

/-- A copy passes the check units of an egress port with its first byte at the MAC, 16 clocks from now (R379): at once, or with
the next ring where that clock belongs to it. -/
def cvOfferMac (point p cls cid : Nat) (l : List Byte) (s : State) : State :=
  if s.clock + 16 < 1600 then cvOffer point p cls cid l s
  else { s with sch := { s.sch with offers := s.sch.offers ++ [(point, p, cls, cid, l)] } }

/-- What passed at the MACs in the first clocks of the ring that has just begun (R379, R382): nothing passes at a port that the
boundary took down. -/
def cvOffersDue (s : State) : State :=
  foldS (s.sch.offers.filter (fun x => (port s x.2.1).up)) (fun x => cvOffer x.1 x.2.1 x.2.2.1 x.2.2.2.1 x.2.2.2.2) { s with sch := { s.sch with offers := [] } }

/-- An express frame has taken the port up to clock `e`: the rest of a preempted frame waits for it (R88). -/
def txYield (t e : Nat) (x : TxFrame) : TxFrame :=
  if x.done.isNone && txWaits t x then { x with frag := none, cut := none, from_ := max x.from_ e } else x

/-- A frame goes to the MAC at clock `t`: check units, shaper, packet number, the port's transmission. -/
def beginTx (p t : Nat) (d : Done) (sec : Option (Nat × SaRec)) (s : State) : State :=
  let cid := stCid d.copy.fi.stamp
  let cls := d.copy.cls
  let w := wireClocks s p (wireBytes s p d)
  let len := frameBytes s p d
  let wb := wireBytes s p d
  let pre := preemptable s p d
  let (b, s) := ptpCorrect p sec.isSome d s
  let b := b ++ zeros (60 - b.length)
  let s := cvOfferMac 1 p cls cid b s
  let b' := match sec with | some (i, a) => protectBytes s (secyOf s p i) a b | none => b
  let s := cvOfferMac 2 p cls cid b' s
  let s := match sec with | some (i, a) => usePn p i a s | none => s
  let s := if bit (shapeOf s p cls) 0 then
      { s with sch := { s.sch with lack := tmod 0 s.sch.lack (k2 p cls) (· + wb * 512) } } else s
  let f : TxFrame := { copy := d.copy, bytes := b', len := len, preempt := pre, frag := some t, from_ := t }
  let s := { s with sch := { s.sch with tx := tput [] s.sch.tx (k1 p) ((tget [] s.sch.tx (k1 p)).map (txYield t (t + w)) ++ [f]),
                                        shaped := s.sch.shaped.filter (· ≠ copyId d.copy) } }
  blaze d.copy.fi.stamp d.copy.fi.pos 10 p cls (uGroup d.copy.egr) w 1 (d.copy.egr / 2) s

/-- The port follows the role, and the module is STANDBY (R546). -/
def standsBy (s : State) (p : Nat) : Bool := bit s.pair.cfg 0 && !s.pair.role && bit s.pair.cfg (64 + p)

/-- Take the chosen copy: it is discarded on a STANDBY module (R546) or at the MAC (R81, R102, R103), or it begins. -/
def startCopy (p t : Nat) (x : Key × Done) (s : State) : State :=
  let d := x.2
  let s := dropIdle p (popQueue x.1 s)
  if standsBy s p then discardDone .pairStandbyDiscard (stCid d.copy.fi.stamp) 0 10 d.copy s else
  match msecTx s p (stCid d.copy.fi.stamp) with
  | .inl (c, i, j) => discardDone c i j 10 d.copy s
  | .inr sec =>
    if fld (port s p).cfg 61 48 < frameBytes s p d then discardDone .txOversize p 0 10 d.copy s
    else beginTx p t d sec (guardEnd p t s)

/-- A gated head that no window can hold (R330). -/
def oversizeHead (s : State) (p : Nat) : Option (Key × Done) :=
  (heads s p).find? (fun x => gateOversize s p x.2.copy.cls (wireClocks s p (wireBytes s p x.2)))

/-- Discard the gated heads that no window can hold, as each comes to the head of its queue (R330). -/
def dropOversizeN (p : Nat) : Nat → State → State
  | 0, s => s
  | n + 1, s =>
    match oversizeHead s p with
    | none => s
    | some x =>
      dropOversizeN p n (discardDone .schedGateOversize (stCid x.2.copy.fi.stamp) 0 8 x.2.copy (dropIdle p (popQueue x.1 s)))

/-- Every copy of a port is tested, at most once each. -/
def dropOversize (p : Nat) (s : State) : State :=
  dropOversizeN p ((s.sch.queue.map (fun e => if e.1.1 = p then e.2.length else 0)).foldl (· + ·) 0) s

/-- Copies wait and the port is free for none of them at clock `t` (R328). -/
def portTaken (s : State) (p t : Nat) : Bool := !(heads s p).isEmpty && (heads s p).all (fun x => !portFree s p t x.2)

/-- An express head could begin at clock `t` but for the fragment that the port sends (R88). -/
def expressWaits (s : State) (p t : Nat) : Bool :=
  (heads s p).any (fun x => !preemptable s p x.2 && !portFree s p t x.2 && flowSent s p t x.2 && !paused s p x.2.copy.cls t &&
    flowClear s p x.2 && shaperOk s p x.2.copy.cls && gateOk s p t x.2)

/-- The fragment in progress is to be cut for a waiting express frame at the next byte that R88 allows. -/
def askCut (p t : Nat) (s : State) : State :=
  if expressWaits s p t then
    { s with sch := { s.sch with tx := tmod [] s.sch.tx (k1 p) (fun l => l.map (fun x =>
      match x.frag with
      | some b => if x.preempt && x.cut.isNone then { x with cut := some (cutAt s p b t) } else x
      | none => x)) } }
  else s

/-- A port after a change at the present clock: copies that now wait for their shaper are counted, and its idle span begins or ends
(R339). -/
def guardTick (p : Nat) (s : State) : State := guardAt p (nowClk s) (markShaped p (nowClk s) s)

/-- The same for every port that has a copy at its scheduler. -/
def guardTicks (s : State) : State := foldS ((s.sch.queue.map (fun e => e.1.1)).eraseDups) guardTick s

/-- SCHED_START: the decision at clock `clk` for a first byte 16 clocks later (R328, R333). A port that is not free decides
nothing; an express copy that waits has the fragment in progress cut (R88). -/
def schedStart (p clk : Nat) (s : State) : State :=
  let s := { s with clock := clk }
  if !(port s p).up || s.link.squelched || s.pwr.fallAt.isSome then s
  else
    let t := nowClk s + 16
    let s := markShaped p t (dropOversize p (macAdvance p t s))
    if portTaken s p t then guardAt p t (askCut p t s) else
    let cand := (heads s p).filter (fun x => mayBegin s p t x.2)
    match pick p cand s with
    | (some x, s) => dropOversize p (startCopy p t x s)
    | (none, s) => guardAt p t (askCut p t s)

/-- TRANSMIT_DONE: the frames that have ended are counted and the credits of their last cells return, with those of every
cell that is out (R81, R278). A frame in which an uncorrectable error was found ends with an inverted FCS (R298). -/
def transmitDone (p clk : Nat) (errs : CellErrs) (s : State) : State :=
  let s := cellCredits (clkOf s clk) { s with clock := clk }
  let l := tget [] s.sch.tx (k1 p)
  let done := l.filter (fun x => x.done.isSome)
  if done.isEmpty then s
  else
    let s := foldS errs (fun e => cbFinding e.1.val (if e.2 then 3 else 0)) s
    let s := { s with sch := { s.sch with tx := tput [] s.sch.tx (k1 p) (l.filter (fun x => x.done.isNone)) } }
    let s := foldS done (fun x s =>
      putWire p (withFcs (errs.any Prod.snd) x.bytes) (progEvt (uGroup (portGroup s p)) 0x31 (stCid x.copy.fi.stamp)
        (slotBit s p) 1 (cnt .txBytes p 0 x.len (cnt .txFrames p 0 1 s)))) s
    guardTick p s

/-! ## Shapers (R331, R332) -/

/-- SHAPER_REFILL: every bucket gains its rate over one notch, up to its cap. -/
def shaperRefill (s : State) : State :=
  foldS s.sch.lack (fun e s =>
    { s with sch := { s.sch with lack := tmod 0 s.sch.lack e.1 (· - fld (tget 0 s.sch.shape e.1) 19 1) } }) s

/-- SHAPE_WRITE's checks (R331). -/
def opShapeWrite : LOp :=
  { op := .shapeWrite,
    args := fun _ q =>
      let x := rec64 q.payload
      firstBad [(!bit x 0 || fld x 19 1 != 0, .zeroLen), (decide (fld x 19 1 ≤ 400000), .range),
                (!bit x 0 || fld x 35 20 != 0, .zeroLen)] }

/-- SHAPE_WRITE lands: a shaper enabled starts with a full bucket; one that stays enabled keeps its level. -/
def landShape (i : Item) (s : State) : Ans :=
  let k := k2 (i.req.a1 5 0) (i.req.a1 10 8)
  let x := BitVec.ofNat 64 (leNat i.req.payload % 2 ^ 36)
  let old := tget 0 s.sch.shape k
  let l : Nat := tget 0 s.sch.lack k
  let level : Int := (shapeCap old : Int) - (l : Int)
  let lack := if bit old 0 && bit x 0 then ((shapeCap x : Int) - min level (shapeCap x)).toNat else 0
  { st := { s with sch := { s.sch with shape := tput 0 s.sch.shape k x, lack := tput 0 s.sch.lack k lack } } }

/-! ## Gate lists (R323 to R327) -/

/-- The record of 32 bits at offset `o`. -/
def rec32 (l : List Byte) (o : Nat) : BitVec 32 := BitVec.ofNat 32 (leAt l o 4)

/-- GLIST_WRITE's header fields (R323) and length (R429). -/
def glistCheck (l : List Byte) : Status :=
  let h := rec64 (l.take 8)
  firstBad [(decide (8 ≤ l.length), .range), (fld h 8 0 != 0, .zeroLen), (decide (fld h 8 0 ≤ 256), .range),
            (fld h 26 16 != 0, .zeroLen), (decide (fld h 26 16 ≤ 1024), .range),
            (decide (fld h 36 27 < fld h 26 16), .range), (l.length == 8 + 4 * fld h 8 0, .range)]

/-- GLIST_WRITE (R323): only the standby bank, and no switch pending. -/
def opGlistWrite : LOp :=
  { op := .glistWrite,
    args := fun _ q => glistCheck q.payload,
    pre := fun s q => if q.a1 8 8 = activeBank s (q.a1 5 0) ∨ switchPending s (q.a1 5 0) then .busy else .ok,
    now := fun s q =>
      let h := rec64 (q.payload.take 8)
      let b : Bank := { hdr := setFld (setFld h 63 45 0) 15 9 0,
                        ents := (List.range (fld h 8 0)).map (fun i => setFld (rec32 q.payload (8 + 4 * i)) 31 24 0) }
      { st := { s with sch := { s.sch with bank := tput {} s.sch.bank (k2 (q.a1 5 0) (q.a1 8 8)) b } }, ring := s.ring } }

/-- Strictly rising starts. -/
def rising : List Nat → Bool
  | a :: b :: r => decide (a < b) && rising (b :: r)
  | _ => true

/-- A bank may be switched to (R325). -/
def bankOk (s : State) (p : Nat) (b : Bank) : Bool :=
  let starts := b.ents.map entStart
  (starts.headD 1 == 0) && rising starts && b.ents.all (fun e => decide (fld e 9 0 < bankCycle b)) &&
    (List.range 8).all (fun c => !(bankGated b).testBit c ||
      (b.ents.any (fun e => (entOpen e).testBit c) && expressCls s p c))

/-- A VOQ for the port is SPILLING in a class of a mask (R326). -/
def spillingIn (s : State) (p mask : Nat) : Bool :=
  s.lnd.voq.any (fun e => e.1.2.1 == p && e.2.spilling && mask.testBit e.1.2.2)

/-- GATE_SWITCH in the order of R326. -/
def opGateSwitch : LOp :=
  { op := .gateSwitch, ownOrder := true,
    pre := fun s q =>
      let p := q.arg1.toNat
      let b := bankOf s p (1 - activeBank s p)
      let v := vOf s q .gateSwitch
      orElseSt (argForm .gateSwitch q) <| firstBad [
        (decide (p < 64), .range), (!switchPending s p, .busy),
        (tCheck v q.t != .lateRing, .lateRing), (tCheck v q.t == .ok, .range),
        (bankOk s p b && q.t % bankCycle b == bankPhase b, .range),
        (!spillingIn s p (bankGated b), .busy)] }

/-- GATE_SWITCH lands (R326, R327): a class that becomes gated loses its received pause; GATE_APPLIED is posted. -/
def landGateSwitch (i : Item) (s : State) : Ans :=
  let p := i.req.arg1.toNat
  let old := gatedMask s p
  let b := 1 - activeBank s p
  let s := accPaused p (nowClk s) (macAdvance p (nowClk s) s)
  let s := { s with sch := { s.sch with active := tput false s.sch.active (k1 p) (b == 1) } }
  let s := { s with link := { s.link with
    pause := tfilter (fun k => k.1 != p || old.testBit k.2.1 || !(gatedMask s p).testBit k.2.1) s.link.pause } }
  let s := dropOversize p (pfcUpdate p s)
  { st := postTo (0 :: (attachedTo s p).filter (· ≠ 0)) 0x0903 (packLE [(8, i.due), (1, p), (1, b)]) s }

/-- GATE_ENTRY_START: a start notch is reached (R324), which may end a span that a gate alone held. -/
def gateEntryStart (p notch : Nat) (s : State) : State :=
  guardTick p { s with clock := 25 * notch }

/-! ## Shares (R335 to R337) -/

/-- SHARE_WRITE's checks (R335). -/
def opShareWrite : LOp :=
  { op := .shareWrite,
    args := fun s q =>
      let x := rec32 q.payload 0
      firstBad [(cmpDefined s (q.a1 12 8), .range), (fld x 11 0 != 0, .zeroLen), (fld x 20 12 != 0, .zeroLen),
                (decide (36 ≤ fld x 20 12) && decide (fld x 20 12 ≤ 384), .range)],
    pre := fun s q => if attached s (q.a1 12 8) (q.a1 5 0) then .ok else .range }

/-- SHARE_WRITE lands (R337). -/
def landShare (i : Item) (s : State) : Ans :=
  let p := i.req.a1 5 0
  let c := i.req.a1 12 8
  if attached s c p then
    let old := shareOf s c p
    let x := setFld (rec32 i.req.payload 0) 31 21 0
    let s := { s with sch := { s.sch with share := tput none s.sch.share (k2 c p) (some x) } }
    let body := packLE [(8, i.due), (1, p), (1, c), (2, fld x 11 0), (2, fld x 20 12), (2, shareOcc s c p),
      (2, fld old 11 0), (2, fld old 20 12)]
    { st := postTo (if c = 0 then [0] else [0, c]) 0x0904 body s }
  else { st := s }

/-- A bank in its field-map form. -/
def bankBytes (b : Bank) : List Byte := leBytes 8 b.hdr.toNat ++ b.ents.flatMap (fun e => leBytes 4 e.toNat)

/-- SCHED_READ (R429): banks, shapers or shares of a port; a compartment reads its own share record. -/
def opSchedRead : LOp :=
  { op := .schedRead, snap := true,
    owns := fun _ q => q.c == 0 || decide (2 ≤ q.a1 9 8),
    args := fun _ q => if q.a1 9 8 = 3 then .range else .ok,
    now := fun s q =>
      let p := q.a1 5 0
      let items := match q.a1 9 8 with
        | 0 => [bankBytes (bankOf s p 0), bankBytes (bankOf s p 1)]
        | 1 => (List.range 8).map (fun c => leBytes 8 (shapeOf s p c).toNat)
        | _ => (allCids.filter (fun c => attached s c p && (q.c == 0 || c == q.c))).map (fun c => leBytes 4 (shareOf s c p).toNat)
      { st := s, ring := s.ring, count := items.length, data := items.flatten } }

/-! ## Meanings -/

/-- PFC_RECEIVE (R84, R85). -/
def execPfcReceive (port : Fin 64) (clk : Fin 1600) (cev : BitVec 8) (timers : List (BitVec 16)) (s : State) : Out :=
  .next (unlessHalted s (guardTick port.val (pfcReceive port.val cev timers { s with clock := clk.val })))
/-- PAUSE_EXPIRE (R84). -/
def execPauseExpire (port : Fin 64) (cls : Fin 8) (clk : Fin 1600) (s : State) : Out :=
  .next (unlessHalted s (guardTick port.val (pauseExpire port.val cls.val { s with clock := clk.val })))
/-- PFC_REFRESH_EXPIRE (R83). -/
def execPfcRefreshExpire (port : Fin 64) (s : State) : Out := .next (unlessHalted s (pfcRefresh port.val s))
/-- SCHED_START (R328). -/
def execSchedStart (port : Fin 64) (clk : Fin 1600) (s : State) : Out :=
  .next (unlessHalted s (schedStart port.val clk.val s))
/-- TRANSMIT_DONE (R278). -/
def execTransmitDone (port : Fin 64) (clk : Fin 1600) (errs : List (Fin 655360 × Bool)) (s : State) : Out :=
  .next (unlessHalted s (transmitDone port.val clk.val errs s))
/-- SHAPER_REFILL (R332). -/
def execShaperRefill (notch : Fin 64) (s : State) : Out :=
  .next (unlessHalted s (guardTicks (shaperRefill { s with clock := 25 * notch.val })))
/-- GATE_ENTRY_START (R324). -/
def execGateEntryStart (port : Fin 64) (notch : Fin 64) (s : State) : Out :=
  .next (unlessHalted s (gateEntryStart port.val notch.val s))
/-- GLIST_WRITE (R323). -/
def execGlistWrite (q : Req) (s : State) : Out := .next (runOp opGlistWrite q s)
/-- GATE_SWITCH (R326). -/
def execGateSwitch (q : Req) (s : State) : Out := .next (runOp opGateSwitch q s)
/-- SHAPE_WRITE (R331). -/
def execShapeWrite (q : Req) (s : State) : Out := .next (runOp opShapeWrite q s)
/-- SHARE_WRITE (R335). -/
def execShareWrite (q : Req) (s : State) : Out := .next (runOp opShareWrite q s)
/-- SCHED_READ (R429). -/
def execSchedRead (q : Req) (s : State) : Out := .next (runOp opSchedRead q s)

end Sys2Proof.Machine
end

