-- ==== Sys2Proof/Machine/Kerf.lean ====
section
/-!
DEFINITION. The kerf engines (R217 to R248, R253 to R267): dispatch, the header window, one microcycle with its traps,
the end of a routine and its aborts, the passing of copies to the scheduler, and what a rotation change or a fence does
to an egress pipeline.
-/
namespace Sys2Proof.Machine

/-! ## What a routine sees (R222 to R226) -/

/-- Engine `e` of pipeline `p`. -/
def engOf (s : State) (p e : Nat) : Eng := tget {} s.krf.eng (k2 p e)
/-- Replace an engine. -/
def setEng (p e : Nat) (x : Eng) (s : State) : State :=
  { s with krf := { s.krf with eng := tput {} s.krf.eng (k2 p e) x } }

/-- The cut with a handle. -/
def cutOf (s : State) (h : Nat) : Option Cut := s.cut.cuts.find? (fun c => c.handle == h)

/-- The cut that a copy holds (R27). -/
def copyCut (s : State) (c : Copy) : Option Cut := cutOf s (stHandle c.fi.stamp)

/-- The action entry of a copy (R138), read from its stamped cut. -/
def copyAct (s : State) (c : Copy) : BitVec 128 :=
  (((copyCut s c).bind (fun x => tget none x.body.acts (k1 c.fi.action))).map Prod.snd).getD 0

/-- `ACT` fields. -/
def actEntry (a : BitVec 128) : Nat := fld a 13 0
def actDataPtr (a : BitVec 128) : Nat := fld a 32 16
def actDataWords (a : BitVec 128) : Nat := fld a 36 33

/-- The action data of a copy (R225); a word never written reads as zero (log entry 29). -/
def actBytes (s : State) (c : Copy) : List Byte :=
  let a := copyAct s c
  (List.range (actDataWords a)).flatMap (fun i =>
    leBytes 16 ((((copyCut s c).bind (fun x => tget none x.body.data (k1 (actDataPtr a + i)))).map
      (fun e => e.2.toNat)).getD 0))

/-- `KRF.META` (R224). -/
def metaBytes (c : Copy) : List Byte :=
  let st := c.fi.stamp
  let pv := c.fi.pv
  packLE [(8, stEntry st), (8, c.fi.time), (1, stPort st), (1, c.port), (1, stCid st), (1, c.cls), (2, c.fi.action),
    (1, c.ord), (1, c.fi.copies), (2, stLength st), (1, fld pv 31 24), (1, fld pv 4 0),
    (1, b2n (bit st 98) + 2 * b2n (bit st 99) + 4 * b2n (bit st 97)), (1, fld pv 15 8), (2, 0),
    (32, fld pv 319 64), (64, fld pv 831 320)]

/-- The budget of a routine (R233). -/
def budgetOf (L : Nat) : Nat := (min 320 (32 + ((L : Int) - 64) / 32)).toNat

/-- The budget of a copy. -/
def copyBudget (c : Copy) : Nat := budgetOf (stLength c.fi.stamp)

/-! ## The header window (R228 to R231) -/

/-- A cause that a word meets: the trap's code and detail, the first byte of the access, and the new window base of a
slide or the word index of a parity error. -/
structure Cause where
  code : Nat
  detail : Nat
  off : Nat := 0
  arg : Nat := 0
  deriving DecidableEq, Repr

/-- The base of a window slide (R229). -/
def slideBase (e : Nat) : Nat := e - 1 - (e - 1) % 64 - 128

/-- A slide, or FETCH_LIMIT where the fifth would be needed (R229). -/
def slideCause (fetches x e : Nat) : Cause :=
  if 4 ≤ fetches then { code := 3, detail := 6, off := x } else { code := 1, detail := 1, off := x, arg := slideBase e }

/-- The judgement of a read of [x, x+n) with window base `w` and length `c` (R229, R231). -/
def readCause (w c fetches x n : Nat) : Option Cause :=
  if c ≤ x then none
  else if x < w then some { code := 3, detail := 4, off := x }
  else if w + 320 < min (x + n) c then some (slideCause fetches x (min (x + n) c))
  else none

/-- The judgement of a write or a delete of [x, x+n) (R229, R231). -/
def writeCause (w c fetches x n : Nat) : Option Cause :=
  if c < x + n then some { code := 3, detail := 3, off := x }
  else if x < w then some { code := 3, detail := 4, off := x }
  else if w + 320 < x + n then some (slideCause fetches x (x + n))
  else none

/-- The judgement of an insert of `k` bytes at `x` (R230, R261; log entry 30). -/
def insertCause (w c fetches x k : Nat) (growth : Int) : Option Cause :=
  if c < x then some { code := 3, detail := 3, off := x }
  else if x < w then some { code := 3, detail := 4, off := x }
  else if 128 < growth + (k : Int) then some { code := 3, detail := 2, off := x }
  else if w + 320 < x then some (slideCause fetches x x)
  else none

/-! ## One word (R256 to R265) -/

/-- Scratch register `i`. -/
def sreg (x : Eng) (i : Nat) : Nat := (tget 0 x.sreg (k1 i)).toNat
/-- Checksum accumulator `i`. -/
def cdOf (x : Eng) (i : Nat) : Nat := tget 0 x.cd (k1 i)

/-- The fields of an operand or destination descriptor (R257). -/
def opKind (d : BitVec 32) : Nat := fld d 2 0
def opReg (d : BitVec 32) : Nat := fld d 7 4
def opSize (d : BitVec 32) : Nat := 2 ^ fld d 9 8
def opLe (d : BitVec 32) : Bool := bit d 24
def opAddr (x : Eng) (d : BitVec 32) : Nat := fld d 23 10 + (if bit d 3 then sreg x (opReg d) % 16384 else 0)

/-- A 32-bit part of a nano-word. -/
def nwPart (nw : BitVec 256) (lo : Nat) : BitVec 32 := BitVec.ofNat 32 (fld nw (lo + 31) lo)

/-- The action data that a word reads: its bytes, and which of its words fail parity. -/
structure ActView where
  bytes : List Byte
  bad : Nat → Bool

/-- A read of action data (R225, R236): `n` bytes at offset `a`. -/
def readAct (v : ActView) (a n : Nat) (le : Bool) : Nat × List Cause :=
  if v.bytes.length < a + n then (0, [{ code := 3, detail := 5, off := a }])
  else
    match (List.range ((a % 16 + n + 15) / 16)).find? (fun i => v.bad (a / 16 + i)) with
    | some i => (0, [{ code := 2, detail := 1, off := a, arg := a / 16 + i }])
    | none => (readBytes v.bytes a n le, [])

/-- Read an operand (R257). -/
def readOp (x : Eng) (c : Copy) (v : ActView) (d : BitVec 32) (imm : Nat) : Nat × List Cause :=
  let a := opAddr x d
  let n := opSize d
  match opKind d with
  | 0 => (0, [])
  | 1 => (sreg x (opReg d), [])
  | 2 =>
    match readCause x.base x.bytes.length x.fetches a n with
    | some k => (0, [k])
    | none => (readBytes x.bytes a n (opLe d), [])
  | 3 => readAct v a n (opLe d)
  | 4 => (readBytes (metaBytes c) a n (opLe d), [])
  | 5 => (imm, [])
  | 6 => (x.out.toNat, [])
  | _ => (if x.handler.isSome then readBytes (leBytes 160 x.tf.toNat) a n (opLe d) else 0, [])

/-- Operand B, or the action data that LOOKUP puts in its place (R263). -/
def readB (x : Eng) (c : Copy) (v : ActView) (nw : BitVec 256) : Nat × List Cause :=
  let d := nwPart nw 96
  if fld nw 201 200 = 3 then
    let i := fld nw 210 207 + (if bit nw 202 then sreg x (fld nw 206 203) % 16 else 0)
    readAct v (8 * i) 8 (opLe d)
  else readOp x c v d (fld nw 63 0)

/-- The bits of the trap frame that a handler may write (R239). -/
def tfWritable : Nat :=
  (2 ^ 31 - 2 ^ 16) + (2 ^ 56 - 2 ^ 48) + (2 ^ 192 - 2 ^ 128) + (2 ^ 1216 - 2 ^ 192)

/-- An address lies in the common region, or in the region of a compartment (R250, R258). -/
def inRegions (s : State) (cid a : Nat) : Bool :=
  let common := (s.par.base.map (fun b => b.img.micro.length)).getD 0
  let r := (cmpOf s cid).region
  decide (a < common) || (decide (fld r 13 0 ≤ a) && decide (a < fld r 13 0 + fld r 27 14))

/-- Write bytes into the trap frame (R258): only writable bits change, and `RESUME_PC` keeps an address outside the
regions out. -/
def writeTf (okPc : Nat → Bool) (tf : BitVec 1280) (a : Nat) (b : List Byte) : BitVec 1280 :=
  let old := leBytes 160 tf.toNat
  let new := BitVec.ofNat 1280 (leNat ((putBytes old a b).take 160))
  let m := BitVec.ofNat 1280 tfWritable
  let t := if a < 160 then (tf &&& ~~~m) ||| (new &&& m) else tf
  if fld t 29 16 = fld tf 29 16 ∨ okPc (fld t 29 16) then t else setFld t 29 16 (fld tf 29 16)

/-- What a word does: the engine with the word's effects, and the causes in step order. -/
structure WordOut where
  eng : Eng
  causes : List Cause

/-- Set a checksum accumulator. -/
def setCd (x : Eng) (i v : Nat) : Eng := { x with cd := tput 0 x.cd (k1 i) v }

/-- Step 4: the window operation of a word, when nothing stops it (R230). -/
def applyWin (x : Eng) (nw : BitVec 256) (a k : Nat) (ok : Bool) : Eng :=
  if !ok then x
  else
    match fld nw 161 160 with
    | 1 => { x with bytes := x.bytes.take a ++ zeros k ++ x.bytes.drop a, growth := x.growth + (k : Int) }
    | 2 => { x with bytes := x.bytes.take a ++ x.bytes.drop (a + k), growth := x.growth - (k : Int) }
    | _ => x

/-- Step 6: the tracking of the words that a delete took from `old` (R262), after any fold of the word. -/
def trackDelete (old : List Byte) (x : Eng) (nw : BitVec 256) (a k : Nat) (ok : Bool) : Eng :=
  if ok && fld nw 161 160 == 2 && bit nw 226 then
    let i := fld nw 225 224
    setCd x i ((wordsOf a k).foldl (fun t o => ocAdd t (ocNot (word16 old o))) (cdOf x i))
  else x

/-- Step 5 and 6 for a destination in the window: the write with its tracking, or the fold (R258, R262). -/
def applyWinDst (x : Eng) (nw : BitVec 256) (a n r : Nat) (le : Bool) : Eng :=
  let i := fld nw 225 224
  let op := fld nw 228 227
  if 2 ≤ op then
    let v := foldValue (op == 3) (a % 2 == 1) (word16 x.bytes a) (cdOf x i)
    setCd { x with bytes := putBytes x.bytes a (beBytes 2 v) } i 0
  else
    let new := putBytes x.bytes a (writeBytes r n le)
    let y := if bit nw 226 then
        setCd x i ((wordsOf a n).foldl (fun t o => ocAdd (ocAdd t (ocNot (word16 x.bytes o))) (word16 new o)) (cdOf x i))
      else x
    { y with bytes := new }

/-- Step 5: the destination of a word (R258). -/
def applyDst (okPc : Nat → Bool) (x : Eng) (nw : BitVec 256) (r : Nat) : Eng :=
  let d := nwPart nw 128
  let a := opAddr x d
  match opKind d with
  | 1 => { x with sreg := tput 0 x.sreg (k1 (opReg d)) (BitVec.ofNat 64 r) }
  | 2 => applyWinDst x nw a (opSize d) r (opLe d)
  | 6 => { x with out := BitVec.ofNat 64 (r % 2 ^ 32) }
  | 7 => if x.handler.isSome then { x with tf := writeTf okPc x.tf a (writeBytes r (opSize d) (opLe d)) } else x
  | _ => x

/-- Step 7: the flags (R259) and the user flag (R256). -/
def applyFlags (x : Eng) (nw : BitVec 256) (o : AluOut) (w : Nat) : Eng :=
  let z := o.r == 0
  let y := if bit nw 216 then { x with z := z, n := o.r.testBit (w - 1), c := o.c, v := o.v } else x
  let b := 2 ^ fld nw 221 220
  let clear := y.u - (if y.u.testBit (fld nw 221 220) then b else 0)
  match fld nw 223 222 with
  | 1 => { y with u := clear + b }
  | 2 => { y with u := clear }
  | 3 => { y with u := clear + (if z then b else 0) }
  | _ => y

/-- Step 8: the counter operation is held (R263). -/
def applyCount (x : Eng) (sOld : Eng) (nw : BitVec 256) (L r : Nat) : Eng :=
  let n := (fld nw 215 207 + (if bit nw 202 then sreg sOld (fld nw 206 203) else 0)) % 512
  match fld nw 201 200 with
  | 1 => { x with held := x.held ++ [(n, L)] }
  | 2 => { x with held := x.held ++ [(n, r % 2 ^ 32)] }
  | _ => x

/-- Steps 2 to 8 of one word (R264, R265). Every step is judged for WINDOW before any cause suppresses its part. -/
def runWord (okPc : Nat → Bool) (x : Eng) (c : Copy) (v : ActView) (nw : BitVec 256) : WordOut :=
  let (a, ca) := readOp x c v (nwPart nw 64) (fld nw 63 0)
  let (b, cb) := readB x c v nw
  let w := 8 * 2 ^ fld nw 199 198
  let op := fld nw 197 192
  let o := alu op w a b (b2n x.c) (fld nw 63 0)
  let arith := arithOp op && ((bit nw 232 && o.v) || (bit nw 233 && o.c))
  let wx := fld nw 180 167 + (if bit nw 162 then sreg x (fld nw 166 163) % 16384 else 0)
  let k := fld nw 187 181 + 1
  let len := x.bytes.length
  let cw := match fld nw 161 160 with
    | 1 => insertCause x.base len x.fetches wx k x.growth
    | 2 => writeCause x.base len x.fetches wx k
    | _ => none
  let len2 := if cw.isSome then len else match fld nw 161 160 with | 1 => len + k | 2 => len - k | _ => len
  let d := nwPart nw 128
  let writes := decide (2 ≤ fld nw 228 227) || aluWrites op
  let cd := if writes && opKind d == 2 then writeCause x.base len2 x.fetches (opAddr x d) (opSize d) else none
  let causes := ca ++ cb ++ (if arith then [({ code := 3, detail := 1 } : Cause)] else []) ++ cw.toList ++ cd.toList
  if causes.any (fun q => q.code == 1) then { eng := x, causes := causes.filter (fun q => q.code == 1) }
  else
    let y := applyWin x nw wx k cw.isNone
    let y := if writes && !arith && cd.isNone then applyDst okPc y nw o.r else y
    let y := trackDelete x.bytes y nw wx k cw.isNone
    let y := if fld nw 228 227 = 1 then setCd y (fld nw 225 224) 0 else y
    let y := applyFlags y nw o w
    let y := if arith then y else applyCount y x nw (stLength c.fi.stamp) o.r
    { eng := y, causes := causes }

/-! ## Traps, aborts and the end of a routine (R234 to R240) -/

/-- The flags of `TF.FLAGS`. -/
def flagBits (x : Eng) : Nat := b2n x.z + 2 * b2n x.n + 4 * b2n x.c + 8 * b2n x.v + 16 * (x.u % 16)

/-- A number laid out in a trap frame's 16-bit and 64-bit arrays. -/
def packWords (w : Nat) : List Nat → Nat
  | [] => 0
  | v :: r => v % 2 ^ w + 2 ^ w * packWords w r

/-- The trap frame (R239). -/
def mkFrame (x : Eng) (upc code detail resume off : Nat) (resumeEnd : Bool) : BitVec 1280 :=
  BitVec.ofNat 1280 (upc % 2 ^ 14 + resume % 2 ^ 14 * 2 ^ 16 + b2n resumeEnd * 2 ^ 30 + code * 2 ^ 32 +
    detail % 256 * 2 ^ 40 + flagBits x * 2 ^ 48 + x.base % 2 ^ 14 * 2 ^ 64 + (x.growth % 16384).toNat * 2 ^ 78 +
    x.fetches % 8 * 2 ^ 92 + x.used % 512 * 2 ^ 96 + off % 2 ^ 14 * 2 ^ 112 +
    packWords 16 ((List.range 4).map (cdOf x)) * 2 ^ 128 + packWords 64 ((List.range 16).map (sreg x)) * 2 ^ 192)

/-- The bits of a trap frame that are not reserved (R239). -/
def tfDefined : Nat :=
  (2 ^ 14 - 1) + (2 ^ 31 - 2 ^ 16) + (2 ^ 35 - 2 ^ 32) + (2 ^ 56 - 2 ^ 40) + (2 ^ 95 - 2 ^ 64) + (2 ^ 105 - 2 ^ 96) +
    (2 ^ 126 - 2 ^ 112) + (2 ^ 1216 - 2 ^ 128)

/-- TRAP_RETURN restores the micro state (R238). -/
def restoreTf (x : Eng) : Eng :=
  let t := x.tf
  let f := fld t 55 48
  let cds := (List.range 4).foldl (fun d i => tput 0 d (k1 i) (fld t (143 + 16 * i) (128 + 16 * i))) []
  let regs := (List.range 16).foldl
    (fun d i => tput 0 d (k1 i) (BitVec.ofNat 64 (fld t (255 + 64 * i) (192 + 64 * i)))) []
  { x with z := f.testBit 0, n := f.testBit 1, c := f.testBit 2, v := f.testBit 3, u := f / 16, cd := cds, sreg := regs,
           upc := fld t 29 16, handler := none }

/-- Remove a copy from the order of dispatch of a pipeline (R220). -/
def dropOrder (p : Nat) (c : Copy) (s : State) : State :=
  let l := (tget [] s.krf.order (k1 p)).filter (fun o => (o.serial, o.ord) ≠ copyId c)
  { s with krf := { s.krf with order := tput [] s.krf.order (k1 p) l } }

/-- The clock at which an engine's next microcycle runs, or its routine has ended (R31, R234). -/
def engDue (x : Eng) : Nat := x.disp + x.used + 40 * x.fetches

/-- A copy leaves its kerf engine rewritten at clock `t` (R151, R220): it waits for its turn to pass on. -/
def leaveKerf (p t : Nat) (d : Done) (s : State) : State :=
  let l := (tget [] s.krf.order (k1 p)).map (fun o =>
    if (o.serial, o.ord) = copyId d.copy then { o with done := some d, at_ := t } else o)
  settle d.copy false { s with krf := { s.krf with order := tput [] s.krf.order (k1 p) l } }

/-- The engine after a routine: idle two clocks after the routine's end (R220, R234). -/
def idleEng (x : Eng) : Eng := { idleAt := engDue x + 2 }

/-- What every end of a routine records: gauges, events and the blaze record (R247, R527, R535). -/
def routineOver (p e : Nat) (x : Eng) (c : Copy) (s : State) : State :=
  let cid := stCid c.fi.stamp
  let s := setEng p e (idleEng x) (ctrMax .krfPeakUsed p 0 x.used s)
  let s := progEvt (uEgress p) 0x23 255 0 2 (progEvt (uEgress p) 0x21 cid 0 x.used s)
  blaze c.fi.stamp c.fi.pos 9 c.port c.cls (uEgress p) x.used 1 p s

/-- Apply held counter increments in the order made (R263, R524). -/
def applyHeld (cid : Nat) (l : List (Nat × Nat)) (s : State) : State :=
  foldS l (fun h s =>
    let t := tmod 0 s.ctr.kerf (k3 cid h.1 0) (fun n => (n + 1) % 2 ^ 64)
    { s with ctr := { s.ctr with kerf := tmod 0 t (k3 cid h.1 1) (fun n => (n + h.2) % 2 ^ 64) } }) s

/-- A routine ends normally (R226, R238, R263). -/
def finish (p e : Nat) (x : Eng) (c : Copy) (s : State) : State :=
  let cid := stCid c.fi.stamp
  let s := applyHeld cid x.held (routineOver p e x c s)
  if bit x.out 0 then dropOrder p c (discardCrossed .krfDrop cid 0 7 false c s)
  else leaveKerf p (engDue x) { copy := c, bytes := x.bytes, out := x.out } s

/-- The frame that an abort leaves: that of the last trap, or, where none was taken, an open value (log entry 31). -/
def abortFrame (x : Eng) (s : State) : BitVec 1280 × State :=
  match x.lastTrap with
  | some _ => (x.tf, s)
  | none => let (f, s) := freshFree s; (BitVec.ofNat 1280 f &&& BitVec.ofNat 1280 tfDefined, s)

/-- Bytes 16 to 63 of KERF_ABORT (R246) without the count. -/
def abortBody (x : Eng) (c : Copy) (upc reason detail cut : Nat) (ring : Nat) : List Byte :=
  packLE [(8, ring), (4, cut), (2, c.fi.action), (2, upc % 16384), (1, reason),
    (1, match x.lastTrap with | some t => t.1 | none => 255), (1, detail), (1, c.port), (2, x.used), (2, x.base),
    (2, (x.growth % 65536).toNat), (2, match x.lastTrap with | some _ => fld x.tf 125 112 | none => 0)]

/-- Record an abort for the ring's event and the last abort frame (R246). -/
def recordAbort (p e : Nat) (x : Eng) (c : Copy) (upc reason : Nat) (s : State) : State :=
  let cid := stCid c.fi.stamp
  let old := tget {} s.krf.abortEvt (k1 cid)
  let who := 32 * p + e
  if old.count = 0 ∨ who < old.who then
    let (f, s) := abortFrame x s
    let (d, s) := match x.lastTrap with | some t => (t.2, s) | none => freshFree s
    let cut := ((copyCut s c).map Cut.number).getD 0
    let evt : AbortEvt := { count := old.count + 1, who := who, body := abortBody x c upc reason (d % 256) cut s.ring }
    { s with krf := { s.krf with abortEvt := tput {} s.krf.abortEvt (k1 cid) evt,
                                 abort := tput none s.krf.abort (k1 cid) (some (s.ring, f)) } }
  else { s with krf := { s.krf with abortEvt := tput {} s.krf.abortEvt (k1 cid) { old with count := old.count + 1 } } }

/-- A routine is aborted (R240): the over-budget action of the stamped cut (R143). -/
def abortEng (p e : Nat) (x : Eng) (c : Copy) (upc reason : Nat) (s : State) : State :=
  let cid := stCid c.fi.stamp
  let s := routineOver p e x c (recordAbort p e x c upc reason (cnt .krfAbort cid reason 1 s))
  if ((copyCut s c).map (fun k => k.body.budget)).getD false then
    leaveKerf p (engDue x) { copy := c, bytes := c.fi.bytes, out := 0 } (cnt .ruleBudgetUnrewritten cid 0 1 s)
  else dropOrder p c (discardCrossed .ruleBudgetDiscard cid 0 7 false c s)

/-- The name of a stored action-data word: its cut and its index (R129, R241). -/
def actStored (s : State) (c : Copy) (w : Nat) : Nat := ((copyCut s c).map Cut.handle).getD 0 * 1048576 + w

/-- A PARITY trap is noted, counted and queued for repair (R241). -/
def actParity (c : Copy) (word : Nat) (s : State) : State :=
  let cid := stCid c.fi.stamp
  let w := actDataPtr (copyAct s c) + word
  let s := progEvt 0x42 0x03 255 0 1 (cnt .krfActParity 0 0 1 s)
  let s := note 0x42 0x0902 cid [cid, ((copyCut s c).map Cut.number).getD 0, w] s
  { s with par := { s.par with repairs := s.par.repairs ++ [{ region := 2, who := cid, index := actStored s c w, ring := s.ran }] } }

/-- Take a trap (R238): the frame is written, the entry is a microcycle, and the handler's vector is next. `resume` is
the address to resume at, none for the end of the routine; an address that no rule gives is open (log entry 32). -/
def takeTrap (p e : Nat) (x : Eng) (c : Copy) (upc : Nat) (q : Cause) (resume : Option Nat) (s : State) : State :=
  let cid := stCid c.fi.stamp
  let s := progEvt (uEgress p) 0x24 cid (2 ^ q.code) 1 (cnt .krfTrap cid q.code 1 s)
  let s := progEvt (uEgress p) 0x23 255 0 1 s
  let s := if q.code = 2 then actParity c q.arg s else s
  let slide := q.code == 1
  let s := if slide then progEvt (uEgress p) 0x22 cid 0 1 (cnt .krfFetch cid 0 1 s) else s
  let x := { x with used := x.used + 1, base := if slide then q.arg else x.base,
                    fetches := if slide then x.fetches + 1 else x.fetches }
  let (r, s) := match q.code, resume with | 0, _ => freshFree s | _, some a => (a, s) | _, none => freshFree s
  let x := { x with tf := mkFrame x upc q.code q.detail r q.off resume.isNone, lastTrap := some (q.code, q.detail),
                    handler := some q.code, upc := 8 * q.code, phase := if slide then 2 else 1 }
  if q.code ≠ 0 ∧ copyBudget c ≤ x.used then abortEng p e x c upc 3 s else setEng p e x s

/-- The budget test at the end of a microcycle that did not end the routine (R234, R240, R266). -/
def budgetTest (p e : Nat) (x : Eng) (c : Copy) (upc : Nat) (s : State) : State :=
  let b := copyBudget c
  if x.used < b then setEng p e x s
  else
    match x.handler with
    | none => takeTrap p e x c upc { code := 0, detail := 0 } (some upc) s
    | some 0 => if b + 16 ≤ x.used then abortEng p e x c upc 2 s else setEng p e x s
    | some _ => abortEng p e x c upc 3 s

/-- A word raised a trap (R234, R238, R240). -/
def raiseTrap (p e : Nat) (x : Eng) (c : Copy) (upc : Nat) (q : Cause) (resume : Option Nat) (s : State) : State :=
  if x.handler.isSome then abortEng p e x c upc 3 s
  else if copyBudget c ≤ x.used then takeTrap p e x c upc { code := 0, detail := 0, off := q.off } resume s
  else takeTrap p e x c upc q resume s

/-- TRAP_RETURN (R238, R240). Its word lies in a handler, so a BUDGET cause that it meets aborts NESTED (R236, R266). -/
def trapReturn (p e : Nat) (x : Eng) (c : Copy) (upc : Nat) (s : State) : State :=
  match x.handler with
  | none => abortEng p e x c upc 4 s
  | some 0 => abortEng p e x c upc 1 s
  | some _ =>
    if bit x.tf 30 then finish p e (restoreTf x) c s
    else if copyBudget c ≤ x.used then abortEng p e x c upc 3 s
    else setEng p e (restoreTf x) s

/-! ## The microcycle (R264) -/

/-- A store word awaits the Ranger's rewrite (R244). -/
def storeBad (s : State) (p i : Nat) : Bool :=
  s.par.repairs.any (fun r => r.region == 3 && r.who == p && r.index == i)

/-- A store word fails parity when it is fetched (R244). -/
def storeParity (p e : Nat) (x : Eng) (c : Copy) (store addr : Nat) (s : State) : State :=
  let s := progEvt (uEgress p) 0x03 255 0 1 (cnt .krfStoreParity p 0 1 s)
  let s := noteWindow (uEgress p) 0x0901 255 [p, store, addr] 2 s
  let i := store * 16384 + addr
  let s := if storeBad s p i then s
    else { s with par := { s.par with repairs := s.par.repairs ++ [{ region := 3, who := p, index := i, ring := s.ran }] } }
  abortEng p e x c x.upc 5 s

/-- The words of action data that fail parity: the one found bad now, or those that await repair (R241). -/
def actView (s : State) (c : Copy) (bad : Option (Fin 16)) : ActView :=
  let base := actDataPtr (copyAct s c)
  { bytes := actBytes s c,
    bad := fun i => bad.map Fin.val == some i || s.par.repairs.any (fun r =>
      r.region == 2 && r.who == stCid c.fi.stamp && r.index == actStored s c (base + i)) }

/-- A word with COND `cond` raised a trap: one with COND 14 lies in a handler, so its trap aborts the routine NESTED wherever it was
reached (R236). -/
def wordTrap (cond p e : Nat) (x : Eng) (c : Copy) (upc : Nat) (q : Cause) (resume : Option Nat) (s : State) : State :=
  if cond = 14 then abortEng p e x c upc 3 s else raiseTrap p e x c upc q resume s

/-- Steps 2 to 10 of R264 for a word that was fetched whole. -/
def execWord (p e : Nat) (x : Eng) (c : Copy) (mw : BitVec 32) (nw : BitVec 256) (actBad : Option (Fin 16)) (s : State) : State :=
  let upc := x.upc
  let cond := fld mw 3 0
  let o := runWord (inRegions s (stCid c.fi.stamp)) x c (actView s c actBad) nw
  let y := { o.eng with used := x.used + 1 }
  let taken := condTrue cond y.z y.n y.c y.v y.u
  let next := nextAddr (fld mw 17 4) taken
  let resume := if cond = 15 then none else some next
  let explicit := bit nw 240 && (!bit nw 241 || taken || cond == 0 || decide (14 ≤ cond))
  let s := progEvt (uEgress p) 0x23 255 0 1 s
  match o.causes with
  | q :: _ => wordTrap cond p e y c upc q (if q.code = 1 then some upc else resume) s
  | [] =>
    if explicit then wordTrap cond p e y c upc { code := 4, detail := fld nw 7 0 } resume s
    else if cond = 15 then finish p e y c s
    else if cond = 14 then trapReturn p e y c upc s
    else budgetTest p e { y with upc := next } c upc s

/-- The store image in force at the dispatch of a routine, on which it runs wholly (R245). -/
def storesAt (s : State) (disp : Nat) : StoreImage :=
  (s.krf.prior.find? (fun x => decide (disp < x.upTo))).getD { micro := s.krf.micro, nano := s.krf.nano }

/-- MICROCYCLE: engine `e` of pipeline `p` executes one microword, at the clock of that microcycle or, where the row comes later,
then; a row that comes before finds the engine with the microcycle before (R234). -/
def microcycle (p e clk : Nat) (microBad nanoBad : Bool) (actBad : Option (Fin 16)) (s : State) :
    State :=
  let s := { s with clock := clk }
  let x := engOf s p e
  match x.copy with
  | none => s
  | some c =>
    if x.phase ≠ 1 ∨ nowClk s < engDue x then s
    else
      let st := storesAt s x.disp
      let mw := tget 0 st.micro (k1 x.upc)
      let na := fld mw 31 18
      if microBad || storeBad s p x.upc then storeParity p e x c 0 x.upc s
      else if nanoBad || storeBad s p (16384 + na) then storeParity p e x c 1 na s
      else execWord p e x c mw (tget 0 st.nano (k1 na)) actBad s

/-- WINDOW_FETCH_DONE: the 40-clock stall is over (R229, R234). -/
def windowFetchDone (p e clk : Nat) (s : State) : State :=
  let s := { s with clock := clk }
  let x := engOf s p e
  if x.phase = 2 ∧ engDue x ≤ nowClk s then setEng p e { x with phase := 1 } (progEvt (uEgress p) 0x23 255 0 40 s) else s

/-! ## Dispatch (R218 to R222) -/

/-- An engine is busy at the present clock. -/
def engBusy (s : State) (p e : Nat) : Bool :=
  let x := engOf s p e
  x.phase != 0 || decide (nowClk s < x.idleAt)

/-- Busy engines of a pipeline. -/
def busyCount (s : State) (p : Nat) : Nat := ((List.range 32).filter (engBusy s p)).length

/-- Remove the head of a pipeline's dispatch queue and note the copy in the order of dispatch. -/
def takeHead (p : Nat) (c : Copy) (s : State) : State :=
  let q := (tget [] s.krf.queue (k1 p)).drop 1
  let o := tget [] s.krf.order (k1 p) ++ [{ serial := c.fi.serial, ord := c.ord, port := c.port, cls := c.cls }]
  { s with krf := { s.krf with queue := tput [] s.krf.queue (k1 p) q, order := tput [] s.krf.order (k1 p) o,
                               next := tput 0 s.krf.next (k1 p) (nowClk s + 1) } }

/-- The cells of the head are read: corrected errors are counted, an uncorrectable one discards the copy (R298). -/
def headErrs (errs : CellErrs) (s : State) : State := foldS errs (fun x => cbFinding x.1.val (if x.2 then 2 else 0)) s

/-- The head of a pipeline's dispatch queue that may be dispatched at the present clock: it has passed the 24 clocks of R31,
and no other copy was dispatched in this clock (R218). -/
def dispatchHead (s : State) (p : Nat) : Option Copy :=
  if nowClk s < tget 0 s.krf.next (k1 p) then none
  else (tget [] s.krf.queue (k1 p)).head?.filter (fun c => decide (c.at_ ≤ nowClk s))

/-- KERF_DISPATCH: the head of the dispatch queue goes to the lowest idle engine, bypasses the engines, or waits. -/
def kerfDispatch (p clk : Nat) (errs : CellErrs) (found : Stores) (s : State) : State :=
  let s := enterDue p { s with clock := clk }
  match dispatchHead s p with
  | none => s
  | some c =>
    let cid := stCid c.fi.stamp
    let entry := actEntry (copyAct s c)
    let idle := (List.range 32).find? (fun e => !engBusy s p e)
    if errs.any (fun x => x.2) || !(storesBad s c found).isEmpty then
      let s := foldS (storesBad s c found) (storeFinding c) (dropOrder p c (takeHead p c (headErrs errs s)))
      releaseHeld p (settle c false (returnCredits c (blazeDrop c 10 (uEgress p) 1 p s)))
    else if entry = 0 then
      let s := takeHead p c (headErrs errs s)
      let s := blaze c.fi.stamp c.fi.pos 8 c.port c.cls (uEgress p) 65535 1 p (cnt .krfBypass cid 0 1 s)
      releaseHeld p (leaveKerf p (nowClk s) { copy := c, bytes := c.fi.bytes, out := 0 } s)
    else
      match idle with
      | none => s
      | some e =>
        let s := takeHead p c (headErrs errs s)
        let x : Eng := { phase := 1, copy := some c, disp := nowClk s, upc := entry, bytes := c.fi.bytes }
        let s := setEng p e x (cnt .krfRoutines cid 0 1 s)
        let s := ctrMax .krfPeakBusy p 0 (busyCount s p) s
        let s := progEvt (uEgress p) 0x20 cid (2 ^ c.cls) 1 s
        releaseHeld p (blaze c.fi.stamp c.fi.pos 8 c.port c.cls (uEgress p) e 1 p s)

/-! ## To the scheduler (R220, R441, R442) -/

/-- On a port shared by compartments, the outer tag that the routine left resolves to the copy's own (R442). -/
def egressOwn (s : State) (d : Done) : Bool :=
  let (t, vid, _) := outerTag d.bytes
  decide ((attachedTo s d.copy.port).length < 2) ||
    resolveIn s.cmp.att d.copy.port t vid == some (stCid d.copy.fi.stamp)

/-- A copy enters its scheduler queue, or is discarded there. -/
def toScheduler (d : Done) (s : State) : State :=
  let c := d.copy
  let cid := stCid c.fi.stamp
  if stale s c then discardDone .cmpStaleFrames cid 0 1 c s
  else if !(port s c.port).up then discardDone .txDownDiscard c.port 0 3 c s
  else if !attached s cid c.port || decide (c.q < tget 0 s.cmp.detached (k2 cid c.port)) then discardDone .cmpDetachDiscard cid 0 10 c s
  else if !egressOwn s d then discardDone .cmpEgressForeign cid 0 10 c s
  else
    let k := k3 c.port c.cls cid
    let d := { d with arr := s.sch.arr }
    { s with sch := { s.sch with queue := tput [] s.sch.queue k (tget [] s.sch.queue k ++ [d]), arr := s.sch.arr + 1 } }

/-- COPY_TO_SCHEDULER: the oldest copy of a port and class passes on once its routine has ended (R31, R220). -/
def copyToScheduler (p port cls clk : Nat) (s : State) : State :=
  let s := { s with clock := clk }
  match (tget [] s.krf.order (k1 p)).find? (fun o => o.port == port && o.cls == cls) with
  | none => s
  | some o =>
    match o.done with
    | none => s
    | some d => if nowClk s < o.at_ then s else guardTick port (dropOversize port (toScheduler d (dropOrder p d.copy s)))

/-! ## Rotation changes and fences (R242, R243) -/

/-- Discard every copy of a pipeline's dispatch queue, or on its way into it, that satisfies `pc`. -/
def purgeQueue (p : Nat) (pc : Copy → Bool) (drop : Copy → State → State) (s : State) : State :=
  let l := tget [] s.krf.queue (k1 p)
  let r := tget [] s.krf.ready (k1 p)
  foldS ((l ++ r).filter pc) drop
    { s with krf := { s.krf with queue := tput [] s.krf.queue (k1 p) (l.filter (fun c => !pc c)),
                                 ready := tput [] s.krf.ready (k1 p) (r.filter (fun c => !pc c)) } }

/-- Discard the copies of a pipeline that have left their engines and wait to pass on. -/
def purgeDone (p : Nat) (pc : Copy → Bool) (drop : Copy → State → State) (s : State) : State :=
  let gone := (tget [] s.krf.order (k1 p)).filterMap (fun o => o.done.bind (fun d => if pc d.copy then some d.copy else none))
  foldS gone (fun c s => drop c (dropOrder p c s)) s

/-- Every engine that holds a copy of compartment `c`'s old rotation stops at once, and the pipelines' queues lose such
copies (R242). -/
def kerfRotate (c : Nat) (s : State) : State :=
  let pc (t : State) (x : Copy) : Bool := stCid x.fi.stamp == c && stale t x
  foldS (List.range 8) (fun p s =>
    let s := foldS (List.range 32) (fun e s =>
      match (engOf s p e).copy with
      | some x =>
        if pc s x then
          dropOrder p x (discardCrossed .cmpStaleFrames c 0 1 false x (setEng p e { idleAt := nowClk s } s)) else s
      | none => s) s
    let s := purgeQueue p (pc s) (discardCrossed .cmpStaleFrames c 0 1 false) s
    let s := purgeDone p (pc s) (discardDone .cmpStaleFrames c 0 1) s
    releaseHeld p s) s

/-- Add the words of R243 to the FENCE record of a unit that has none of them yet. -/
def fenceWords (u : Nat) (ws : List Nat) : List FaultRec → List FaultRec
  | [] => []
  | r :: rs => if r.cls = 1 ∧ r.unit = u then { r with detail := r.detail ++ ws } :: rs else r :: fenceWords u ws rs

/-- A busy engine takes FENCE (R243): its frame becomes its compartment's last abort frame. -/
def fenceEng (p e : Nat) (x : Eng) (c : Copy) (s : State) : State :=
  let cid := stCid c.fi.stamp
  let s := progEvt (uEgress p) 0x24 cid 32 1 (cnt .krfTrap cid 5 1 s)
  let (r, s) := freshFree s
  let f := mkFrame { x with used := x.used + 1 } x.upc 5 0 r 0 false
  let s := { s with krf := { s.krf with abort := tput none s.krf.abort (k1 cid) (some (s.ring, f)) } }
  dropOrder p c (discardCrossed .krfFenceDiscard p 0 4 false c (setEng p e { idleAt := nowClk s } s))

/-- An egress pipeline is fenced (R243). -/
def fenceKerf (p : Nat) (s : State) : State :=
  let busy := (List.range 32).filterMap (fun e => (engOf s p e).copy.map (fun c => (e, engOf s p e, c)))
  let s := match busy.head? with
    | some (_, x, c) =>
      let ws := [stCid c.fi.stamp, x.upc, 5]
      { s with lko := { s.lko with recs := fenceWords (uEgress p) ws s.lko.recs, log := fenceWords (uEgress p) ws s.lko.log } }
    | none => s
  let s := foldS busy (fun b => fenceEng p b.1 b.2.1 b.2.2) s
  let s := purgeQueue p (fun _ => true) (discardCrossed .krfFenceDiscard p 0 4 false) s
  purgeDone p (fun _ => true) (discardDone .krfFenceDiscard p 0 4) s

/-- An engine still busy at the last clock of the ring after its dispatch is a hardware fault (R235), tested in the
ring that ends. -/
def kerfOverrun (s : State) : State :=
  foldS (List.range 8) (fun p s =>
    match (List.range 32).find? (fun e => (engOf s p e).phase != 0 && decide ((engOf s p e).disp / 1600 < s.ran)) with
    | some e => fenceFault (uEgress p) 0x0903 (((engOf s p e).copy.map (fun c => stCid c.fi.stamp)).getD 255)
        [e, (engOf s p e).upc] s
    | none => s) s

/-- KERF_ABORT is posted for each compartment with an abort in the ring that has ended (R246). -/
def kerfEvents (s : State) : State :=
  foldS s.krf.abortEvt (fun e => post e.1.1 0x0402 (e.2.body ++ leBytes 4 e.2.count))
    { s with krf := { s.krf with abortEvt := [] } }

/-! ## Meanings -/

/-- KERF_DISPATCH (R218). -/
def execKerfDispatch (pipe : Fin 8) (clk : Fin 1600) (errs : StoreErrs) (s : State) : Out :=
  .next (unlessHalted s (kerfDispatch pipe.val clk.val errs.cells errs.recs s))
/-- MICROCYCLE (R264). -/
def execMicrocycle (pipe : Fin 8) (eng : Fin 32) (clk : Fin 1600) (microBad nanoBad : Bool) (actBad : Option (Fin 16))
    (s : State) : Out :=
  .next (unlessHalted s (microcycle pipe.val eng.val clk.val microBad nanoBad actBad s))
/-- WINDOW_FETCH_DONE (R229). -/
def execWindowFetchDone (pipe : Fin 8) (eng : Fin 32) (clk : Fin 1600) (s : State) : Out :=
  .next (unlessHalted s (windowFetchDone pipe.val eng.val clk.val s))
/-- COPY_TO_SCHEDULER (R220). -/
def execCopyToScheduler (pipe : Fin 8) (port : Fin 64) (cls : Fin 8) (clk : Fin 1600) (s : State) : Out :=
  .next (unlessHalted s (copyToScheduler pipe.val port.val cls.val clk.val s))

end Sys2Proof.Machine
end

