-- ==== Sys2Proof/Machine/Parser.lean ====
section
/-!
DEFINITION. The parser (R105 to R126): the parse graph's records, the rules a graph must keep, the walk, and the parse
vector.
-/
namespace Sys2Proof.Machine

/-! ## Records (R107 to R109) -/

/-- A field specification (R107): byte, bit and width in bits. -/
structure Fspec where
  byte : Nat
  bit : Nat
  width : Nat

/-- Read a field specification at bit `lo` of a node. -/
def fspecAt (n : BitVec 256) (lo : Nat) : Fspec :=
  { byte := fld n (lo + 7) lo, bit := fld n (lo + 10) (lo + 8), width := fld n (lo + 15) (lo + 11) + 1 }

/-- The bit just past a field, counted from its header's first byte. -/
def Fspec.endBit (f : Fspec) : Nat := 8 * f.byte + f.bit + f.width

/-- Fields of a node (R108). -/
def ndHdr (n : BitVec 256) : Nat := fld n 7 0
def ndValid (n : BitVec 256) : Bool := bit n 8
def ndTerminal (n : BitVec 256) : Bool := bit n 9
def ndMode (n : BitVec 256) : Nat := fld n 11 10
def ndPeek (n : BitVec 256) : Bool := ndMode n == 2
def ndLenMin (n : BitVec 256) : Nat := fld n 47 40
def ndLenMax (n : BitVec 256) : Nat := fld n 59 48
def ndLenBase (n : BitVec 256) : Nat := fld n 39 32
def ndZeroForbid (n : BitVec 256) : Bool := bit n 64
def ndTotEn (n : BitVec 256) : Bool := bit n 65
def ndVerEn (n : BitVec 256) : Bool := bit n 68
def ndDefault (n : BitVec 256) : Nat := fld n 70 69
def ndFromEnd (n : BitVec 256) : Bool := bit n 71
def ndTransBase (n : BitVec 256) : Nat := fld n 145 136
def ndTransCount (n : BitVec 256) : Nat := fld n 150 146
def ndSel (n : BitVec 256) : Fspec := fspecAt n 120
/-- The node's selector is read (R106). -/
def ndSelRead (n : BitVec 256) : Bool := !ndTerminal n && ndTransCount n != 0
/-- Extract `i`: source, count, destination, enabled. -/
def ndExtract (n : BitVec 256) (i : Nat) : Nat × Nat × Nat × Bool :=
  let lo := 160 + 20 * i
  (fld n (lo + 7) lo, fld n (lo + 11) (lo + 8) + 1, fld n (lo + 17) (lo + 12), bit n (lo + 18))

/-- Fields of a transition (R109). -/
def trNext (t : BitVec 96) : Nat := fld t 71 64
def trValid (t : BitVec 96) : Bool := bit t 72
/-- A transition matches a selector (R116). -/
def trMatches (t : BitVec 96) (sel : Nat) : Bool := trValid t && (sel &&& fld t 63 32) == (fld t 31 0 &&& fld t 63 32)

/-- Node and transition records of a graph. -/
def nodeOf (g : Graph) (i : Nat) : BitVec 256 := tget 0 g.nodes (k1 i)
def transOf (g : Graph) (i : Nat) : BitVec 96 := tget 0 g.trans (k1 i)

/-! ## The rules of a graph (R106) -/

/-- A checked field lies within the first `LEN_MIN` bytes. -/
def fieldIn (n : BitVec 256) (f : Fspec) : Bool := decide (f.endBit ≤ 8 * ndLenMin n)

/-- The transitions that a node searches. -/
def ndTrans (n : BitVec 256) : List Nat := (List.range (ndTransCount n)).map (fun i => ndTransBase n + i)

/-- The rules that give ZERO_LEN on a valid node. -/
def nodeZero (n : BitVec 256) : Bool :=
  !ndPeek n && (ndLenMin n == 0 || ndLenMax n == 0 || (ndMode n == 0 && ndLenBase n == 0))

/-- The next nodes that a node names are valid. -/
def nodeNexts (g : Graph) (n : BitVec 256) : Bool :=
  (!ndSelRead n || (ndTrans n).all (fun i => !trValid (transOf g i) || ndValid (nodeOf g (trNext (transOf g i))))) &&
    (ndTerminal n || ndDefault n != 1 || ndValid (nodeOf g (fld n 159 152)))

/-- The widths of the fields that a node uses. -/
def nodeWidths (n : BitVec 256) : Bool :=
  (ndMode n != 1 || decide ((fspecAt n 16).width ≤ 16)) && (!ndTotEn n || decide ((fspecAt n 72).width ≤ 16)) &&
    (!ndVerEn n || decide ((fspecAt n 96).width ≤ 8)) && (!ndSelRead n || decide ((ndSel n).width ≤ 32))

/-- The places of the fields that a non-peek node uses. -/
def nodePlaces (n : BitVec 256) : Bool :=
  (ndMode n != 1 || fieldIn n (fspecAt n 16)) && (!ndTotEn n || fieldIn n (fspecAt n 72)) &&
    (!ndVerEn n || fieldIn n (fspecAt n 96)) &&
    (!ndSelRead n ||
      (if ndFromEnd n then
        decide ((ndSel n).byte < ndLenMin n) && decide ((ndSel n).bit + (ndSel n).width ≤ 8 * ((ndSel n).byte + 1))
       else fieldIn n (ndSel n)))

/-- The extracts of a non-peek node. -/
def nodeExtracts (n : BitVec 256) : Bool :=
  (List.range 4).all (fun i =>
    let (src, cnt, dst, en) := ndExtract n i
    !en || (decide (src + cnt ≤ ndLenMin n) && decide (dst + cnt ≤ 64)))

/-- The rules that give RANGE on a valid node. -/
def nodeRange (g : Graph) (n : BitVec 256) : Bool :=
  (ndPeek n || decide (ndLenMin n ≤ ndLenMax n)) && ndMode n != 3 && ndDefault n != 3 && (ndPeek n || ndHdr n != 0) &&
    nodeNexts g n && nodeWidths n &&
    (if ndPeek n then !ndSelRead n || decide ((ndSel n).endBit ≤ 32) else nodePlaces n && nodeExtracts n) &&
    decide (ndTransCount n ≤ 16) && decide (ndTransBase n + ndTransCount n ≤ 1024)

/-- The valid nodes of a graph. -/
def validNodes (g : Graph) : List (BitVec 256) := (g.nodes.map Prod.snd).filter ndValid

/-- The rules of R106 that concern the graph alone. -/
def graphCheck (g : Graph) : Status :=
  firstBad [((validNodes g).all (fun n => !nodeZero n), .zeroLen), ((validNodes g).all (nodeRange g), .range)]

/-! ## The walk (R113 to R118) -/

/-- A field of a frame: `w` bits from bit `b` of byte `o`, the first bit most significant (R107). -/
def fieldAt (l : List Byte) (o b w : Nat) : Nat := beNat (padTo 8 (slice l o 8)) / 2 ^ (64 - b - w) % 2 ^ w

/-- The value of a field specification in a header at `o`. -/
def specAt (l : List Byte) (o : Nat) (f : Fspec) : Nat := fieldAt l (o + f.byte) f.bit f.width

/-- What a walk found. -/
structure Walk where
  hdrs : List (Nat × Nat) := []
  fields : List Byte := zeros 64
  lastNode : Nat := 0
  endOffset : Nat := 0
  horizon : Bool := false
  depth : Bool := false
  reason : Nat := 0
  /-- The last node entered. -/
  entered : Option Nat := none
  /-- Record errors met, in order: (0 node or 1 transition, index, corrected). -/
  found : List (Nat × Nat × Bool) := []

/-- The walk ends malformed at an offset. -/
def Walk.mal (w : Walk) (reason node o : Nat) : Walk := { w with reason := reason, lastNode := node, endOffset := o }
/-- The walk ends at the horizon. -/
def Walk.hzn (w : Walk) (depth : Bool) (node o : Nat) : Walk :=
  { w with horizon := true, depth := depth, lastNode := node, endOffset := o }

/-- The ones' complement sum of bytes as 16-bit words. -/
def csum16 (l : List Byte) : Nat :=
  (chunks 2 l.length l).foldl (fun a b => let x := a + beNat (padTo 2 b); x % 65536 + x / 65536) 0

/-- Copy one extract into the field area (R117). -/
def extractOne (l : List Byte) (o : Nat) (f : List Byte) (x : Nat × Nat × Nat × Bool) : List Byte :=
  if x.2.2.2 then (f.take x.2.2.1 ++ padTo x.2.1 (slice l (o + x.1) x.2.1) ++ f.drop (x.2.2.1 + x.2.1)).take 64 else f

/-- What a node's checks before the length give (R114, steps 3 and 4): a reason code, 0xFF for the horizon, 0 for none. -/
def preCheck (l : List Byte) (n : BitVec 256) (o b : Nat) : Nat :=
  let need := if ndPeek n then (if ndSelRead n then ((ndSel n).endBit + 7) / 8 else 0) else ndLenMin n
  if b < o + need then 0x01
  else if 192 < o + need then 0xFF
  else if !ndPeek n && ndVerEn n && specAt l o (fspecAt n 96) != fld n 119 112 then 0x09
  else 0

/-- The header's length (R108). -/
def hdrLen (l : List Byte) (n : BitVec 256) (o : Nat) : Nat :=
  if ndPeek n then 0
  else if ndMode n = 1 then ndLenBase n + specAt l o (fspecAt n 16) * 2 ^ fld n 13 12
  else ndLenBase n

/-- Steps 5 and 6. -/
def lenCheck (l : List Byte) (n : BitVec 256) (o b : Nat) : Nat :=
  let h := hdrLen l n o
  if ndPeek n then 0
  else if ndMode n = 1 ∧ ndZeroForbid n ∧ specAt l o (fspecAt n 16) = 0 then 0x04
  else if ndMode n = 1 ∧ h < ndLenMin n then 0x02
  else if ndMode n = 1 ∧ ndLenMax n < h then 0x03
  else if b < o + h then 0x01
  else if 192 < o + h then 0xFF
  else 0

/-- The total length of a header (R108). -/
def hdrTotal (l : List Byte) (n : BitVec 256) (o : Nat) : Nat := fld n 95 88 + specAt l o (fspecAt n 72)

/-- Steps 7 and 8; `f` is the frame end. -/
def totCheck (l : List Byte) (n : BitVec 256) (o b f : Nat) : Nat :=
  let h := hdrLen l n o
  let t := hdrTotal l n o
  if ndPeek n then 0
  else if ndTotEn n ∧ ndZeroForbid n ∧ specAt l o (fspecAt n 72) = 0 then 0x04
  else if ndTotEn n ∧ t < h then 0x06
  else if ndTotEn n ∧ f < o + t then 0x05
  else if ndTotEn n ∧ b < o + t then 0x07
  else if bit n 67 && csum16 (slice l o h) != 0xFFFF then 0x08
  else 0

/-- Steps 3 to 8 in their order. -/
def hdrCheck (l : List Byte) (n : BitVec 256) (o b f : Nat) : Nat :=
  let x := preCheck l n o b
  if x ≠ 0 then x
  else
    let y := lenCheck l n o b
    if y ≠ 0 then y else totCheck l n o b f

/-- The selector of a node at `o` (R116). -/
def selector (l : List Byte) (n : BitVec 256) (o : Nat) : Nat :=
  let f := ndSel n
  if ndPeek n || !ndFromEnd n then specAt l o f else fieldAt l (o + hdrLen l n o - 1 - f.byte) f.bit f.width

/-- Enter a header (R114 step 9): the list and the extracts; a peek node enters nothing. -/
def enter (l : List Byte) (n : BitVec 256) (node o : Nat) (w : Walk) : Walk :=
  if ndPeek n then w
  else
    { w with hdrs := w.hdrs ++ [(ndHdr n, o)], entered := some node,
             fields := ((List.range 4).map (ndExtract n)).foldl (extractOne l o) w.fields }

/-- The records that a node reads and that fail, as the findings report them. DESIGN CHOICE (log entry 100): a node that selects
reads every transition record of its range, those behind the first match too. -/
def recFound (find : Nat → Nat → Option Bool) (n : BitVec 256) (node : Nat) : List (Nat × Nat × Bool) :=
  ((find 0 node).map (fun k => (0, node, k))).toList ++
    (if ndSelRead n then (ndTrans n).filterMap (fun i => (find 1 i).map (fun k => (1, i, k))) else [])

/-- The walk from a node at offset `o` with bound `b` (R113 to R116); the fuel is the stages left. -/
def walkFrom (g : Graph) (find : Nat → Nat → Option Bool) (l : List Byte) (f : Nat) : Nat → Nat → Nat → Nat → Walk → Walk
  | 0, node, o, _, w => w.hzn true node o
  | stages + 1, node, o, b, w =>
    let n := nodeOf g node
    let bad := recFound find n node
    let w := { w with found := w.found ++ bad }
    if bad.any (fun x => !x.2.2) then w.mal 0x0B node o
    else
      let r := hdrCheck l n o b f
      if r = 0xFF then w.hzn false node o
      else if r ≠ 0 then w.mal r node o
      else
        let h := hdrLen l n o
        let b := if !ndPeek n && ndTotEn n && bit n 66 then o + hdrTotal l n o else b
        let w := enter l n node o w
        let stop : Walk := { w with lastNode := w.entered.getD node, endOffset := o + h }
        if ndTerminal n then stop
        else
          match (ndTrans n).find? (fun i => trMatches (transOf g i) (selector l n o)) with
          | some i => walkFrom g find l f stages (trNext (transOf g i)) (o + h) b w
          | none =>
            match ndDefault n with
            | 1 => walkFrom g find l f stages (fld n 159 152) (o + h) b w
            | 2 => w.mal 0x0A node (o + h)
            | _ => stop

/-- The walk of a frame (R113): 16 stages from the start node. -/
def walkFrame (g : Graph) (find : Nat → Nat → Option Bool) (start : Nat) (l : List Byte) : Walk :=
  walkFrom g find l l.length 16 start 0 l.length {}

/-- The parse vector (R119). -/
def packPv (w : Walk) (tagged : Bool) (vid prio : Nat) : BitVec 1024 :=
  let hdr := leNat (w.hdrs.flatMap (fun h => [BitVec.ofNat 8 h.1, BitVec.ofNat 8 h.2]))
  BitVec.ofNat 1024 (w.hdrs.length % 32 + b2n w.horizon * 2 ^ 5 + b2n (w.horizon && w.depth) * 2 ^ 6 +
    b2n (w.reason != 0) * 2 ^ 7 + w.reason % 256 * 2 ^ 8 + w.lastNode % 256 * 2 ^ 16 + w.endOffset % 256 * 2 ^ 24 +
    vid % 4096 * 2 ^ 32 + b2n tagged * 2 ^ 44 + prio % 8 * 2 ^ 45 + hdr % 2 ^ 256 * 2 ^ 64 +
    leNat w.fields % 2 ^ 512 * 2 ^ 320)

/-- Fields of the parse vector. -/
def pvHdrCount (pv : BitVec 1024) : Nat := fld pv 4 0
def pvHorizon (pv : BitVec 1024) : Bool := bit pv 5
def pvMalformed (pv : BitVec 1024) : Bool := bit pv 7
def pvReason (pv : BitVec 1024) : Nat := fld pv 15 8
def pvLastNode (pv : BitVec 1024) : Nat := fld pv 23 16
def pvVid (pv : BitVec 1024) : Nat := fld pv 43 32
def pvTagged (pv : BitVec 1024) : Bool := bit pv 44
def pvPrio (pv : BitVec 1024) : Nat := fld pv 47 45
/-- `PV.HDR` entry `i`: identifier and offset. -/
def pvHdr (pv : BitVec 1024) (i : Nat) : Nat × Nat := (fld pv (71 + 16 * i) (64 + 16 * i), fld pv (79 + 16 * i) (72 + 16 * i))
/-- The field area. -/
def pvFields (pv : BitVec 1024) : List Byte := leBytes 64 (fld pv 831 320)
/-- A header identifier stands in the list. -/
def pvHas (pv : BitVec 1024) (h : Nat) : Bool := (List.range (pvHdrCount pv)).any (fun i => (pvHdr pv i).1 == h)

end Sys2Proof.Machine
end

