-- ==== Sys2Proof/Machine/Bundle.lean ====
section
/-!
DEFINITION. Wytra bundles and kerf images (R249 to R252, R268 to R271, R461, R578 to R580): their checks, the loads and
their landing, the regions of the stores, and the reads of loaded images and abort frames.
-/
namespace Sys2Proof.Machine

/-! ## Reading a bundle (R268, R578, R579) -/

/-- The 128-byte trailer of a bundle (R461). -/
def trailer (b : List Byte) : List Byte := b.drop (b.length - 128)

/-- Section `i` of the table: type, offset, length, and whether its reserved bytes are zero. -/
def secEntry (b : List Byte) (i : Nat) : Nat × Nat × Nat × Bool :=
  let e := slice b (32 + 16 * i) 16
  (leAt e 0 2, leAt e 4 4, leAt e 8 4, leAt e 2 2 == 0 && leAt e 12 4 == 0)

/-- The bytes of section `i`. -/
def secBytes (b : List Byte) (i : Nat) : List Byte := let (_, o, n, _) := secEntry b i; slice b o n

/-- The first section of a type. -/
def secOf (b : List Byte) (typ : Nat) : List Byte :=
  (((List.range (leAt b 12 2 % 3)).find? (fun i => (secEntry b i).1 == typ)).map (secBytes b)).getD []

/-- A parse graph as its section carries it (R579). -/
def graphOf (x : List Byte) : Graph :=
  let n := min 256 (leAt x 8 2)
  let t := min 1024 (leAt x 10 2)
  { nodes := (List.range n).foldl (fun a i => tput 0 a (k1 i) (BitVec.ofNat 256 (leAt x (32 + 32 * i) 32))) [],
    trans := (List.range t).foldl (fun a i => tput 0 a (k1 i) (BitVec.ofNat 96 (leAt x (32 + 32 * n + 12 * i) 12))) [] }

/-- Bytes that micro words take in a section, padded to a multiple of 32 (R268). -/
def microBytes (n : Nat) : Nat := (4 * n + 31) / 32 * 32

/-- The counts of a kerf section: micro words, nano words, entries. -/
def kMicro (x : List Byte) : Nat := leAt x 8 2
def kNano (x : List Byte) : Nat := leAt x 10 2
def kEntries (x : List Byte) : Nat := leAt x 12 2

/-- A kerf image as its section carries it (R268). -/
def imgOf (x : List Byte) : KImg :=
  let e := kEntries x
  let m := kMicro x
  { imageId := leAt x 24 8,
    entries := (List.range e).map (fun i => leAt x (64 + 4 * i) 4),
    micro := (List.range m).map (fun i => BitVec.ofNat 32 (leAt x (64 + 4 * e + 4 * i) 4)),
    nano := (List.range (kNano x)).map (fun i => BitVec.ofNat 256 (leAt x (64 + 4 * e + microBytes m + 32 * i) 32)),
    section_ := x, held := x.length }

/-! ## The kerf section's checks (R270) -/

/-- The micro and nano bases and sizes of a compartment's region (R251). -/
def rgMicroBase (r : BitVec 64) : Nat := fld r 13 0
def rgMicroSize (r : BitVec 64) : Nat := fld r 27 14
def rgNanoBase (r : BitVec 64) : Nat := fld r 41 28
def rgNanoSize (r : BitVec 64) : Nat := fld r 55 42

/-- The regions of the defined compartments. -/
def regions (s : State) : List (Nat × BitVec 64) :=
  allCids.filterMap (fun c => if cmpDefined s c && rgMicroSize (cmpOf s c).region != 0 then some (c, (cmpOf s c).region) else none)

/-- The region record of a payload; its reserved bits read as zero. -/
def regionRec (l : List Byte) : BitVec 64 := setFld (rec64 l) 63 56 0

/-- The accepted writes of regions, and the regions in force: an accepted write takes its words from its acceptance on, so that
no two regions ever overlap (R250). -/
def regionsDue (s : State) : List (Nat × BitVec 64) :=
  regions s ++ (s.items.filter (fun i => i.op == .krfRegionWrite)).map (fun i => (i.req.arg1.toNat, regionRec i.req.payload))

/-- The region that compartment `c` will have when what is accepted has landed. -/
def regionToBe (s : State) (c : Nat) : BitVec 64 :=
  (((regionsDue s).reverse.find? (fun r => r.1 == c)).map Prod.snd).getD (cmpOf s c).region

/-- The lowest of a list of numbers, the whole store when there is none. -/
def lowest (l : List Nat) : Nat := l.foldl min 16384

/-- Steps 3 and 4 of R270. -/
def kimgForm (x : List Byte) (scope : Nat) : Status :=
  firstBad [
    (leAt x 0 4 == 0x4652454B && leAt x 4 2 == 1 && leAt x 6 1 == scope && leAt x 7 1 == 0 && leAt x 14 2 == 0 &&
      leAt x 20 4 == 0 && allZero (slice x 32 32) && decide (kEntries x ≤ 1024) &&
      x.length == 64 + 4 * kEntries x + microBytes (kMicro x) + 32 * kNano x, .range),
    (kMicro x != 0 && kNano x != 0 && kEntries x != 0, .zeroLen)]

/-- Step 5 of R270. -/
def kimgRoom (s : State) (x : List Byte) (scope cid : Nat) : Bool :=
  if scope = 0 then
    let rs := (regionsDue s).filter (fun r => rgMicroSize r.2 != 0)
    decide (kMicro x ≤ lowest (rs.map (fun r => rgMicroBase r.2))) &&
      decide (kNano x ≤ lowest (rs.map (fun r => rgNanoBase r.2)))
  else decide (kMicro x ≤ rgMicroSize (regionToBe s cid)) && decide (kNano x ≤ rgNanoSize (regionToBe s cid))

/-- A microword keeps step 6 of R270. -/
def microOk (scope mc nc : Nat) (w : BitVec 32) : Bool :=
  let cond := fld w 3 0
  let next := fld w 17 4
  (if 14 ≤ cond then next == 0 else decide (next < mc) && (cond == 0 || decide (next ||| 1 < mc))) &&
    decide (fld w 31 18 < nc) && (cond != 14 || scope == 0)

/-- A nano-word keeps step 7 of R270. -/
def nanoOk (scope : Nat) (w : BitVec 256) : Bool :=
  let a := nwPart w 64
  let b := nwPart w 96
  let d := nwPart w 128
  let op := fld w 197 192
  fld w 191 188 == 0 && fld w 219 217 == 0 && fld w 231 229 == 0 && fld w 239 234 == 0 && fld w 255 242 == 0 &&
    fld a 31 25 == 0 && fld b 31 25 == 0 && fld d 31 25 == 0 &&
    !(decide (3 ≤ opKind d) && decide (opKind d ≤ 5)) && decide (op < 0x14) && (aluWrites op || opKind d == 0) &&
    (op != 0x11 || fld w 199 198 == 1) && (decide (fld w 228 227 < 2) || (opKind d == 2 && fld d 9 8 == 1)) &&
    fld w 161 160 != 3 && (scope == 0 || (opKind a != 7 && opKind b != 7 && opKind d != 7))

/-- Entries keep step 8 of R270. -/
def entriesOk (scope : Nat) (k : KImg) : Bool :=
  k.entries.all (fun e => decide (e < k.micro.length) && (scope != 0 || decide (0x40 ≤ e))) &&
    (scope != 0 || (decide (0x40 ≤ k.micro.length) && ((k.micro.drop 0x28).take 0x18).all (· == 0)))

/-- The micro addresses that an image gives as entries, relocated (R269). -/
def imgEntries (base : Nat) (k : KImg) : List Nat := k.entries.map (· + base)

/-- The image of a compartment. -/
def imgOfCmp (s : State) (c : Nat) : Option KImg := tget none s.par.imgs (k1 c)

/-- Addresses that the actions of compartment `c` may name, with the given common and own images (R269). -/
def entryAllowed (s : State) (common own : Option KImg) (c e : Nat) : Bool :=
  e == 0 || ((common.map (imgEntries 0)).getD []).contains e ||
    ((own.map (imgEntries (rgMicroBase (regionToBe s c)))).getD []).contains e

/-- The common image in force. -/
def commonImg (s : State) : Option KImg := s.par.base.map BaseBundle.img

/-- The common images in force, waiting for idle engines, and accepted (R250, R271). -/
def commonsDue (s : State) : List KImg :=
  (commonImg s).toList ++ (s.krf.wait.map BaseBundle.img).toList ++
    (s.items.filter (fun i => i.op == .baseBundleLoad)).map (fun i => imgOf (secOf i.req.payload 2))

/-- The bodies of the live cuts and the staging area of compartment `c`. -/
def bodiesOf (s : State) (c : Nat) : List CutBody :=
  ((s.cut.cuts.filter (fun x => x.cid == c && !x.discarded)).map Cut.body) ++
    (((tget none s.cut.stage (k1 c)).map Staging.body).toList)

/-- The entries that the actions of a body name. -/
def bodyEntries (b : CutBody) : List Nat := b.acts.filterMap (fun e => e.2.map (fun a => actEntry a.2))

/-- Step 9 of R270: every action still names an entry. -/
def actionsStand (s : State) (common : Option KImg) (own : Nat → Option KImg) (cs : List Nat) : Bool :=
  cs.all (fun c => (bodiesOf s c).all (fun b => (bodyEntries b).all (entryAllowed s common (own c) c)))

/-- Steps 3 to 9 of R270 for a section. -/
def kimgCheck (s : State) (x : List Byte) (scope cid : Nat) : Status :=
  let k := imgOf x
  orElseSt (kimgForm x scope) <| firstBad [
    (kimgRoom s x scope cid, .noSpace),
    (k.micro.all (microOk scope k.micro.length k.nano.length), .range),
    (k.nano.all (nanoOk scope), .range),
    (entriesOk scope k, .range),
    (if scope = 0 then actionsStand s (some k) (imgOfCmp s) allCids
     else actionsStand s (commonImg s) (fun _ => some k) [cid], .range)]

/-! ## The bundle's checks (R461, R578, R580) -/

/-- A signature of the payload verifies over a message: the verdict of the arithmetic, and of the chain of the key that made it, is the
environment's. -/
def signedOver (q : Req) (msg : List Byte) : Bool := q.auth && decide (q.sig.msg = msg)

/-- A signature of the payload verifies over a message under one of some keys. -/
def signedBy (q : Req) (keys : List (List Byte)) (msg : List Byte) : Bool := signedOver q msg && keys.contains q.sig.key

/-- What a bundle's signature covers (R461): the digest of every byte before the trailer, then trailer bytes 0 to 31. -/
def bundleMsg (b : List Byte) : List Byte := digest (b.take (b.length - 128)) ++ (trailer b).take 32

/-- Step 1: the signature, and who may sign (R461). -/
def bundleSig (s : State) (q : Req) (scope : Nat) : Bool :=
  let t := trailer q.payload
  let cut := tget [] s.trust.cutKey (k1 q.c)
  let keys := if scope = 1 ∧ !cut.isEmpty then [cut] else s.trust.ownerKeys
  signedBy q keys (bundleMsg q.payload) && decide (160 ≤ q.payload.length) && leAt t 0 4 == 0x42534731 && leAt t 4 2 == 1 &&
    decide ((digest q.sig.key).take 16 = slice t 8 16) && (scope == 0 || leAt t 24 1 == q.c)

/-- Sections lie in table order between the table and the trailer, on multiples of 8, with zero bytes between them. -/
def sectionsPlaced (b : List Byte) (n : Nat) : Bool :=
  let es := (List.range n).map (secEntry b)
  let ends := es.foldl (fun (a : Nat × Bool) e =>
    (e.2.1 + e.2.2.1, a.2 && e.2.2.2 && e.2.1 % 8 == 0 && decide (a.1 ≤ e.2.1) &&
      allZero (slice b a.1 (e.2.1 - a.1)))) (32 + 16 * n, true)
  ends.2 && decide (ends.1 + 128 ≤ b.length) && allZero (slice b ends.1 (b.length - 128 - ends.1))

/-- Step 2 (R578). -/
def bundleForm (b : List Byte) (scope : Nat) : Bool :=
  let t := trailer b
  let n := leAt b 12 2
  let types := (List.range (n % 3)).map (fun i => (secEntry b i).1)
  leAt b 0 4 == 0x4C445957 && leAt b 4 2 == 1 && leAt b 6 1 == scope && leAt t 6 1 == leAt b 6 1 &&
    leAt t 24 1 == leAt b 7 1 && (scope == 1 || leAt b 7 1 == 0) && leAt b 8 4 == b.length &&
    n == (if scope = 0 then 2 else 1) && leAt b 14 2 == 0 && leAt b 16 8 / 2 ^ 24 == 0 && leAt b 24 8 == 0 &&
    (if scope = 0 then decide (types = [1, 2]) || decide (types = [2, 1]) else decide (types = [2])) && sectionsPlaced b n

/-- Step 3: the units that `WYB.NEEDS` names (R578). -/
def needsMet (v : Variant) (b : List Byte) : Bool :=
  let x := leAt b 16 8
  (List.range 4).all (fun d => !x.testBit d || grovePresent v d) &&
    (List.range 16).all (fun c => !x.testBit (4 + c) || chPresent v c) &&
    (List.range 4).all (fun i => !x.testBit (20 + i) || v ≠ .e)

/-- The CRC of a section over the bytes after its header. -/
def secCrc (x : List Byte) (hdr at_ : Nat) : Bool := (crc32c (x.drop hdr)).toNat == leAt x at_ 4

/-- Step 5: the parse-graph header (R579). -/
def graphForm (x : List Byte) : Status :=
  let n := leAt x 8 2
  let t := leAt x 10 2
  firstBad [
    (leAt x 0 4 == 0x48505247 && leAt x 4 2 == 1 && leAt x 6 2 == 0 && allZero (slice x 16 16) &&
      decide (32 ≤ x.length), .range),
    (n != 0, .zeroLen), (decide (n ≤ 256) && decide (t ≤ 1024) && x.length == 32 + 32 * n + 12 * t, .range)]

/-- The last rule of R106: a swap keeps every live cut's start node valid. -/
def swapStarts (s : State) (g : Graph) : Bool :=
  s.md.mode ≠ .frozen || (s.cut.cuts.filter (fun c => !c.discarded)).all (fun c => ndValid (nodeOf g (fld c.body.parCmp 7 0)))

/-- Bytes of the bundles in MRAM, the accepted ones among them, without those of the compartment, or the base bundles, that
the load replaces. -/
def mramBundles (s : State) (scope cid : Nat) : Nat :=
  let base := (s.par.base.toList ++ s.krf.wait.toList).map (fun b => b.bytes.length) ++
    (s.items.filter (fun i => i.op == .baseBundleLoad)).map (fun i => i.req.payload.length)
  let own := (s.par.imgs.filter (fun e => scope == 0 || e.1.1 != cid)).map (fun e => (e.2.map KImg.held).getD 0) ++
    (s.items.filter (fun i => i.op == .cmpBundleLoad && (scope == 0 || i.req.c != cid))).map (fun i => i.req.payload.length)
  ((if scope = 0 then [] else base) ++ own).foldl (· + ·) 0

/-- The checks of R580 for a bundle of a scope. -/
def bundleCheck (op : Op) (scope : Nat) (s : State) (q : Req) : Status :=
  let b := q.payload
  let g := secOf b 1
  let k := secOf b 2
  let v := vOf s q op
  orElseSt (argForm op q) <|
  orElseSt (firstBad [
    (bundleSig s q scope, .badSig), (bundleForm b scope, .range), (needsMet s.variant b, .needsUnit),
    ((scope == 1 || secCrc g 32 12) && secCrc k 64 16, .crc)]) <|
  orElseSt (if scope = 0 then
      orElseSt (graphForm g) (orElseSt (graphCheck (graphOf g)) (if swapStarts s (graphOf g) then .ok else .range))
    else .ok) <|
  orElseSt (kimgCheck s k scope q.c) <|
  orElseSt (firstBad [
    (if scope = 0 then s.md.mode == .staged || s.md.mode == .frozen
     else s.md.mode == .staged || (cmpOf s q.c).frozen, .notFrozen),
    (scope == 0 || !(cmpOf s q.c).frozen ||
      (s.cut.cuts.filter (fun x => x.cid == q.c && !x.discarded)).all (fun x => x.live == 0), .busy)]) <|
  orElseSt (tCheck v q.t) <|
  if mramBundles s scope q.c + b.length ≤ 64000000 then .ok else .noSpace

/-- BASE_BUNDLE_LOAD. -/
def opBaseBundle : LOp := { op := .baseBundleLoad, ownOrder := true, pre := bundleCheck .baseBundleLoad 0 }
/-- CMP_BUNDLE_LOAD. -/
def opCmpBundle : LOp := { op := .cmpBundleLoad, ownOrder := true, pre := bundleCheck .cmpBundleLoad 1 }

/-! ## Landing (R126, R269, R271) -/

/-- Write words into a store from an address. -/
def storePut {α : Type} [DecidableEq α] (d : α) (base : Nat) (ws : List α) (t : Tab α) : Tab α :=
  (ws.foldl (fun (a : Tab α × Nat) w => (tput d a.1 (k1 a.2) w, a.2 + 1)) (t, base)).1

/-- A microword relocated (R269): `NEXT` of COND 0 to 13, and `NANO`. -/
def relocate (r : BitVec 64) (w : BitVec 32) : BitVec 32 :=
  let x := setFld w 31 18 (fld w 31 18 + rgNanoBase r)
  if fld w 3 0 < 14 then setFld x 17 4 (fld w 17 4 + rgMicroBase r) else x

/-- The store image that routines under way go on with (R245) is kept, while an engine runs one. -/
def keepStores (s : State) : State :=
  let disp := (s.krf.eng.filter (fun e => e.2.phase != 0)).map (fun e => e.2.disp)
  let was : StoreImage := { upTo := clkOf s 0, micro := s.krf.micro, nano := s.krf.nano }
  { s with krf := { s.krf with prior := (s.krf.prior ++ [was]).filter (fun x => disp.any (fun d => decide (d < x.upTo))) } }

/-- An image is written to the stores of all pipelines (R249, R269); `r` is zero for the common image. -/
def writeStores (r : BitVec 64) (k : KImg) (s : State) : State :=
  let s := keepStores s
  let m := storePut 0 (rgMicroBase r) (k.micro.map (relocate r)) s.krf.micro
  let n := storePut 0 (rgNanoBase r) k.nano s.krf.nano
  { s with krf := { s.krf with micro := m, nano := n } }

/-- IMAGE_APPLIED (R271): the image's identifier and the ring at which it first governs a dispatch. -/
def imageApplied (c : Nat) (k : KImg) (ring : Nat) (s : State) : State :=
  post c 0x0401 (packLE [(8, k.imageId), (8, ring)]) s

/-- A compartment image lands (R271). -/
def landCmpBundle (i : Item) (s : State) : Ans :=
  let c := i.req.c
  let k := { imgOf (secOf i.req.payload 2) with ring := i.due, held := i.req.payload.length, signer := slice (trailer i.req.payload) 8 16 }
  let s := writeStores (cmpOf s c).region k { s with par := { s.par with imgs := tput none s.par.imgs (k1 c) (some k) } }
  { st := imageApplied c k i.due s }

/-- A base bundle lands: the graph swaps at once (R126), the image waits for idle engines with dispatch stopped
(R271). -/
def landBaseBundle (i : Item) (s : State) : Ans :=
  let b := i.req.payload
  let g := graphOf (secOf b 1)
  let bb : BaseBundle := { graph := g, img := imgOf (secOf b 2), bytes := b }
  { st := { s with par := { s.par with old := some (i.due, s.par.graph), graph := g }, krf := { s.krf with wait := some bb } } }

/-- Every engine and every dispatch queue is empty. -/
def enginesEmpty (s : State) : Bool :=
  (List.range 8).all (fun p => (tget [] s.krf.queue (k1 p)).isEmpty && (List.range 32).all (fun e => !engBusy s p e))

/-- The common image is written at the first boundary at which the engines are empty; dispatch resumes a ring later
(R271). DESIGN CHOICE (log entry 101): the bundle becomes the one held in MRAM with this write, so a restart before it reloads
the bundle of before. -/
def imageWrite (s : State) : State :=
  match s.krf.wait with
  | none => s
  | some b =>
    if enginesEmpty s then
      let b := { b with img := { b.img with ring := s.ring + 1 } }
      let s := writeStores 0 b.img { s with par := { s.par with base := some b },
                                            krf := { s.krf with wait := none, resume := s.ran + 1,
                                                                accept := (List.range 8).foldl (fun t p =>
                                                                  tput 0 t (k1 p) (1600 * (s.ran + 1))) s.krf.accept } }
      imageApplied 0 b.img (s.ring + 1) s
    else s

/-- Dispatch resumes: what the resequencers held back is released. -/
def dispatchResume (s : State) : State :=
  if s.krf.resume = s.ran then foldS (List.range 8) releaseHeld { s with krf := { s.krf with resume := 0 } } else s

/-- The stores are loaded from the bundles in MRAM (R272). -/
def loadStores (s : State) : State :=
  let s := { s with krf := { s.krf with micro := [], nano := [] } }
  let s := match s.par.base with
    | some b => writeStores 0 b.img { s with par := { s.par with graph := b.graph } }
    | none => s
  foldS (regions s) (fun r s => match imgOfCmp s r.1 with | some k => writeStores r.2 k s | none => s) s

/-! ## KRF_REGION_WRITE (R252) -/

/-- The form rules of a region (R252, R418). -/
def regionForm (r : BitVec 64) : Status :=
  firstBad [
    (rgMicroBase r % 64 == 0, .range), (rgMicroSize r % 64 == 0, .range), (rgNanoBase r % 64 == 0, .range),
    (rgNanoSize r % 64 == 0, .range),
    (rgMicroSize r != 0 || rgNanoSize r == 0, .zeroLen), (rgNanoSize r != 0 || rgMicroSize r == 0, .range),
    (decide (rgMicroBase r + rgMicroSize r ≤ 16384) && decide (rgNanoBase r + rgNanoSize r ≤ 16384), .range)]

/-- Two runs of words do not overlap. -/
def apart (a n b m : Nat) : Bool := decide (n = 0) || decide (m = 0) || decide (a + n ≤ b) || decide (b + m ≤ a)

/-- A region overlaps neither the common region nor another compartment's (R250, R252), those of accepted loads and writes
among them. -/
def regionFree (s : State) (c : Nat) (r : BitVec 64) : Bool :=
  (commonsDue s).all (fun k => apart (rgMicroBase r) (rgMicroSize r) 0 k.micro.length &&
      apart (rgNanoBase r) (rgNanoSize r) 0 k.nano.length) &&
    ((regionsDue s).filter (fun e => e.1 != c)).all (fun e =>
      apart (rgMicroBase r) (rgMicroSize r) (rgMicroBase e.2) (rgMicroSize e.2) &&
        apart (rgNanoBase r) (rgNanoSize r) (rgNanoBase e.2) (rgNanoSize e.2))

/-- A compartment's image is loaded, or its load, or a RESTORE that carries one, is accepted (log entry 33). -/
def imgLoaded (s : State) (c : Nat) : Bool :=
  (imgOfCmp s c).isSome || s.items.any (fun i => (i.op == .cmpBundleLoad && i.req.c == c) ||
    (i.op == .restore && i.req.who == c && i.blob.any (fun b => !b.image.isEmpty)))

/-- KRF_REGION_WRITE. -/
def opKrfRegion : LOp :=
  { op := .krfRegionWrite,
    args := fun s q => firstBad [
      (decide (q.arg1.toNat < 32) && cmpDefined s q.arg1.toNat, .range),
      (regionForm (regionRec q.payload) == .ok, regionForm (regionRec q.payload))],
    pre := fun s q => firstBad [
      (!imgLoaded s q.arg1.toNat, .busy), (regionFree s q.arg1.toNat (regionRec q.payload), .range)],
    now := fun s _ => { st := s } }

/-- KRF_REGION_WRITE lands. -/
def landKrfRegion (i : Item) (s : State) : Ans :=
  { st := modCmp i.req.arg1.toNat (fun c => { c with region := regionRec i.req.payload }) s, ring := s.ring }

/-! ## Reads (R426) -/

/-- One entry of BUNDLE_LIST (log entry 21). -/
def bundleEntry (scope c : Nat) (k : KImg) : List Byte :=
  packLE [(8, k.imageId), (1, scope), (1, c), (6, 0), (8, k.ring), (8, 0)]

/-- BUNDLE_LIST: the sender's image, or every image for CID 0. -/
def opBundleList : LOp :=
  { op := .bundleList, snap := true,
    now := fun s q =>
      let common := if q.c = 0 then ((commonImg s).map (bundleEntry 0 0)).toList else []
      let own := (allCids.filter (fun c => q.c == 0 || c == q.c)).filterMap (fun c => (imgOfCmp s c).map (bundleEntry 1 c))
      { st := s, ring := s.ring, count := (common ++ own).length, data := (common ++ own).flatten } }

/-- ABORT_FRAME_READ: the ring of the abort and the trap frame, zero when none is recorded (R246). -/
def opAbortFrame : LOp :=
  { op := .abortFrameRead, snap := true,
    now := fun s q =>
      let (r, f) := (tget none s.krf.abort (k1 q.c)).getD (0, 0)
      { st := s, ring := s.ring, data := leBytes 8 r ++ leBytes 160 f.toNat } }

/-! ## Meanings -/

/-- BASE_BUNDLE_LOAD (R580). -/
def execBaseBundleLoad (q : Req) (s : State) : Out := .next (runOp opBaseBundle q s)
/-- CMP_BUNDLE_LOAD (R580). -/
def execCmpBundleLoad (q : Req) (s : State) : Out := .next (runOp opCmpBundle q s)
/-- BUNDLE_LIST (R426). -/
def execBundleList (q : Req) (s : State) : Out := .next (runOp opBundleList q s)
/-- ABORT_FRAME_READ (R246). -/
def execAbortFrameRead (q : Req) (s : State) : Out := .next (runOp opAbortFrame q s)
/-- KRF_REGION_WRITE (R252). -/
def execKrfRegionWrite (q : Req) (s : State) : Out := .next (runOp opKrfRegion q s)

end Sys2Proof.Machine
end

