-- ==== Sys2Proof/Machine/Staging.lean ====
section
/-!
DEFINITION. Cuts and staging areas as every table shares them (R128 to R130, R144 to R146, R419, R475): which cuts are
live, what they hold, and the application of staging records.
-/
namespace Sys2Proof.Machine

/-- The bits of eight key segments that are not reserved (R132). -/
def segMask : Nat := (List.range 8).foldl (fun m i => m + 0xFFF * 2 ^ (16 * i)) 0

/-- A result record with its reserved bits [31:30] at zero (R19, R135). -/
def resMask (x : BitVec 64) : BitVec 64 := x &&& 0xFFFFFFFF3FFFFFFF#64

/-! ## Cuts -/

/-- The live cuts of a compartment (R144, R150). -/
def liveCuts (s : State) (c : Nat) : List Cut := s.cut.cuts.filter (fun x => x.cid == c && !x.discarded)

/-- The later of two cuts by cut number. -/
def laterCut (a : Option Cut) (x : Cut) : Option Cut :=
  match a with
  | some y => if y.number < x.number then some x else some y
  | none => some x

/-- The newest live cut of a compartment. -/
def newestCut (s : State) (c : Nat) : Option Cut := (liveCuts s c).foldl laterCut none

/-- The cut that is CURRENT for a compartment. -/
def currentCut (s : State) (c : Nat) : Option Cut := (liveCuts s c).find? (fun x => x.state == 1)

/-- The cut that a frame with entry ring `e` is stamped with (R25). -/
def stampCut (s : State) (c e : Nat) : Option Cut :=
  ((liveCuts s c).filter (fun x => decide (x.target ≤ e))).foldl laterCut none

/-- The bodies that hold memory of the module: every cut, discarded ones included, and every staging area (R150). -/
def heldBodies (s : State) : List CutBody :=
  s.cut.cuts.map Cut.body ++ s.cut.stage.filterMap (fun e => e.2.map Staging.body)

/-- The number of different elements of a list. -/
def distinct {α : Type} [BEq α] (l : List α) : Nat := l.eraseDups.length

/-! ## Staging areas (R145) -/

/-- The staging area of a compartment. -/
def stageOf (s : State) (c : Nat) : Option Staging := tget none s.cut.stage (k1 c)
/-- Replace the staging area of a compartment. -/
def setStage (c : Nat) (x : Option Staging) (s : State) : State :=
  { s with cut := { s.cut with stage := tput none s.cut.stage (k1 c) x } }
/-- What the staging area holds; a first cut's content where there is none. -/
def stageBody (s : State) (c : Nat) : CutBody := ((stageOf s c).map Staging.body).getD {}
/-- The staging number S (R205). -/
def stageNum (s : State) (c : Nat) : Nat := ((stageOf s c).map Staging.num).getD 0
/-- Replace the content of the staging area. -/
def setBody (c : Nat) (b : CutBody) (s : State) : State := setStage c ((stageOf s c).map (fun x => { x with body := b })) s

/-- A number that names a stored entry. -/
def newUid (s : State) : Nat × State := (s.cut.uid, { s with cut := { s.cut with uid := s.cut.uid + 1 } })

/-- The staged-image digest takes one applied record (R475). -/
def digestRec (op : Op) (q : Req) (r : List Byte) (s : State) : State :=
  setStage q.c ((stageOf s q.c).map (fun x => { x with
    digest := Config.sha384 (x.digest ++ leBytes 2 (opCode op) ++ leBytes 4 q.arg1.toNat ++ r) })) s

/-- How one staging record is applied: the sender's command, the record's place in the payload, its bytes. -/
abbrev StageFn := Req → Nat → List Byte → State → Status × State

/-- Apply records in payload order (R419): the first that is refused ends the command, and those before it stay. -/
def applyRecs (op : Op) (q : Req) (form : Req → Nat → List Byte → Status) (f : StageFn) :
    List (List Byte) → Nat → State → Status × Nat × State
  | [], n, s => (.ok, n, s)
  | r :: rs, n, s =>
    match form q n r with
    | .ok =>
      match f q n r s with
      | (.ok, s') => applyRecs op q form f rs (n + 1) (digestRec op q r s')
      | (st, _) => (st, n, s)
    | st => (st, n, s)

/-- The first record whose own form is wrong. -/
def formBad (q : Req) (form : Req → Nat → List Byte → Status) : List (List Byte) → Nat → Status
  | [], _ => .ok
  | r :: rs, n => orElseSt (form q n r) (formBad q form rs (n + 1))

/-- The records of a staging command. -/
def stageRecs (op : Op) (q : Req) : List (List Byte) :=
  match opPay op with
  | .records k => recordsOf k q.payload
  | _ => [q.payload]

/-- A staging command (R416): the argument check `arg`, the records' own form `form`, and their application. Without an
open staging area it is refused with RANGE, after the checks of step 13. -/
def stageOp (op : Op) (arg : Req → Status) (form : Req → Nat → List Byte → Status) (f : StageFn) : LOp :=
  { op := op,
    args := fun s q => orElseSt (arg q) (if (stageOf s q.c).isNone then formBad q form (stageRecs op q) 0 else .ok),
    pre := fun s q => if (stageOf s q.c).isSome then .ok else .range,
    now := fun s q =>
      let (st, n, t) := applyRecs op q form f (stageRecs op q) 0 s
      { st := t, status := st, ring := s.ring, count := match opPay op with | .records _ => n | _ => 0 } }

/-- Write one record of the staged body, where nothing can refuse it. -/
def putBody (f : CutBody → CutBody) (c : Nat) (s : State) : Status × State := (.ok, setBody c (f (stageBody s c)) s)

/-- The names of the stored entries of a table. -/
def uidsOf {α : Type} (t : Tab (Option (Nat × α))) : List Nat := t.filterMap (fun e => e.2.map Prod.fst)

/-- Write one stored entry, unless the compartment's quota or the module's capacity is exceeded by it (R130, R146). -/
def putStored {α : Type} [DecidableEq α] (get : CutBody → Tab (Option (Nat × α)))
    (set : Tab (Option (Nat × α)) → CutBody → CutBody) (quota cap : Nat) (c i : Nat) (x : α) (s : State) :
    Status × State :=
  let (u, s1) := newUid s
  let b := stageBody s1 c
  let s2 := setBody c (set (tput none (get b) (k1 i) (some (u, x))) b) s1
  if quota < distinct ((bodiesOf s2 c).flatMap (fun b => uidsOf (get b))) then (.noSpace, s)
  else if cap < distinct ((heldBodies s2).flatMap (fun b => uidsOf (get b))) then (.noSpace, s)
  else (.ok, s2)

/-- A compartment may post to its table events only what its CURRENT cut asks for: the body of that cut. -/
def currentBody (s : State) (c : Nat) : Option CutBody := (currentCut s c).map Cut.body

/-- Ring of the present boundary at which a "next" command that reads answers. -/
def refuseNoCut (s : State) : Ans := { st := s, status := .range, ring := s.ring }

end Sys2Proof.Machine
end

