-- ==== Sys2Proof/Machine/Em.lean ====
section
/-!
DEFINITION. The exact-match table and its learner (R155 to R177, R428, R583): hashing and placement, static entries and
version records, lookups, learning, aging, flushes, parity and events.
-/
namespace Sys2Proof.Machine

/-! ## Keys, hashing and slots (R155 to R158) -/

/-- A key as the table holds it: 20 bytes, first byte most significant; a narrow key fills the first eight. -/
def emKey (wide : Bool) (l : List Byte) : BitVec 160 :=
  BitVec.ofNat 160 (beNat (padTo 20 (if wide then l else l.take 8)))

/-- The seed of a bank (R158). -/
def emSeed : Nat → BitVec 32
  | 0 => 0x3A7C19E5#32 | 1 => 0xC41B7D02#32 | 2 => 0x9E6503B8#32 | _ => 0x51D8E24F#32

/-- The index of a key in a bank (R158). -/
def emIndex (c t : Nat) (key : BitVec 160) (b : Nat) : Nat :=
  (crcRun (emSeed b) ([BitVec.ofNat 8 c, BitVec.ofNat 8 t, 0, 0] ++ beBytes 20 key.toNat) ^^^ 0xFFFFFFFF#32).toNat % 524288

/-- An entry occupies a place: slot `i` of bank `b`, or stash entry `i` of that bank (R156). -/
def emCovers (stash : Bool) (b i : Nat) (e : EmEnt) : Bool :=
  e.stash == stash && e.index == i && (e.bank == b || (e.wide && e.bank + 1 == b))

/-- The entry at a place. -/
def emAt (s : State) (stash : Bool) (b i : Nat) : Option EmEnt := s.em.ents.find? (emCovers stash b i)

/-- The number of an entry's place in events (R176). -/
def emSlotNo (e : EmEnt) : Nat := if e.stash then 0xFFFF0000 + e.bank * 64 + e.index else e.bank * 524288 + e.index

/-- Slots or stash entries that an entry takes. -/
def emWidth (e : EmEnt) : Nat := if e.wide then 2 else 1

/-! ## The bits of a slot (R155, R160) -/

/-- The 144 data bits of the slot of an entry in bank `b` (R160); `tick` is `EM.SLOT.LAST_TICK`, 0 for a static entry. -/
def slotBits (e : EmEnt) (b tick : Nat) : BitVec 144 :=
  let flags := 2 ^ 137 + b2n e.learned * 2 ^ 138 + b2n e.wide * 2 ^ 139
  let own := e.cid % 32 * 2 ^ 128 + e.table % 16 * 2 ^ 133 + tick % 16 * 2 ^ 140
  BitVec.ofNat 144 (if !e.wide then e.key.toNat / 2 ^ 96 + e.res.toNat * 2 ^ 64 + own + flags
    else if b % 2 = 0 then e.key.toNat / 2 ^ 32 + own + flags
    else e.key.toNat % 2 ^ 32 + e.res.toNat * 2 ^ 32 + flags)

/-- The parity of a field of a slot. -/
def oddOnes (x n : Nat) : Bool := ((List.range n).filter (fun i => x.testBit i)).length % 2 == 1

/-- The five parity bits of a slot (R155): bits 0 to 3 cover a 32-bit word each, bit 4 covers data bits [143:128]. R155 does not give
the sense of the parity: the model's is even, each bit the XOR of what it covers (DESIGN CHOICE, log entry 125). -/
def slotParity (d : BitVec 144) : BitVec 5 :=
  BitVec.ofNat 5 (((List.range 4).map (fun i => b2n (oddOnes (fld d (32 * i + 31) (32 * i)) 32) * 2 ^ i)).foldl (· + ·) 0 +
    b2n (oddOnes (fld d 143 128) 16) * 16)

/-- A slot that is written is repaired: its NOTE may be given again (R174). -/
def emWritten (b i : Nat) (s : State) : State := { s with em := { s.em with notes := tdel s.em.notes (k2 b i) } }

/-! ## Placement (R159) -/

/-- The candidate slots of an entry. -/
def emCands (e : EmEnt) : List (Nat × Nat) := (List.range 4).map (fun b => (b, emIndex e.cid e.table e.key b))

/-- A slot is free. -/
def emFree (s : State) (x : Nat × Nat) : Bool := (emAt s false x.1 x.2).isNone

/-- The slots to which the entry at the head of a path may move, slots of the path excepted. -/
def emNext (s : State) (p : List (Nat × Nat)) : List (Nat × Nat) :=
  match p with
  | [] => []
  | x :: _ => match emAt s false x.1 x.2 with
    | some e => if e.wide then [] else (emCands e).filter (fun y => !p.contains y)
    | none => []

/-- Breadth-first search of a relocation path, the last slot first (R159): the paths of one length are examined in order,
then each is extended by one move. -/
def emSearch (s : State) : Nat → List (List (Nat × Nat)) → Option (List (Nat × Nat))
  | 0, _ => none
  | moves + 1, ps =>
    match ps.findSome? (fun p => ((emNext s p).find? (emFree s)).map (fun y => y :: p)) with
    | some p => some p
    | none => emSearch s moves (ps.flatMap (fun p => (emNext s p).map (fun y => y :: p)))

/-- The moves of a path, given last slot first: (from, to). -/
def emPairs : List (Nat × Nat) → List ((Nat × Nat) × (Nat × Nat))
  | y :: x :: r => (x, y) :: emPairs (x :: r)
  | _ => []

/-- Carry out the moves of a path. -/
def emRelocate (p : List (Nat × Nat)) (s : State) : State :=
  let mv := emPairs p
  let s := foldS mv (fun m => emWritten m.2.1 m.2.2) s
  { s with em := { s.em with ents := s.em.ents.map (fun e =>
      if e.stash || e.wide then e
      else match mv.find? (fun m => m.1 == (e.bank, e.index)) with
        | some m => { e with bank := m.2.1, index := m.2.2 }
        | none => e) } }

/-- Entries in a stash. -/
def stashCount (s : State) (b : Nat) : Nat :=
  (s.em.ents.filter (fun e => e.stash && (e.bank == b || (e.wide && e.bank + 1 == b)))).length

/-- The place in the stash for an entry (R159, steps 4 and 5). R159 names no index for a narrow entry within its stash: the model takes
the lowest free one, as it says for a wide entry (DESIGN CHOICE, log entry 125). -/
def stashPlace (s : State) (wide : Bool) : Option (Nat × Nat) :=
  if wide then
    let fit (b : Nat) : Option (Nat × Nat) :=
      (findFrom (fun i => (emAt s true b i).isNone && (emAt s true (b + 1) i).isNone) 64 0).map (fun i => (b, i))
    match fit 0, fit 2 with
    | some x, some y => if stashCount s 2 + stashCount s 3 < stashCount s 0 + stashCount s 1 then some y else some x
    | some x, none => some x
    | none, y => y
  else
    let b := [1, 2, 3].foldl (fun a b => if stashCount s b < stashCount s a then b else a) 0
    (findFrom (fun i => (emAt s true b i).isNone) 64 0).map (fun i => (b, i))

/-- Store an entry at a place. -/
def emStore (e : EmEnt) (stash : Bool) (x : Nat × Nat) (s : State) : State :=
  let s := { s with em := { s.em with ents := s.em.ents ++ [{ e with stash := stash, bank := x.1, index := x.2 }] } }
  let put (b : Nat) (s : State) : State := if stash then emWritten 4 (b * 64 + x.2) s else emWritten b x.2 s
  if e.wide then put (x.1 + 1) (put x.1 s) else put x.1 s

/-- Place an entry (R159): none when no place is free. -/
def emPlace (e : EmEnt) (s : State) : Option State :=
  let stash (_ : Unit) : Option State := (stashPlace s e.wide).map (fun x => emStore e true x s)
  if e.wide then
    match [0, 2].find? (fun b => emFree s (b, emIndex e.cid e.table e.key b) && emFree s (b + 1, emIndex e.cid e.table e.key b)) with
    | some b => some (emStore e false (b, emIndex e.cid e.table e.key b) s)
    | none => stash ()
  else
    match (emCands e).find? (emFree s) with
    | some x => some (emStore e false x s)
    | none =>
      match emSearch s 4 ((emCands e).map (fun x => [x])) with
      | some p => some (emStore e false (p.getLastD (0, 0)) (emRelocate p s))
      | none => stash ()

/-! ## Descriptors (R161) -/

/-- `EM.TBL` of an instance; the values of a first cut where none was staged. -/
def emTbl (b : CutBody) (t : Nat) : BitVec 64 := tget 0x02FAF08000000018#64 b.emTbl (k1 t)
def emWide (b : CutBody) (t : Nat) : Bool := bit (emTbl b t) 0
def emAgeEn (x : BitVec 64) : Bool := bit x 1
def emAgeLimit (x : BitVec 64) : Nat := fld x 4 2
def emHitRefresh (x : BitVec 64) : Bool := bit x 5
def emFlushDown (x : BitVec 64) : Bool := bit x 6
def emEvtLearn (x : BitVec 64) : Bool := bit x 7
def emEvtAge (x : BitVec 64) : Bool := bit x 8
def emPeriod (x : BitVec 64) : Nat := fld x 63 32

/-- The descriptor that governs the learned state of an instance now: that of the CURRENT cut. -/
def emTblNow (s : State) (c t : Nat) : Option (BitVec 64) := (currentBody s c).map (fun b => emTbl b t)

/-! ## Events (R176, R549) -/

/-- Bytes 16 to 63 of an event of the table. -/
def emBody (ring : Nat) (key : BitVec 160) (res : BitVec 64) (table : Nat) (wide : Bool) (reason port slot count : Nat) :
    List Byte :=
  leBytes 8 ring ++ beBytes 20 key.toNat ++
    packLE [(8, res.toNat), (1, table + 16 * b2n wide), (1, reason), (1, port), (1, 0), (4, slot), (4, count)]

/-- A learn notice for the peer waits in the send queue (R549). -/
def pairNotice (c code : Nat) (body : List Byte) (s : State) : State :=
  if bit s.pair.cfg 0 && bit s.pair.cfg (32 + c) then
    let n := BitVec.ofNat 8 c :: (body.take 39 ++ [BitVec.ofNat 8 code] ++ body.drop 40)
    if 262144 ≤ s.pair.queue.length then cnt .pairNoticeLost 0 0 1 s
    else { s with pair := { s.pair with queue := s.pair.queue ++ [(s.ring, c, n)] } }
  else s

/-- Post an event that the table's descriptor calls for, and its notice. -/
def emPost (c code : Nat) (body : List Byte) (s : State) : State := pairNotice c code body (post c code body s)

/-! ## Static entries (R162, R163, R428) -/

/-- The (name, slots) of the static entries of a list of bodies. -/
def staticSlots (l : List CutBody) : List (Nat × Nat) :=
  (l.flatMap (fun b => b.emStatic.map (fun e => (e.uid, if e.wide then 2 else 1)))).eraseDups

/-- Static slots of a compartment, staged ones included. -/
def staticUsed (s : State) (c : Nat) : Nat := ((staticSlots (bodiesOf s c)).map Prod.snd).foldl (· + ·) 0

/-- The version record in which a frame of cut `n` finds a key as it stood in that cut: that of the first staging area after
it to write the key (R163). -/
def versFor (l : List VersRec) (c t : Nat) (key : BitVec 160) (n : Nat) : Option VersRec :=
  (l.filter (fun v => v.cid == c && v.table == t && v.key == key && decide (n < v.num))).foldl
    (fun x v => match x with | some y => if v.num < y.num then some v else x | none => some v) none

/-- A live cut needs the old state that a version record holds (R163). -/
def versNeeded (s : State) (v : VersRec) : Bool :=
  (liveCuts s v.cid).any (fun x => versFor s.em.vers v.cid v.table v.key x.number == some v)

/-- Free the static entries that no cut and no staging area holds, and the version records that no live cut needs
(R162, R163). -/
def emSweep (s : State) : State :=
  let held := (staticSlots (heldBodies s)).map Prod.fst
  { s with em := { s.em with
      ents := s.em.ents.filter (fun e => e.learned || held.contains e.uid),
      vers := s.em.vers.filter (versNeeded s) } }

/-- The static entry of a body with a key. -/
def staticOf (b : CutBody) (t : Nat) (key : BitVec 160) : Option EmStatic :=
  b.emStatic.find? (fun e => e.table == t && e.key == key)

/-- Reserve the version record of a key, once for a staging area that has a base cut (R163). -/
def emVersion (c t : Nat) (key : BitVec 160) (s : State) : Option State :=
  let n := stageNum s c
  if !((stageOf s c).any Staging.based) ||
      s.em.vers.any (fun v => v.cid == c && v.table == t && v.key == key && v.num == n) then some s
  else if 16384 ≤ s.em.vers.length then none
  else
    (findFrom (fun i => s.em.vers.all (fun v => v.idx != i)) 16384 0).map (fun i =>
      emWritten 5 i { s with em := { s.em with vers := s.em.vers ++ [{ idx := i, cid := c, table := t, key := key, num := n }] } })

/-- Fields of an EM_STATIC_WRITE record. -/
def wrTable (r : List Byte) : Nat := leAt r 20 1 % 16
def wrOp (r : List Byte) : Nat := leAt r 21 1

/-- Place a new static entry of the staging area. -/
def staticAdd (c t : Nat) (key : BitVec 160) (res : BitVec 64) (s : State) : Option State :=
  let b := stageBody s c
  let w := emWide b t
  let (u, s) := newUid s
  let s := setBody c { b with emStatic := b.emStatic ++ [{ uid := u, table := t, wide := w, key := key, res := res }] } s
  if (cmpOf s c).emSquota < staticUsed s c then none
  else emPlace { uid := u, cid := c, table := t, wide := w, learned := false, key := key, res := res, bank := 0, index := 0,
                 stash := false } s

/-- Remove a key from the staged instance; what nothing holds any more is freed at once (R162). -/
def staticDel (c t : Nat) (key : BitVec 160) (s : State) : State :=
  let b := stageBody s c
  emSweep (setBody c { b with emStatic := b.emStatic.filter (fun e => !(e.table == t && e.key == key)) } s)

/-- Apply one EM_STATIC_WRITE record (R162, R163, R428). -/
def staticWrite : StageFn := fun q _ r s =>
  let t := wrTable r
  let b := stageBody s q.c
  let wide := emWide b t
  let key := emKey true (r.take 20)
  let res := resMask (BitVec.ofNat 64 (leAt r 24 8))
  if !wide && !allZero (slice r 8 12) then (.range, s)
  else if (staticOf b t key).isSome == (wrOp r == 0) then (.range, s)
  else
    match emVersion q.c t key s with
    | none => (.noSpace, s)
    | some s1 =>
      let s2 := if wrOp r = 0 then s1 else staticDel q.c t key s1
      if wrOp r = 2 then (.ok, s2)
      else match staticAdd q.c t key res s2 with
        | some s3 => (.ok, s3)
        | none => (.noSpace, s)

/-- EM_STATIC_WRITE. -/
def opEmStaticWrite : LOp :=
  stageOp .emStaticWrite (fun _ => .ok) (fun _ _ r => if wrOp r ≤ 2 then .ok else .range) staticWrite

/-- Some entry of the instance exists: static in a live cut or the staging area, or learned (R161). -/
def emHolds (s : State) (c t : Nat) : Bool :=
  (bodiesOf s c).any (fun b => b.emStatic.any (fun e => e.table == t)) ||
    s.em.ents.any (fun e => e.learned && e.cid == c && e.table == t)

/-- EM_TBL_WRITE (R161). -/
def opEmTblWrite : LOp :=
  stageOp .emTblWrite (fun _ => .ok)
    (fun _ _ r =>
      let x := rec64 r
      firstBad [(!emAgeEn x || emAgeLimit x != 0, .zeroLen), (emPeriod x != 0, .zeroLen),
                (decide (1024 ≤ emPeriod x), .range)])
    (fun q _ r s =>
      let x := BitVec.ofNat 64 ((rec64 r).toNat &&& 0xFFFFFFFF000001FF)
      let t := q.a1 3 0
      if bit x 0 != emWide (stageBody s q.c) t && emHolds s q.c t then (.range, s)
      else putBody (fun b => { b with emTbl := tput 0x02FAF08000000018#64 b.emTbl (k1 t) x }) q.c s)

/-- The bits of `EM.LEARN` that are not reserved, those of its result record among them (R19, R135, R165). -/
def learnMask : Nat := 0x1F + segMask * 2 ^ 16 + 0xFFFFFFFF3FFFFFFF * 2 ^ 144 + 2 ^ 208

/-- EM_LEARN_WRITE (R165); its rules are checked at commit. -/
def opEmLearnWrite : LOp :=
  stageOp .emLearnWrite (fun _ => .ok) (fun _ _ _ => .ok)
    (fun q _ r s => putBody (fun b => { b with emLearn := BitVec.ofNat 256 (leNat r &&& learnMask) }) q.c s)

/-! ## Parity (R174, R175) -/

/-- The bank and the index that a NOTE names (R174): a stash entry's bank and its number in that stash; of a version record, which has
no bank, 5 (log entry 125). -/
def emPlaceOf (bank i : Nat) : Nat × Nat := if bank = 4 then (i / 64, i % 64) else (bank, i)

/-- A NOTE for a bad word is given at most once every 1,000,000 rings while it is not repaired. -/
def emNote (bank i cid : Nat) (s : State) : State :=
  let last := tget 0 s.em.notes (k2 bank i)
  if last != 0 && decide (s.ran < last - 1 + 1000000) then s
  else note 0x40 0x0601 cid [(emPlaceOf bank i).1, (emPlaceOf bank i).2, cid] { s with em := { s.em with notes := tput 0 s.em.notes (k2 bank i) (s.ran + 1) } }

/-- The entry that a bad word belongs to; bank 4 holds the stash entries. -/
def emOwner (s : State) (bank i : Nat) : Option EmEnt :=
  if bank < 4 then emAt s false bank i else if bank = 4 then emAt s true (i / 64) (i % 64) else none

/-- A parity error is found (R174): counted, reported; a learned entry leaves at the second boundary after (R175). -/
def emParityAt (bank i : Nat) (s : State) : State :=
  let own := emOwner s bank i
  let cid := match own with
    | some e => e.cid
    | none => if bank = 5 then ((s.em.vers.find? (fun v => v.idx == i)).map VersRec.cid).getD 255 else 255
  let s := emNote bank i cid (progEvt 0x40 0x03 255 0 1 (cnt .emParity 0 0 1 s))
  match own with
  | none => s
  | some e =>
    let s := { s with em := { s.em with ents := s.em.ents.map (fun x => if x.uid = e.uid then { x with bad := true } else x) } }
    if e.learned && !s.em.parity.any (fun p => p.1 == e.uid) then
      { s with em := { s.em with parity := s.em.parity ++ [(e.uid, s.ring + 2)] } }
    else s

/-! ## Lookups (R164, R167) -/

/-- The version record of a key that a frame of cut `n` reads has failed. -/
def versBad (s : State) (c t : Nat) (key : BitVec 160) (n : Nat) (bad : List (Nat × Nat)) : Bool :=
  (versFor s.em.vers c t key n).any (fun v => bad.contains (5, v.idx))

/-- A lookup of a key in an instance of a cut: a static entry of that cut decides, else a learned entry (R164). -/
def emLookup (s : State) (c n : Nat) (b : CutBody) (t : Nat) (key : BitVec 160) (bad : List (Nat × Nat)) :
    Option (EmEnt × BitVec 64) :=
  let stat := (staticOf b t key).bind (fun x =>
    (s.em.ents.find? (fun e => !e.learned && e.uid == x.uid && !e.bad)).map (fun e => (e, x.res)))
  match if versBad s c t key n bad then none else stat with
  | some x => some x
  | none =>
    (s.em.ents.find? (fun e => e.learned && e.cid == c && e.table == t && e.key == key && !e.bad)).map (fun e => (e, e.res))

/-! ## Activity and aging (R170 to R172) -/

/-- The first multiple of `p` at or after `a`. -/
def tickAt (a p : Nat) : Nat := (a + p - 1) / p * p

/-- `EM.SLOT.LAST_TICK` of an entry under the descriptor of the CURRENT cut (R160, R170). -/
def lastTick (s : State) (e : EmEnt) : Nat :=
  if e.learned then
    ((emTblNow s e.cid e.table).map (fun x => tickAt e.act (emPeriod x) / emPeriod x % 16)).getD 0
  else 0

/-- What stands in a place of the exact-match table: the data bits with their parity bits above them; nothing where no entry
lies (R155, R160). -/
def slotWord (s : State) (stash : Bool) (b i : Nat) : Option (BitVec 149) :=
  (emAt s stash b i).map (fun e =>
    let d := slotBits e b (lastTick s e)
    BitVec.ofNat 149 (d.toNat + (slotParity d).toNat * 2 ^ 144))

/-- An entry ages at a tick under the descriptor that governed it (R170). -/
def agesAt (t : AgeTick) (e : EmEnt) : Bool :=
  e.learned && e.cid == t.cid && e.table == t.table && decide (tickAt e.act t.period + t.limit * t.period ≤ t.tick)

/-- A frame of entry ring `a` is activity for a learned entry, unless the entry has aged at a tick before `a` (R171). -/
def emActivity (uid a : Nat) (s : State) : State :=
  { s with em := { s.em with ents := s.em.ents.map (fun e =>
      if e.uid = uid && e.learned && !(s.em.ticks.any (fun t => decide (t.tick < a) && agesAt t e)) then
        { e with act := max e.act a } else e) } }

/-- A tick of an instance falls in the ring in progress (R170): its descriptor is kept until the age-outs. -/
def agingTick (c t : Nat) (s : State) : State :=
  match emTblNow s c t with
  | none => s
  | some x =>
    let k : AgeTick := { tick := s.ring, cid := c, table := t, limit := emAgeLimit x, period := emPeriod x }
    if emAgeEn x && emPeriod x != 0 && s.ring % emPeriod x == 0 && !s.em.ticks.contains k then
      { s with em := { s.em with ticks := s.em.ticks ++ [k] } }
    else s

/-- The ticks of every instance of every compartment. -/
def agingTicks (s : State) : State :=
  foldS allCids (fun c s => if (currentCut s c).isSome then foldS (List.range 16) (agingTick c) s else s) s

/-- An entry leaves; `reason` is 1 for age, 2 for flush, 3 for parity (R172, R173, R175). -/
def agedEvent (e : EmEnt) (ring reason : Nat) (s : State) : State :=
  emPost e.cid 0x0604 (emBody ring e.key e.res e.table e.wide reason 255 (emSlotNo e) 1) s

/-- The age-outs of the ticks whose effect is due by ring `n` (R170): the sweeper posts them (R172). `EVT_AGE` is judged as it stands
when the age-out takes effect; R172 leaves open whether it is that or the sweeper's visit (DESIGN CHOICE, log entry 125). -/
def ageOuts (n : Nat) (s : State) : State :=
  let due := s.em.ticks.filter (fun t => decide (t.tick + 2 ≤ n))
  let gone := s.em.ents.filter (fun e => due.any (fun t => agesAt t e))
  let ids := gone.map EmEnt.uid
  let s := foldS gone (fun e => cnt .emAged e.cid 0 1) s
  let posts := gone.filterMap (fun e =>
    if (emTblNow s e.cid e.table).any emEvtAge then some ({ ent := e, ring := s.ring, reason := 1 } : AgedPost) else none)
  { s with em := { s.em with
      ticks := s.em.ticks.filter (fun t => decide (n < t.tick + 2)),
      ents := s.em.ents.filter (fun e => !(e.learned && ids.contains e.uid)),
      posts := s.em.posts ++ posts } }

/-- The sweeper visits a place (R172): a word that fails is treated as in a lookup, and the age-outs are posted. Bank 4
holds the stash entries. -/
def sweeperVisit (bank i : Nat) (bad : Bool) (s : State) : State :=
  let here (p : AgedPost) : Bool := if bank = 4 then emCovers true (i / 64) (i % 64) p.ent else emCovers false bank i p.ent
  let s := foldS (s.em.posts.filter here) (fun p => agedEvent p.ent p.ring p.reason) s
  let s := { s with em := { s.em with posts := s.em.posts.filter (fun p => !here p) } }
  if bad then emParityAt bank i s else s

/-! ## Flushes (R173) -/

/-- The stored result names a port. -/
def resNames (r : BitVec 64) (p : Nat) : Bool := bit r 29 && fld r 28 23 == p

/-- Remove the learned entries that satisfy `p`: counted, and posted where the table has `EVT_AGE`. -/
def emFlush (p : EmEnt → Bool) (s : State) : State :=
  let gone := s.em.ents.filter (fun e => e.learned && p e)
  let s := { s with em := { s.em with ents := s.em.ents.filter (fun e => !(e.learned && p e)) } }
  foldS gone (fun e s =>
    let s := cnt .emFlushed e.cid 0 1 s
    if (emTblNow s e.cid e.table).any emEvtAge then agedEvent e s.ring 2 s else s) s

/-- EM_FLUSH: the port argument is used with [8] alone (R413, R427). -/
def opEmFlush : LOp :=
  { op := .emFlush, args := fun _ q => if q.a1 8 8 = 0 ∧ q.a1 14 9 ≠ 0 then .range else .ok }

/-- EM_FLUSH lands. -/
def landEmFlush (i : Item) (s : State) : Ans :=
  let q := i.req
  { st := emFlush (fun e => e.cid == q.c && e.table == q.a1 3 0 && (q.a1 8 8 == 0 || resNames e.res (q.a1 14 9))) s }

/-- A port went down: its learned entries leave at the second boundary after. -/
def portDownEm (p : Nat) (s : State) : State := { s with em := { s.em with flushes := s.em.flushes ++ [(p, s.ring + 2)] } }

/-- The flushes of ports that went down and whose effect is due by ring `n`. -/
def portFlushes (n : Nat) (p : Nat → Bool) (s : State) : State :=
  let due (f : Nat × Nat) : Bool := p f.1 && decide (f.2 ≤ n)
  let ps := (s.em.flushes.filter due).map Prod.fst
  let s := emFlush (fun e => (emTblNow s e.cid e.table).any emFlushDown && ps.any (resNames e.res)) s
  { s with em := { s.em with flushes := s.em.flushes.filter (fun f => !due f) } }

/-- The removal of learned entries with parity errors that is due by ring `n` (R175). -/
def parityRemove (n : Nat) (p : Nat → Bool) (s : State) : State :=
  let due (x : Nat × Nat) : Bool := p x.1 && decide (x.2 ≤ n)
  let ids := (s.em.parity.filter due).map Prod.fst
  let gone := s.em.ents.filter (fun e => e.learned && ids.contains e.uid)
  let s := { s with em := { s.em with ents := s.em.ents.filter (fun e => !(e.learned && ids.contains e.uid)),
                                      parity := s.em.parity.filter (fun x => !due x) } }
  foldS gone (fun e s =>
    let body := emBody s.ring e.key e.res e.table e.wide 3 255 (emSlotNo e) 1
    let s := post e.cid 0x0604 body s
    if (emTblNow s e.cid e.table).any emEvtAge then pairNotice e.cid 0x0604 body s else s) s

/-! ## Learning (R165 to R169) -/

/-- The order of R39. -/
def learnLt (a b : LearnReq) : Bool := decide (a.port < b.port) || (a.port == b.port && decide (a.ord < b.ord))

/-- Progress of a ring's requests: inserts and moves so far, and refusals: (CID, code, first request, number). -/
structure LearnAcc where
  st : State
  done : Nat := 0
  refused : List (Nat × Nat × LearnReq × Nat) := []

/-- Count a refusal. -/
def addRefused (c code : Nat) (r : LearnReq) : List (Nat × Nat × LearnReq × Nat) → List (Nat × Nat × LearnReq × Nat)
  | [] => [(c, code, r, 1)]
  | x :: l => if x.1 = c ∧ x.2.1 = code then (x.1, x.2.1, x.2.2.1, x.2.2.2 + 1) :: l else x :: addRefused c code r l

/-- The counter of a refusal (R177). -/
def refusedCtr : Nat → Ctr
  | 4 => .emRefRate | 2 => .emRefQuota | 3 => .emRefModule | _ => .emRefFull

/-- Learned entries of a compartment. -/
def learnedOf (s : State) (c : Nat) : Nat := (s.em.ents.filter (fun e => e.learned && e.cid == c)).length

/-- LEARNED or LEARN_MOVED, where the table calls for it. -/
def learnEvent (code : Nat) (e : EmEnt) (port : Nat) (s : State) : State :=
  if (emTblNow s e.cid e.table).any emEvtLearn then
    emPost e.cid code (emBody s.ring e.key e.res e.table e.wide 0 port (emSlotNo e) 1) s
  else s

/-- The activity ring that a request gives (R170): its entry ring, on a grid that has not been set since; otherwise no earlier than the
first ring after the setting, from which every age is counted (R53). -/
def actRing (s : State) (r : LearnReq) : Nat := if s.tim.stepped then s.ring else max r.ring s.em.floor

/-- Handle one request (R166, R168). A request for a learned entry's key is activity, whatever else becomes of it (R171). -/
def learnOne (a : LearnAcc) (r : LearnReq) : LearnAcc :=
  let s := a.st
  let refuse (code : Nat) : LearnAcc :=
    { a with st := cnt (refusedCtr code) r.cid 0 1 s, refused := addRefused r.cid code r a.refused }
  if r.rotation != (cmpOf s r.cid).rotation then { a with st := cnt .emLearnStale r.cid 0 1 s }
  else if r.static_ then { a with st := cnt .emLearnStatic r.cid 0 1 s }
  else
    match s.em.ents.find? (fun e => e.learned && e.cid == r.cid && e.table == r.table && e.key == r.key) with
    | some e =>
      let s := emActivity e.uid (actRing s r) s
      if e.res = r.res then { a with st := s }
      else if e.wrote = r.ring then { a with st := cnt .emLearnDup r.cid 0 1 s }
      else if 512 ≤ a.done then
        { a with st := cnt (refusedCtr 4) r.cid 0 1 s, refused := addRefused r.cid 4 r a.refused }
      else
        let move (x : EmEnt) : EmEnt := { x with res := r.res, wrote := r.ring }
        let s := { s with em := { s.em with ents := s.em.ents.map (fun x => if x.uid = e.uid then move x else x) } }
        let s := learnEvent 0x0602 (move e) r.port (cnt .emLearnMove r.cid 0 1 s)
        { a with st := s, done := a.done + 1 }
    | none =>
      if 512 ≤ a.done then refuse 4
      else if (cmpOf s r.cid).emQuota ≤ learnedOf s r.cid then refuse 2
      else if 1048576 ≤ (s.em.ents.filter EmEnt.learned).length then refuse 3
      else
        let (u, s1) := newUid s
        let e : EmEnt := { uid := u, cid := r.cid, table := r.table, wide := r.wide, learned := true, key := r.key,
                           res := r.res, bank := 0, index := 0, stash := false, act := actRing s r, wrote := r.ring }
        match emPlace e s1 with
        | none => refuse 1
        | some s2 =>
          let e := (s2.em.ents.find? (fun x => x.uid == u)).getD e
          { a with st := learnEvent 0x0601 e r.port (cnt .emLearnOk r.cid 0 1 s2), done := a.done + 1 }

/-- LEARN_REFUSED: one event for each compartment and reason (R168). R168 does not order the events of a ring: they follow those of
the requests, by CID, then code (DESIGN CHOICE, log entry 125). -/
def refusedEvents (l : List (Nat × Nat × LearnReq × Nat)) (s : State) : State :=
  foldS (sortBy (fun a b => decide (a.1 < b.1) || (a.1 == b.1 && decide (a.2.1 < b.2.1))) l) (fun x s =>
    let r := x.2.2.1
    post x.1 0x0603 (emBody s.ring r.key r.tmpl r.table r.wide x.2.1 r.port 0xFFFFFFFF x.2.2.2) s) s

/-- Apply the requests of entry ring `e` in the order of R39. -/
def learnRing (e : Nat) (s : State) : State :=
  let rs := sortBy learnLt (s.em.reqs.filter (fun r => r.ring == e))
  let a := rs.foldl learnOne { st := { s with em := { s.em with reqs := s.em.reqs.filter (fun r => r.ring != e) } } }
  refusedEvents a.refused a.st

/-- Apply every request whose ring is due by ring `n` (R166). -/
def learnApply (n : Nat) (s : State) : State :=
  foldS (((s.em.reqs.filter (fun r => decide (r.ring + 2 ≤ n))).map LearnReq.ring).eraseDups) learnRing s

/-! ## EM_LOOKUP (R583) -/

/-- EM_LOOKUP. -/
def opEmLookup : LOp := { op := .emLookup }

/-- EM_LOOKUP answers at its boundary. -/
def landEmLookup (i : Item) (s : State) : Ans :=
  match currentCut s i.req.c with
  | none => refuseNoCut s
  | some x =>
    let t := i.req.a1 3 0
    let d := match emLookup s i.req.c x.number x.body t (emKey (emWide x.body t) i.req.payload) [] with
      | some (e, r) => packLE [(4, emSlotNo e), (1, b2n e.learned + 2), (3, 0), (8, r.toNat)]
      | none => packLE [(4, 0xFFFFFFFF), (4, 0), (8, 0)]
    { st := s, ring := s.ring, data := d }

/-! ## Meanings -/

/-- EM_TBL_WRITE (R161). -/
def execEmTblWrite (q : Req) (s : State) : Out := .next (runOp opEmTblWrite q s)
/-- EM_STATIC_WRITE (R162, R163, R428). -/
def execEmStaticWrite (q : Req) (s : State) : Out := .next (runOp opEmStaticWrite q s)
/-- EM_LEARN_WRITE (R165). -/
def execEmLearnWrite (q : Req) (s : State) : Out := .next (runOp opEmLearnWrite q s)
/-- EM_FLUSH (R173). -/
def execEmFlush (q : Req) (s : State) : Out := .next (runOp opEmFlush q s)
/-- EM_LOOKUP (R583). -/
def execEmLookup (q : Req) (s : State) : Out := .next (runOp opEmLookup q s)
/-- LEARN_APPLY (R166 to R168). -/
def execLearnApply (s : State) : Out := .next (unlessHalted s (learnApply (dueRing s) s))
/-- AGING_TICK (R170). -/
def execAgingTick (cid : Fin 32) (table : Fin 16) (s : State) : Out :=
  .next (unlessHalted s (agingTick cid.val table.val s))
/-- AGE_OUT (R170). -/
def execAgeOut (s : State) : Out := .next (unlessHalted s (ageOuts (dueRing s) s))
/-- PORT_DOWN_FLUSH (R173). -/
def execPortDownFlush (port : Fin 64) (s : State) : Out :=
  .next (unlessHalted s (portFlushes (dueRing s) (fun p => p == port.val) s))
/-- SWEEPER_VISIT (R172). -/
def execSweeperVisit (bank : Fin 5) (index : Nat) (bad : Bool) (s : State) : Out :=
  .next (unlessHalted s (sweeperVisit bank.val index bad s))
/-- PARITY_ENTRY_REMOVE (R175). -/
def execParityEntryRemove (uid : Nat) (s : State) : Out :=
  .next (unlessHalted s (parityRemove (dueRing s) (fun u => u == uid) s))

end Sys2Proof.Machine
end

