-- ==== Sys2Proof/Machine/Trie.lean ====
section
/-!
DEFINITION. The longest-prefix match trie (R179 to R194, R583): descriptors, prefixes and the nodes they need, staging
writes with their quota and stores, lookups, and parity.
-/
namespace Sys2Proof.Machine

/-! ## Descriptors and prefixes (R179, R180, R189) -/

/-- `TRIE.TBL` of an instance. -/
def trieTbl (b : CutBody) (t : Nat) : BitVec 64 := tget 0 b.trieTbl (k1 t)
def trieEnabled (b : CutBody) (t : Nat) : Bool := bit (trieTbl b t) 0
/-- The instance holds IPv6 prefixes. -/
def trieV6 (b : CutBody) (t : Nat) : Bool := bit (trieTbl b t) 1

/-- The prefixes of an instance. -/
def pfxOf (b : CutBody) (t : Nat) : List Pfx := b.pfx.filter (fun p => p.table == t)

/-- The first `n` bits of an address, as a number. -/
def topBits (a : BitVec 128) (n : Nat) : Nat := a.toNat / 2 ^ (128 - n)

/-- A prefix covers an address. -/
def pfxCovers (p : Pfx) (a : BitVec 128) : Bool := topBits a p.len == topBits p.addr p.len

/-- The longest prefix of an instance that covers an address (R187). -/
def longest (l : List Pfx) (a : BitVec 128) : Option Pfx :=
  (l.filter (fun p => pfxCovers p a)).foldl
    (fun x p => match x with | some y => if y.len < p.len then some p else x | none => some p) none

/-! ## Nodes (R182, R183) -/

/-- The boundary of the node that holds a prefix of 12 bits or more (R182). -/
def holdBoundary (v6 : Bool) (len : Nat) : Nat := min (if v6 then 124 else 28) (12 + 8 * ((len - 12) / 8))

/-- The block of an address at a boundary has a node of its own on the path to prefix `p` (R183, the first two cases). -/
def ownNode (v6 : Bool) (l : List Pfx) (p : Pfx) (b : Nat) : Bool :=
  l.any (fun q => decide (12 ≤ q.len) && topBits q.addr b == topBits p.addr b && decide (b ≤ q.len) &&
    (holdBoundary v6 q.len == b ||
      (decide (b + 8 ≤ q.len) && decide (b + 8 ≤ p.len) && topBits q.addr (b + 8) != topBits p.addr (b + 8))))

/-- The nodes of a path from boundary 12 on: (boundary, end of the node above), pass-through nodes included. -/
def pathNodes (own : Nat → Bool) : Nat → Nat → Nat → List (Nat × Nat)
  | 0, _, _ => []
  | fuel + 1, b, e =>
    if own b then
      if e + 64 < b then (e + 64, e) :: (b, e + 72) :: pathNodes own fuel (b + 8) (b + 8)
      else (b, e) :: pathNodes own fuel (b + 8) (b + 8)
    else pathNodes own fuel (b + 8) e

/-- The nodes on the path to a prefix. -/
def nodesTo (v6 : Bool) (l : List Pfx) (p : Pfx) : List (Nat × Nat) :=
  if p.len < 12 then []
  else pathNodes (fun b => decide (b ≤ holdBoundary v6 p.len) && ownNode v6 l p b) 15 12 12

/-- The nodes of an instance: boundary, the block's bits, and the end of the node above. -/
def trieNodes (v6 : Bool) (l : List Pfx) : List (Nat × Nat × Nat) :=
  (l.flatMap (fun p => (nodesTo v6 l p).map (fun n => (n.1, topBits p.addr n.1, n.2)))).eraseDups

/-- The deepest path of an instance, in stages (R183). -/
def trieDepth (v6 : Bool) (l : List Pfx) : Nat :=
  if l.isEmpty then 0 else 1 + (l.map (fun p => (nodesTo v6 l p).length)).foldl max 0

/-! ## Stores (R181, R184, R186, R190) -/

/-- The last staging write on whose path a block lies: the structures of cuts with the same number are shared. -/
def touchOf (b : CutBody) (t bnd v : Nat) : Nat :=
  ((b.touch.filter (fun x => x.table == t && decide (bnd ≤ x.len) && topBits x.addr bnd == v)).map PfxTouch.stamp).foldl max 0

/-- A body with its compartment and its cut number (R205), for the naming of structures. -/
abbrev OwnBody := Nat × Nat × CutBody

/-- The bodies that hold memory, with their compartments and numbers. -/
def ownBodies (s : State) : List OwnBody :=
  s.cut.cuts.map (fun x => (x.cid, x.number, x.body)) ++
    s.cut.stage.filterMap (fun e => e.2.map (fun x => (e.1.1, x.num, x.body)))

/-- The instances of a body that hold prefixes. -/
def trieInsts (b : CutBody) : List Nat := (List.range 16).filter (fun t => !(pfxOf b t).isEmpty)

/-- The cut in which the structure that a cut numbered `n` reads was last rebuilt for reported words (R193); 0 = never. -/
def genOf (s : State) (n : Nat) (p : TrieBad → Bool) : Nat :=
  ((s.grv.trieBad.filter p).filterMap (fun x => x.until_.filter (fun u => decide (u ≤ n)))).foldl max 0

/-- A reported word of store `k` lies in the structure of an instance at a block below the end `e`, made by the staging write
`stamp`. -/
def badIn (c t k bnd v e stamp : Nat) (x : TrieBad) : Bool :=
  x.cid == c && x.table == t && x.store == k && x.boundary == bnd && topBits x.block bnd == v && x.above == e && x.stamp == stamp

/-- The prefixes that the node of a block holds. -/
def pfxAt (v6 : Bool) (l : List Pfx) (bnd v : Nat) : List Pfx :=
  l.filter (fun p => decide (12 ≤ p.len) && holdBoundary v6 p.len == bnd && topBits p.addr bnd == v)

/-- The name of the root array, of a node (its skip with it) and of a reference range that a cut reads: cuts share a structure while
no staging write on its path (R190), no change of its skip (R185) and no rebuilding (R193) has made another. -/
def rootName (s : State) (c n : Nat) (b : CutBody) (t : Nat) : List Nat :=
  [c, t, touchOf b t 0 0, genOf s n (badIn c t 0 0 0 0 (touchOf b t 0 0))]
def nodeName (s : State) (c n : Nat) (b : CutBody) (t : Nat) (m : Nat × Nat × Nat) : List Nat :=
  let k := touchOf b t m.1 m.2.1
  [c, t, m.1, m.2.1, m.2.2, k, genOf s n (badIn c t 1 m.1 m.2.1 m.2.2 k)]
def refsName (s : State) (c n : Nat) (b : CutBody) (t bnd v : Nat) : List Nat :=
  let l := pfxAt (trieV6 b t) (pfxOf b t) bnd v
  [c, t, bnd, v, touchOf b t bnd v, genOf s n (fun x => badIn c t 2 bnd v 0 (touchOf b t bnd v) x ||
    (x.cid == c && x.store == 3 && l.any (fun p => p.res == x.res)))]
/-- The name of a result record: a failed one is replaced by a fresh one (R193). -/
def poolName (s : State) (c n : Nat) (r : BitVec 64) : List Nat :=
  [c, r.toNat, genOf s n (fun x => x.cid == c && x.store == 3 && x.res == r)]

/-- Root arrays, nodes, reference entries and result records in use (R181, R186, R194): every structure that a cut or a staging
area reads, each once. -/
def rootsUsed (s : State) : Nat :=
  distinct ((ownBodies s).flatMap (fun x => (trieInsts x.2.2).map (rootName s x.1 x.2.1 x.2.2)))
def nodesUsed (s : State) : Nat :=
  distinct ((ownBodies s).flatMap (fun x => (trieInsts x.2.2).flatMap (fun t =>
    (trieNodes (trieV6 x.2.2 t) (pfxOf x.2.2 t)).map (fun m => nodeName s x.1 x.2.1 x.2.2 t m))))
def refsUsed (s : State) : Nat :=
  ((((ownBodies s).flatMap (fun x => (trieInsts x.2.2).flatMap (fun t =>
    (trieNodes (trieV6 x.2.2 t) (pfxOf x.2.2 t)).map (fun m => (refsName s x.1 x.2.1 x.2.2 t m.1 m.2.1,
      (pfxAt (trieV6 x.2.2 t) (pfxOf x.2.2 t) m.1 m.2.1).length))))).eraseDups).map Prod.snd).foldl (· + ·) 0
def poolUsed (s : State) : Nat :=
  distinct ((ownBodies s).flatMap (fun x => x.2.2.pfx.map (fun p => poolName s x.1 x.2.1 p.res)))

/-- The stores have room. -/
def trieFits (s : State) : Bool :=
  decide (rootsUsed s ≤ 64) && decide (nodesUsed s ≤ 147456) && decide (refsUsed s ≤ 3145728) && decide (poolUsed s ≤ 65536)

/-- The (name, units) of the prefixes of a list of bodies (R180). -/
def pfxUnits (l : List CutBody) : Nat :=
  (((l.flatMap (fun b => b.pfx.map (fun p => (p.uid, if trieV6 b p.table then 2 else 1)))).eraseDups).map Prod.snd).foldl (· + ·) 0

/-- `TRIE.UNITS` of a compartment, and the units of the module. -/
def trieUnits (s : State) (c : Nat) : Nat := pfxUnits (bodiesOf s c)

/-! ## Formats (R184, R185) -/

/-- A node: its boundary, its block's bits, and the end of the node above. -/
abbrev TrieNode := Nat × Nat × Nat

/-- What the records of an instance are formed from: the compartment, the cut number, the body, and the instance. -/
structure TrieView where
  cid : Nat
  num : Nat
  body : CutBody
  table : Nat

/-- The prefixes and the nodes of the instance. -/
def TrieView.pfxs (x : TrieView) : List Pfx := pfxOf x.body x.table
def TrieView.nodes (x : TrieView) : List TrieNode := trieNodes (trieV6 x.body x.table) x.pfxs

/-- The position of a prefix in the `INT_BITMAP` of its node. -/
def intPos (bnd : Nat) (p : Pfx) : Nat := 2 ^ (p.len - bnd) - 1 + topBits p.addr p.len % 2 ^ (p.len - bnd)

/-- The positions set in a node's `INT_BITMAP`, and the strides set in its `EXT_BITMAP`. -/
def TrieView.ints (x : TrieView) (m : TrieNode) : List Nat :=
  (pfxAt (trieV6 x.body x.table) x.pfxs m.1 m.2.1).map (intPos m.1)
def TrieView.exts (x : TrieView) (m : TrieNode) : List Nat :=
  (List.range 256).filter (fun k => x.nodes.any (fun d => d.2.2 == m.1 + 8 && d.2.1 / 2 ^ (d.1 - (m.1 + 8)) == m.2.1 * 256 + k))

/-- How many elements of a list lie below a place. -/
def rankIn (l : List Nat) (k : Nat) : Nat := (l.filter (fun i => decide (i < k))).length

/-- A bitmap. -/
def bitmap (l : List Nat) : Nat := (l.map (fun i => 2 ^ i)).foldl (· + ·) 0

/-- The nodes whose path parts from an end `e` at the block `v` of its bits. -/
def TrieView.below (x : TrieView) (e v : Nat) : List TrieNode := x.nodes.filter (fun d => d.2.2 == e && d.2.1 / 2 ^ (d.1 - e) == v)

/-- The nodes below a node: they lie together in the order of their strides (R185). -/
def TrieView.children (x : TrieView) (m : TrieNode) : List TrieNode :=
  (x.exts m).flatMap (fun k => x.below (m.1 + 8) (m.2.1 * 256 + k))

/-- The index of the first of the nodes that lie together. -/
def TrieView.groupBase (s : State) (x : TrieView) (l : List TrieNode) : Nat :=
  Config.storeIndex 1 (l.flatMap (nodeName s x.cid x.num x.body x.table)) % (147456 - l.length + 1)

/-- The first entry of the root array, `CHILD` of a root entry, `CHILD_BASE` and `RES_BASE` of a node, and the pool index of a
record, as the Ranger has placed them: every entry lies inside its store, and a range of references begins at a 32-bit word
(log entry 96). -/
def TrieView.rootBase (s : State) (x : TrieView) : Nat := Config.storeIndex 0 (rootName s x.cid x.num x.body x.table) % 64 * 4096
def TrieView.rootChild (s : State) (x : TrieView) (i : Nat) : Nat :=
  x.groupBase s (x.below 12 i)
def TrieView.childBase (s : State) (x : TrieView) (m : TrieNode) : Nat :=
  x.groupBase s (x.children m)
def TrieView.resBase (s : State) (x : TrieView) (m : TrieNode) : Nat :=
  2 * (Config.storeIndex 2 (refsName s x.cid x.num x.body x.table m.1 m.2.1) % ((3145728 - (x.ints m).length) / 2 + 1))
def TrieView.poolIdx (s : State) (x : TrieView) (r : BitVec 64) : Nat :=
  Config.storeIndex 3 (poolName s x.cid x.num r) % 65536

/-- Root entry `i` (R184): the longest prefix of length 1 to 11 over it is pushed down. -/
def rootRec (s : State) (x : TrieView) (i : Nat) : BitVec 64 :=
  let a : BitVec 128 := BitVec.ofNat 128 (i * 2 ^ 116)
  let cover := longest (x.pfxs.filter (fun p => decide (p.len < 12))) a
  let child := !(x.below 12 i).isEmpty
  BitVec.ofNat 64 ((if child then x.rootChild s i + 2 ^ 18 else 0) +
    (match cover with | some p => 2 ^ 19 + x.poolIdx s p.res * 2 ^ 20 | none => 0))

/-- The record of a node (R185). -/
def nodeRec (s : State) (x : TrieView) (m : TrieNode) : BitVec 640 :=
  let k := m.1 - m.2.2
  BitVec.ofNat 640 (bitmap (x.ints m) + bitmap (x.exts m) * 2 ^ 256 + k * 2 ^ 512 + m.2.1 % 2 ^ k * 2 ^ (64 - k) * 2 ^ 520 +
    x.childBase s m * 2 ^ 584 + x.resBase s m * 2 ^ 602 + m.1 * 2 ^ 624)

/-- The reference entries of a node in order: the pool indices of its prefixes by position (R185). -/
def refsOf (s : State) (x : TrieView) (m : TrieNode) : List Nat :=
  (sortBy (fun p q => decide (intPos m.1 p < intPos m.1 q)) (pfxAt (trieV6 x.body x.table) x.pfxs m.1 m.2.1)).map
    (fun p => x.poolIdx s p.res)

/-- The parity bits of a record of `n` words, one for every 32 bits (R181). The manual does not give their sense: the model's is even
(DESIGN CHOICE, log entry 125). -/
def wordParity (n x : Nat) : List Bool := (List.range n).map (fun k => oddOnes (x / 2 ^ (32 * k)) 32)

/-! ## Staging writes -/

/-- Fields of `TRIE.PFX`. -/
def pfxAddr (r : List Byte) : BitVec 128 := BitVec.ofNat 128 (leAt r 0 16)
def pfxLen (r : List Byte) : Nat := leAt r 16 1
def pfxTable (r : List Byte) : Nat := leAt r 17 1 % 16
def pfxRes (r : List Byte) : BitVec 64 := resMask (BitVec.ofNat 64 (leAt r 18 8))

/-- The rules of a `TRIE.PFX` record (R189), in the order of its fields; the length's bound is the family's. -/
def pfxForm (b : CutBody) (r : List Byte) : Status :=
  firstBad [
    (topBits (pfxAddr r) 128 % 2 ^ (128 - min 128 (pfxLen r)) == 0 || pfxLen r == 0, .range),
    (pfxLen r != 0, .zeroLen), (decide (pfxLen r ≤ 128), .range),
    (decide (pfxLen r ≤ if trieV6 b (pfxTable r) then 128 else 32), .range)]

/-- An accepted write to an instance marks its reported words for rebuilding in the cut that is being staged (R193). -/
def trieRebuild (c t : Nat) (s : State) : State :=
  { s with grv := { s.grv with trieBad := s.grv.trieBad.map (fun x =>
      if x.cid == c && (x.table :: x.also).contains t && x.until_.isNone then { x with until_ := some (stageNum s c) } else x) } }

/-- The staged prefixes changed at one prefix: its path is copied (R190). -/
def pfxTouch (c t len : Nat) (a : BitVec 128) (l : List Pfx) (s : State) : State :=
  let (u, s) := newUid s
  let b := stageBody s c
  let k : PfxTouch := { table := t, len := len, addr := a, stamp := u }
  setBody c { b with pfx := l, touch := b.touch.filter (fun x => !(x.table == t && x.len == len && x.addr == a)) ++ [k] } s

/-- Finish a write: the paths and the room are judged with it in place. -/
def pfxDone (c t : Nat) (old s : State) : Status × State :=
  let b := stageBody s c
  let l := pfxOf b t
  let s := trieRebuild c t s
  if 8 < trieDepth (trieV6 b t) l then (.range, old)
  else if (cmpOf s c).trieQuota < trieUnits s c ∨ 2097152 < pfxUnits (heldBodies s) ∨ trieFits s = false then (.noSpace, old)
  else (.ok, s)

/-- The prefix of a record is held. -/
def pfxIs (r : List Byte) (p : Pfx) : Bool := p.table == pfxTable r && p.len == pfxLen r && p.addr == pfxAddr r

/-- Add or replace a prefix (R189). -/
def trieAddRec : StageFn := fun q _ r s =>
  let b := stageBody s q.c
  let t := pfxTable r
  match pfxForm b r with
  | .ok =>
    if !trieEnabled b t then (.range, s)
    else
      let (u, s1) := newUid s
      let p : Pfx := { uid := u, table := t, len := pfxLen r, addr := pfxAddr r, res := pfxRes r }
      pfxDone q.c t s (pfxTouch q.c t p.len p.addr (b.pfx.filter (fun x => !pfxIs r x) ++ [p]) s1)
  | st => (st, s)

/-- Delete a prefix (R189). -/
def trieDelRec : StageFn := fun q _ r s =>
  let b := stageBody s q.c
  let t := pfxTable r
  match pfxForm b r with
  | .ok =>
    if !trieEnabled b t then (.range, s)
    else if !b.pfx.any (pfxIs r) then (.range, s)
    else pfxDone q.c t s (pfxTouch q.c t (pfxLen r) (pfxAddr r) (b.pfx.filter (fun x => !pfxIs r x)) s)
  | st => (st, s)

/-- The form of a record whatever the instance is. -/
def pfxAnyForm (_ : Req) (_ : Nat) (r : List Byte) : Status := if pfxLen r = 0 then .zeroLen else if 128 < pfxLen r then .range else .ok

/-- TRIE_ADD and TRIE_DELETE. -/
def opTrieAdd : LOp := stageOp .trieAdd (fun _ => .ok) pfxAnyForm trieAddRec
def opTrieDelete : LOp := stageOp .trieDelete (fun _ => .ok) pfxAnyForm trieDelRec

/-- TRIE_TBL_WRITE (R179). -/
def opTrieTblWrite : LOp :=
  stageOp .trieTblWrite (fun _ => .ok) (fun _ _ _ => .ok)
    (fun q _ r s =>
      let x := BitVec.ofNat 64 ((rec64 r).toNat % 4)
      let t := q.a1 3 0
      let b := stageBody s q.c
      if !(pfxOf b t).isEmpty && (!bit x 0 || bit x 1 != trieV6 b t) then (.range, s)
      else putBody (fun b => { b with trieTbl := tput 0 b.trieTbl (k1 t) x }) q.c s)

/-! ## Lookups and parity (R187, R191 to R193) -/

/-- The nodes that a lookup reads below an end `e`: each is the one node that begins with the key's bits there. -/
def nodesRead (ns : List (Nat × Nat × Nat)) (a : BitVec 128) : Nat → Nat → List (Nat × Nat × Nat)
  | 0, _ => []
  | fuel + 1, e =>
    match ns.find? (fun n => n.2.2 == e && n.2.1 / 2 ^ (n.1 - e) == topBits a e) with
    | none => []
    | some n => n :: (if n.2.1 = topBits a n.1 then nodesRead ns a fuel (n.1 + 8) else [])

/-- A word that a lookup reads: its name as `TrieBad` has it, its stage, and its entry's index in the store. -/
structure TrieWord where
  store : Nat
  boundary : Nat
  block : BitVec 128
  pos : Nat
  res : BitVec 64
  stamp : Nat := 0
  above : Nat := 0
  word : Nat := 0
  stage : Nat
  index : Nat

/-- How many 32-bit words of its entry a lookup reads (R181, R191): of a node all 20, of the references the one that holds the
entry. -/
def TrieWord.words (w : TrieWord) : Nat := if w.store = 1 then 20 else if w.store = 2 then 1 else 2

/-- The first `n` bits of an address, left-aligned. -/
def keepBits (a : BitVec 128) (n : Nat) : BitVec 128 := BitVec.ofNat 128 (topBits a n * 2 ^ (128 - n))

/-- The indices of the nodes that a lookup reads, the first of them at `i`. -/
def nodeIdxs (s : State) (x : TrieView) (a : BitVec 128) : Nat → List TrieNode → List Nat
  | _, [] => []
  | i, m :: r => i :: nodeIdxs s x a (x.childBase s m + rankIn (x.exts m) (topBits a (m.1 + 8) % 256)) r

/-- The prefix that a lookup finds in a node: the longest there that covers the address. -/
def nodeHit (x : TrieView) (a : BitVec 128) (m : TrieNode) : Option Pfx :=
  if m.2.1 = topBits a m.1 then longest (pfxAt (trieV6 x.body x.table) x.pfxs m.1 m.2.1) a else none

/-- The entries that a lookup reads, in the order of its stages (R187): the root entry, each node with the reference entry of
what it finds there, and the pool record of the result. -/
def entriesRead (s : State) (x : TrieView) (a : BitVec 128) : List TrieWord :=
  if x.pfxs.isEmpty then []
  else
    let ns := nodesRead x.nodes a 16 12
    let idx := nodeIdxs s x a (x.rootChild s (topBits a 12)) ns
    let stamp (m : TrieNode) : Nat := touchOf x.body x.table m.1 m.2.1
    let block (m : TrieNode) : BitVec 128 := BitVec.ofNat 128 (m.2.1 * 2 ^ (128 - m.1))
    let node (k : Nat) (m : TrieNode) : List TrieWord :=
      { store := 1, boundary := m.1, block := block m, pos := 0, res := 0, stamp := stamp m, above := m.2.2, stage := k + 1,
        index := idx.getD k 0 } ::
        (match nodeHit x a m with
         | some p =>
           let r := rankIn (x.ints m) (intPos m.1 p)
           [{ store := 2, boundary := m.1, block := block m, pos := r / 2, res := 0, stamp := stamp m, stage := k + 1,
              index := x.resBase s m + r }]
         | none => [])
    { store := 0, boundary := 0, block := 0, pos := topBits a 12, res := 0, stamp := touchOf x.body x.table 0 0, stage := 0,
      index := x.rootBase s + topBits a 12 } ::
      ((ns.mapIdx node).flatten ++
       (match longest x.pfxs a with
        | some p => [{ store := 3, boundary := 255, block := 0, pos := 0, res := p.res, stamp := 0, stage := ns.length,
                       index := x.poolIdx s p.res }]
        | none => []))

/-- The 32-bit words that a lookup reads. -/
def wordsRead (s : State) (x : TrieView) (a : BitVec 128) : List TrieWord :=
  (entriesRead s x a).flatMap (fun w => (List.range w.words).map (fun k => { w with word := k }))

/-- A reported word is the one that is read, by a frame of cut `n`. -/
def badIs (c t n : Nat) (w : TrieWord) (x : TrieBad) : Bool :=
  x.cid == c && x.store == w.store && x.boundary == w.boundary && x.block == w.block && x.pos == w.pos && x.res == w.res &&
    x.stamp == w.stamp && x.above == w.above && x.word == w.word && (x.table == t || x.store == 3) && x.until_.all (fun u => decide (n < u))

/-- NOTE and TRIE_PARITY of a failed word, at most once every 1,000,000 rings (R191, R192). -/
def trieNote (c t n : Nat) (w : TrieWord) (s : State) : State :=
  let blk := if w.store = 3 then leBytes 8 w.res.toNat ++ zeros 8 else leBytes 16 w.block.toNat
  let s := note 0x41 0x0701 c [c, t, w.stage, w.store, w.index] s
  post c 0x0701 (leBytes 8 s.ring ++ blk ++
    packLE [(1, w.boundary), (1, t), (1, w.stage), (1, w.store), (4, w.index), (4, n), (12, 0)]) s

/-- A word fails in a lookup: counted, kept as bad, reported. -/
def trieFail (c t n : Nat) (w : TrieWord) (s : State) : State :=
  let s := progEvt 0x41 0x03 255 0 1 (cnt .trieParity 0 0 1 s)
  match s.grv.trieBad.find? (badIs c t n w) with
  | some x =>
    if s.ran < x.lastNote + 1000000 then s
    else trieNote c t n w { s with grv := { s.grv with trieBad := s.grv.trieBad.map (fun y =>
      if badIs c t n w y then { y with lastNote := s.ran, also := y.also.filter (· != t) ++ [t] } else y) } }
  | none =>
    let k : TrieBad := { cid := c, table := t, store := w.store, boundary := w.boundary, block := w.block, pos := w.pos,
                         res := w.res, stamp := w.stamp, above := w.above, word := w.word, until_ := none, lastNote := s.ran }
    trieNote c t n w { s with grv := { s.grv with trieBad := s.grv.trieBad ++ [k] } }

/-- A lookup by a frame of compartment `c` stamped with cut `n` (R187, R191): `found` lists the words, by store and
boundary, and the number in their entry, that fail now. A failed word ends it as a miss. -/
def trieLookup (c n : Nat) (b : CutBody) (t : Nat) (a : BitVec 128) (found : List (Nat × Nat × Nat)) (s : State) :
    Option Pfx × State :=
  if !trieEnabled b t then (none, s)
  else
    let l := pfxOf b t
    match (wordsRead s { cid := c, num := n, body := b, table := t } a).find? (fun w =>
        found.contains (w.store, w.boundary, w.word) || s.grv.trieBad.any (badIs c t n w)) with
    | some w => (none, cnt .trieParityMiss c 0 1 (trieFail c t n w s))
    | none => (longest l a, s)

/-- Reported words that no cut reads any more are freed (R193). -/
def trieSweep (s : State) : State :=
  { s with grv := { s.grv with trieBad := s.grv.trieBad.filter (fun x =>
      x.until_.all (fun u => s.cut.cuts.any (fun k => k.cid == x.cid && decide (k.number < u)))) } }

/-- A staging area is given up: the words that it would have rebuilt stay bad. -/
def trieAbort (c n : Nat) (s : State) : State :=
  { s with grv := { s.grv with trieBad := s.grv.trieBad.map (fun x =>
      if x.cid == c && x.until_ == some n then { x with until_ := none } else x) } }

/-! ## TRIE_LOOKUP (R583) -/

/-- TRIE_LOOKUP. -/
def opTrieLookup : LOp := { op := .trieLookup }

/-- The address of a key: an IPv4 key fills the first four bytes. -/
def trieKey (v6 : Bool) (l : List Byte) : BitVec 128 := BitVec.ofNat 128 (beNat (padTo 16 (if v6 then l else l.take 4)))

/-- TRIE_LOOKUP answers at its boundary: it counts nothing, and a failed word gives a miss. -/
def landTrieLookup (i : Item) (s : State) : Ans :=
  match currentCut s i.req.c with
  | none => refuseNoCut s
  | some x =>
    let t := i.req.a1 3 0
    let d := match (trieLookup i.req.c x.number x.body t (trieKey (trieV6 x.body t) i.req.payload) [] s).1 with
      | some p => packLE [(1, p.len), (7, 0), (8, p.res.toNat)]
      | none => zeros 16
    { st := s, ring := s.ring, data := d }

/-! ## Meanings -/

/-- TRIE_TBL_WRITE (R179). -/
def execTrieTblWrite (q : Req) (s : State) : Out := .next (runOp opTrieTblWrite q s)
/-- TRIE_ADD (R183, R189, R190). -/
def execTrieAdd (q : Req) (s : State) : Out := .next (runOp opTrieAdd q s)
/-- TRIE_DELETE (R189, R190). -/
def execTrieDelete (q : Req) (s : State) : Out := .next (runOp opTrieDelete q s)
/-- TRIE_LOOKUP (R583). -/
def execTrieLookup (q : Req) (s : State) : Out := .next (runOp opTrieLookup q s)

end Sys2Proof.Machine
end

