-- ==== Sys2Proof/Machine/Grove.lean ====
section
/-!
DEFINITION. The Grove dies and the on-die grove (R196 to R215): tables and blocks, entries and their versions, ordered
insertion with block moves, the search, parity and suppression.
-/
namespace Sys2Proof.Machine

/-! ## Descriptors (R200) -/

/-- The key of an instance: its number, and 1 for the on-die set. -/
abbrev grvKey (t : Nat) (od : Bool) : Key := k2 t (b2n od)

/-- `GRV.TBL` or `ODG.TBL` of an instance; `DIE_MASK` 0b1111 where none was staged. -/
def grvTbl (b : CutBody) (t : Nat) (od : Bool) : BitVec 64 := tget 0x78 b.grvTbl (grvKey t od)
def grvEnabled (b : CutBody) (t : Nat) (od : Bool) : Bool := bit (grvTbl b t od) 0
def grvWidth (b : CutBody) (t : Nat) (od : Bool) : Nat := fld (grvTbl b t od) 2 1
def grvMask (b : CutBody) (t : Nat) (od : Bool) : Nat := fld (grvTbl b t od) 6 3

/-- Bits and sectors of a width code. -/
def widthBits (w : Nat) : Nat := 160 * 2 ^ w
def widthSectors (w : Nat) : Nat := 2 ^ min w 2

/-- The lockstep pair that a die belongs to is paired (R199). -/
def grvPaired (s : State) (d : Nat) : Bool := bit s.grv.pair (d / 2)

/-- The unit that an array belongs to: its die, or rule memory for the on-die grove. -/
def grvUnit (arr : Nat) : Nat := if arr < 4 then uGrove arr else 0x42

/-- The number of an array in notes and events. -/
def grvArr (arr : Nat) : Nat := if arr < 4 then arr else 255

/-! ## Slots in table order (R196 to R198) -/

/-- The first sectors of a block's slots. -/
def blockSlots (arr block w : Nat) : List Nat :=
  let per := if arr < 4 then 1024 else 128
  let n := widthSectors w
  (List.range (per / n)).map (fun i => block * per + i * n)

/-- The order of blocks: cascade position, then place on the die. -/
def blockLt (a b : GrvBlock) : Bool := decide (a.arr < b.arr) || (a.arr == b.arr && decide (a.block < b.block))

/-- The blocks of an instance in table order. -/
def instBlocks (s : State) (c t : Nat) (od : Bool) : List GrvBlock :=
  sortBy blockLt (s.grv.blocks.filter (fun b => b.cid == c && b.table == t && (b.arr == 4) == od))

/-- The slots of an instance in table order: (array, index). -/
def instSlots (s : State) (c t : Nat) (od : Bool) : List (Nat × Nat) :=
  (instBlocks s c t od).flatMap (fun b => (blockSlots b.arr b.block b.width).map (fun i => (b.arr, i)))

/-- An entry belongs to an instance. -/
def grvIn (c t : Nat) (od : Bool) (e : GrvEnt) : Bool := e.cid == c && e.table == t && (e.arr == 4) == od

/-- The entry at a slot. -/
def grvAt (s : State) (x : Nat × Nat) : Option GrvEnt := s.grv.ents.find? (fun e => e.arr == x.1 && e.index == x.2)

/-- `DEATH` of an entry that is not deleted (R204). -/
def noDeath : Nat := 0xFFFFFFFF

/-- The entry of the staged instance with an identifier (R203). -/
def grvStaged (s : State) (c t : Nat) (od : Bool) (id : Nat) : Option GrvEnt :=
  s.grv.ents.find? (fun e => grvIn c t od e && e.id == id && e.death == noDeath)

/-! ## Blocks and mask registers (R197, R202) -/

/-- Blocks of a compartment on the Grove dies, and on the on-die grove; a lockstep pair takes one on each die. -/
def grvBlocks (s : State) (c : Nat) (od : Bool) : Nat :=
  ((s.grv.blocks.filter (fun b => b.cid == c && (b.arr == 4) == od)).map (fun b => if b.width = 3 then 2 else 1)).foldl (· + ·) 0

/-- The bodies of live cuts and of staging areas, with their compartments (R150, R202). -/
def liveBodies (s : State) : List (Nat × CutBody) :=
  (s.cut.cuts.filter (fun x => !x.discarded)).map (fun x => (x.cid, x.body)) ++
    s.cut.stage.filterMap (fun e => e.2.map (fun x => (e.1.1, x.body)))

/-- The mask values other than all ones that instances with blocks on an array name (R202). -/
def masksUse (s : State) (arr : Nat) : List (BitVec 1280) :=
  let od := arr == 4
  let lower := if grvPaired s arr && !od then arr / 2 * 2 else arr
  (liveBodies s).flatMap (fun x => x.2.gmask.filterMap (fun e =>
    if (e.1.2.1 == 1) == od && s.grv.blocks.any (fun b => b.arr == lower && b.cid == x.1 && b.table == e.1.1) then e.2 else none))

/-- Mask registers are allocated and freed (R202): each array has one for every value in use on it, and keeps it while a live cut or
a staging area names the value. -/
def settleMasks (s : State) : State :=
  let named (v : BitVec 1280) : Bool := (liveBodies s).any (fun x => x.2.gmask.any (fun e => e.2 == some v))
  { s with grv := { s.grv with masks := (List.range 5).flatMap (fun a =>
      (((s.grv.masks.filter (fun x => x.1 == a && named x.2)).map Prod.snd ++ masksUse s a).eraseDups).map (fun v => (a, v))) } }

/-- The registers allocated on an array beside register 0. -/
def masksOn (s : State) (arr : Nat) : Nat := ((settleMasks s).grv.masks.filter (fun x => x.1 == arr)).length

/-- Every array has registers enough: 63 beside register 0. -/
def masksFit (s : State) : Bool := (List.range 5).all (fun a => decide (masksOn s a ≤ 63))

/-- Release the blocks that hold no entry, and then the mask registers that nothing names. -/
def releaseBlocks (s : State) : State :=
  settleMasks { s with grv := { s.grv with blocks := s.grv.blocks.filter (fun b =>
      let per := if b.arr < 4 then 1024 else 128
      s.grv.ents.any (fun e => e.arr == b.arr && e.index / per == b.block)) } }

/-- The Grove dies that hold an entry of width `w` placed on an array: a 1,280-bit entry lies on both dies of its pair (R196). -/
def entDies (arr w : Nat) : List Nat := if arr < 4 then (if w = 3 then [arr, arr + 1] else [arr]) else []

/-- The dies on which an instance may take a block (R197, R199, R200), those in service first. -/
def blockDies (s : State) (c t : Nat) (od : Bool) : List Nat :=
  if od then [4]
  else
    let b := stageBody s c
    let w := grvWidth b t od
    let ds := (List.range 4).filter (fun d => (grvMask b t od).testBit d && grovePresent s.variant d &&
      (if w = 3 then grvPaired s d && d % 2 == 0 else !grvPaired s d))
    let out (d : Nat) : Bool := (entDies d w).any (fun k => isFenced s (uGrove k))
    ds.filter (fun d => !out d) ++ ds.filter out

/-- Add a free block to an instance (R209 step 5): none when the quota is spent, or no block or mask register is free. -/
def addBlock (s : State) (c t : Nat) (od : Bool) : Option State :=
  let w := grvWidth (stageBody s c) t od
  let n := if w = 3 then 2 else 1
  let quota := if od then (cmpOf s c).odgQuota else (cmpOf s c).grvQuota
  if quota < grvBlocks s c od + n then none
  else
    let free (d : Nat) : Option (Nat × Nat) :=
      (findFrom (fun k => !s.grv.blocks.any (fun b => b.arr == d && b.block == k)) (if od then 64 else 128) 0).map (fun k => (d, k))
    match (blockDies s c t od).findSome? free with
    | none => none
    | some x =>
      let s := { s with grv := { s.grv with blocks := s.grv.blocks ++ [{ arr := x.1, block := x.2, cid := c, table := t, width := w }] } }
      if masksFit s then some (settleMasks s) else none

/-! ## `GRV.WR` (R203) -/

/-- A staging write of an entry. -/
structure GrvWr where
  id : Nat
  table : Nat
  ondie : Bool
  op : Nat
  order : Nat
  prio : Nat
  ref : Nat
  res : BitVec 64
  value : BitVec 1280
  mask : BitVec 1280

/-- A value of `w` bits, left-aligned in 1,280. -/
def leftAlign (w x : Nat) : BitVec 1280 := BitVec.ofNat 1280 (x * 2 ^ (1280 - w))

/-- Read the payload of GRV_WRITE; the width is that of the staged table. -/
def grvWrOf (s : State) (q : Req) : GrvWr :=
  let h : BitVec 256 := BitVec.ofNat 256 (leAt q.payload 0 32)
  let t := fld h 35 32
  let od := bit h 36
  let w := widthBits (grvWidth (stageBody s q.c) t od)
  { id := fld h 31 0, table := t, ondie := od, op := fld h 38 37, order := fld h 40 39, prio := fld h 63 48,
    ref := fld h 95 64, res := resMask (BitVec.ofNat 64 (fld h 159 96)),
    value := leftAlign w (leAt q.payload 32 (w / 8)), mask := leftAlign w (leAt q.payload (32 + w / 8) (w / 8)) }

/-- The new entry has the priority of the version that it replaces. -/
def samePrio (s : State) (c : Nat) (x : GrvWr) : Bool :=
  x.op == 1 && (grvStaged s c x.table x.ondie x.id).any (fun e => e.prio == x.prio)

/-- The rules of R203 for a write. -/
def grvRules (s : State) (q : Req) : Status :=
  let x := grvWrOf s q
  let b := stageBody s q.c
  let held := grvStaged s q.c x.table x.ondie x.id
  let ref := grvStaged s q.c x.table x.ondie x.ref
  firstBad [
    (grvEnabled b x.table x.ondie, .range),
    (q.payload.length == 32 + 2 * (widthBits (grvWidth b x.table x.ondie) / 8), .range),
    (x.op != 3, .range),
    (if x.op = 0 then held.isNone else held.isSome, .range),
    (x.value &&& ~~~x.mask == 0, .range),
    (x.order < 2 || samePrio s q.c x || ref.any (fun e => e.prio == x.prio && (x.op != 1 || e.id != x.id)), .range)]

/-! ## Ordered insertion (R205, R209) -/

/-- Delete the staged version of an identifier (R205). -/
def grvDelete (c t : Nat) (od : Bool) (id : Nat) (s : State) : State :=
  let n := stageNum s c
  let mine (e : GrvEnt) : Bool := grvIn c t od e && e.id == id && e.death == noDeath
  let left := s.grv.ents.filter (fun e => !(mine e && e.birth == n))
  { s with grv := { s.grv with ents := left.map (fun e => if mine e then { e with death := n } else e) } }

/-- The place in table order that `ORDER` defines (R209 step 1); none where no entry has the priority. `old` is the slot
of the version that a replace with unchanged priority goes before. -/
def grvTarget (slots : List (Nat × Nat)) (occ : List (Option GrvEnt)) (x : GrvWr) (old : Option (Nat × Nat)) : Option Nat :=
  let eqs := (List.range occ.length).filter (fun i => (occ[i]?.join).any (fun e => e.prio == x.prio))
  let ref := (List.range occ.length).find? (fun i => (occ[i]?.join).any (fun e => e.id == x.ref && e.death == noDeath))
  match old with
  | some o => slots.findIdx? (· == o)
  | none =>
    match x.order with
    | 0 => eqs.getLast?.map (· + 1)
    | 1 => eqs.head?
    | 2 => ref
    | _ => ref.map (· + 1)

/-- What an insertion does: the target slot, the moves (slot, new slot), and the state with them made. -/
structure GrvPlan where
  at_ : Nat × Nat
  moves : List ((Nat × Nat) × (Nat × Nat))
  st : State

/-- Shift the entries between the target and the free slot, and name the slot of the new entry (R209 steps 2 and 3). -/
def grvShift (s : State) (slots : List (Nat × Nat)) (free target : Nat) : GrvPlan :=
  let step (i j : Nat) : (Nat × Nat) × (Nat × Nat) := (slots.getD i (0, 0), slots.getD j (0, 0))
  let mv := if target ≤ free then (List.range (free - target)).map (fun k => step (free - 1 - k) (free - k))
    else (List.range (target - free)).map (fun k => step (free + k + 1) (free + k))
  { at_ := slots.getD target (0, 0), moves := mv,
    st := { s with grv := { s.grv with ents := s.grv.ents.map (fun e =>
      match mv.find? (fun m => m.1 == (e.arr, e.index)) with
      | some m => { e with arr := m.2.1, index := m.2.2 }
      | none => e) } } }

/-- Find the place for an entry, taking another block when the instance has no free slot (R209). -/
def grvFind (c : Nat) (x : GrvWr) (old : Option (Nat × Nat)) : Nat → State → Option GrvPlan
  | 0, _ => none
  | fuel + 1, s =>
    let slots := instSlots s c x.table x.ondie
    let occ := slots.map (grvAt s)
    let frees := (List.range slots.length).filter (fun i => (occ[i]?.join).isNone)
    match frees with
    | [] => match addBlock s c x.table x.ondie with | some t => grvFind c x old fuel t | none => none
    | f0 :: _ =>
      match grvTarget slots occ x old with
      | none => some (grvShift s slots f0 f0)
      | some p =>
        match frees.find? (fun f => decide (p ≤ f)) with
        | some f => some (grvShift s slots f p)
        | none => some (grvShift s slots (frees.getLastD 0) (p - 1))

/-- The plan of an add or a replace: a replace deletes the old version first. -/
def grvPlanOf (s : State) (c : Nat) (x : GrvWr) : Option GrvPlan :=
  let old := if samePrio s c x then (grvStaged s c x.table x.ondie x.id).map (fun e => (e.arr, e.index)) else none
  grvFind c x old 2 (if x.op = 1 then grvDelete c x.table x.ondie x.id s else s)

/-- The Grove dies on which a write moves or places an entry of width `w` (R480). -/
def planDies (w : Nat) (p : GrvPlan) : List Nat :=
  ((p.at_.1 :: p.moves.flatMap (fun m => [m.1.1, m.2.1])).flatMap (fun a => entDies a w)).eraseDups.map uGrove

/-- Count the moves of a plan, and the sectors moved on each die (R215, R527). -/
def countMoves (w : Nat) (p : GrvPlan) (s : State) : State :=
  foldS p.moves (fun m s => let s := cnt .grvMoves 0 0 1 s
                            foldS (entDies m.2.1 w) (fun d => progEvt (uGrove d) 0x51 255 0 (widthSectors w)) s) s

/-! ## Parity (R211, R214) -/

/-- An entry covers an index of an array; a 1,280-bit entry lies on both dies of its pair. -/
def grvCovers (arr i : Nat) (e : GrvEnt) : Bool :=
  (e.arr == arr || (e.width == 3 && e.arr + 1 == arr)) && decide (e.index ≤ i) && decide (i < e.index + widthSectors e.width)

/-- The block that a sector of an array lies in; a block of 1,280-bit width lies on both dies of its pair. -/
def blockAt (s : State) (arr i : Nat) : Option GrvBlock :=
  s.grv.blocks.find? (fun b => (b.arr == arr || (b.width == 3 && b.arr + 1 == arr)) &&
    b.block == i / (if arr < 4 then 1024 else 128))

/-- The entry that a failed word of sector `i` belongs to: the side records of an entry's other sectors, and those of a pair's
upper die, are unused (R196). -/
def grvOwner (arr i word : Nat) (e : GrvEnt) : Bool := grvCovers arr i e && (word != 2 || (e.arr == arr && e.index == i))

/-- A word fails: `word` 0 value, 1 mask, 2 side record; `how` 0 search, 1 scrub, 2 move. It is counted and reported with the
entry's index to the compartment that holds the block, and the entry is suppressed from the next boundary (R211, R214). -/
def grvFail (arr i word how : Nat) (s : State) : State :=
  let own := s.grv.ents.find? (grvOwner arr i word)
  let s := progEvt (grvUnit arr) 0x03 255 0 1 (cnt .grvParity 0 0 1 s)
  let blk := blockAt s arr i
  let quietNow := own.any (fun e => e.noted.any (fun r => decide (s.ran < r + 1000000)))
  let s := { s with grv := { s.grv with ents := s.grv.ents.map (fun e =>
    if grvOwner arr i word e then
      { e with supp := some (e.supp.getD (s.ran + 1)), noted := if quietNow then e.noted else some s.ran }
    else e) } }
  if quietNow then s
  else
    let cid := ((own.map GrvEnt.cid).or (blk.map GrvBlock.cid)).getD 255
    let idx := (own.map GrvEnt.index).getD i
    let words := [grvArr arr, idx, cid]
    let s := if arr < 4 then noteWindow (uGrove arr) 0x0801 cid words 1 s else note (grvUnit arr) 0x0801 cid words s
    if cid = 255 then s
    else post cid 0x0801 (packLE [(8, s.ring), (4, (own.map GrvEnt.id).getD 0xFFFFFFFF), (4, idx), (1, grvArr arr),
      (1, ((own.map GrvEnt.table).or (blk.map GrvBlock.table)).getD 0), (1, word), (1, how), (28, 0)]) s

/-- The scrub reads a row (R211). -/
def groveScrub (arr i : Nat) (word : Option (Fin 3)) (s : State) : State :=
  match word with
  | some w => if arr < 4 ∧ (!grovePresent s.variant arr || isFenced s (uGrove arr)) then s else grvFail arr i w.val 1 s
  | none => s

/-! ## The write (R203, R209) -/

/-- Carry out a write whose rules hold: none when there is no room. The moves copy every word of value and mask of an entry and its
side record; `bad` lists the words, by the slots that are left, that fail their parity there (R210, R211). -/
def grvCarry (c : Nat) (x : GrvWr) (bad : List (Fin 5 × Nat × Fin 3)) (s : State) : Option State :=
  if x.op = 2 then some (releaseBlocks (grvDelete c x.table x.ondie x.id s))
  else
    let w := grvWidth (stageBody s c) x.table x.ondie
    match grvPlanOf s c x with
    | none => none
    | some p =>
      let copies (b : Fin 5 × Nat × Fin 3) (m : (Nat × Nat) × (Nat × Nat)) : Bool :=
        (m.1.1 == b.1.val || (w == 3 && m.1.1 + 1 == b.1.val)) && decide (m.1.2 ≤ b.2.1) &&
          decide (b.2.1 < m.1.2 + widthSectors w) && (b.2.2 != 2 || (m.1.1 == b.1.val && m.1.2 == b.2.1))
      let hit := bad.filter (fun b => p.moves.any (copies b))
      let e : GrvEnt := { arr := p.at_.1, index := p.at_.2, cid := c, table := x.table, width := w, prio := x.prio,
                          birth := stageNum s c, death := noDeath, id := x.id, res := x.res, value := x.value, mask := x.mask }
      let t := { p.st with grv := { p.st.grv with ents := p.st.grv.ents ++ [e] } }
      let moved (b : Fin 5 × Nat × Fin 3) : Nat × Nat :=
        ((p.moves.find? (copies b)).map (fun m => (m.2.1 + (b.1.val - m.1.1), m.2.2 + (b.2.1 - m.1.2)))).getD (b.1.val, b.2.1)
      some (releaseBlocks (foldS hit (fun b => grvFail (moved b).1 (moved b).2 b.2.2.val 2) (countMoves w p t)))

/-- GRV_WRITE: its checks; the effect is made by `runGrvWrite`. -/
def opGrvWrite : LOp :=
  { op := .grvWrite,
    present := fun s q => s.variant ≠ .e || bit (rec64 q.payload) 36,
    units := fun s q =>
      let x := grvWrOf s q
      if x.op = 2 ∨ (stageOf s q.c).isNone ∨ grvRules s q ≠ .ok then [] else ((grvPlanOf s q.c x).map (planDies (grvWidth (stageBody s q.c) x.table x.ondie))).getD [],
    args := fun s q =>
      if q.payload.length < 32 then .range
      else if (stageOf s q.c).isSome then grvRules s q
      else .ok,
    pre := fun s q =>
      if (stageOf s q.c).isNone then .range
      else
        let x := grvWrOf s q
        if x.op = 2 ∨ (grvPlanOf s q.c x).isSome then .ok else .noSpace,
    now := fun s q =>
      match grvCarry q.c (grvWrOf s q) [] s with
      | some t => { st := digestRec .grvWrite q q.payload t, ring := s.ring }
      | none => refuse .noSpace s }

/-- The engine carries out a write that waited (R209): placed and answered, or refused where the room or the die is gone
by now (R407). -/
def grvFinish (bad : List (Fin 5 × Nat × Fin 3)) (j : GrvJob) (s : State) : State :=
  let q := j.req
  let x := grvWrOf s q
  let a : Ans :=
    if (stageOf s q.c).isNone then refuse .range s
    else
      match epochMoved (((grvPlanOf s q.c x).map (planDies (grvWidth (stageBody s q.c) x.table x.ondie))).getD []) j.v s with
      | some w => { st := s, status := .fenced, aux := w }
      | none =>
        match grvCarry q.c x bad s with
        | some t => { st := digestRec .grvWrite q q.payload t, ring := s.ring }
        | none => refuse .noSpace s
  answerLater .grvWrite q j.v j.sec s a

/-- The first write that waits for the engines is carried out. -/
def groveMove (bad : List (Fin 5 × Nat × Fin 3)) (s : State) : State :=
  match s.grv.jobs with
  | [] => s
  | j :: r => grvFinish bad j { s with grv := { s.grv with jobs := r } }

/-- The writes of a compartment that still wait are carried out before its next grove or commit command. -/
def finishJobs (c : Nat) (s : State) : State :=
  let js := s.grv.jobs.filter (fun j => j.req.c == c)
  foldS js (grvFinish []) { s with grv := { s.grv with jobs := s.grv.jobs.filter (fun j => j.req.c != c) } }

/-- GRV_WRITE: a delete is made at once; an add or a replace that passes its checks waits for the engine (R209). -/
def runGrvWrite (q : Req) (s : State) : State :=
  let s := if served s q then finishJobs q.c s else s
  let v := vOf s q .grvWrite
  if served s q && admission opGrvWrite v s q == .ok && (epochMoved (opGrvWrite.units s q) v s).isNone && (grvWrOf s q).op != 2 then
    let (sec, s) := takeSec q s
    { s with grv := { s.grv with jobs := s.grv.jobs ++ [{ req := q, v := v, sec := sec }] } }
  else runOp opGrvWrite q s

/-! ## Tables, masks, pairs and reads -/

/-- The instance that `ARG1` names: [3:0], and [4] for the on-die set. -/
def argInst (q : Req) : Nat × Bool := (q.a1 3 0, q.a1 4 4 == 1)

/-- GRV_TBL_WRITE (R200). -/
def opGrvTblWrite : LOp :=
  { stageOp .grvTblWrite (fun _ => .ok)
      (fun q _ r =>
        let x := rec64 r
        if (argInst q).2 then (if 2 ≤ fld x 2 1 then .range else .ok) else .ok)
      (fun q _ r s =>
        let (t, od) := argInst q
        let x := BitVec.ofNat 64 ((rec64 r).toNat % 128)
        let b := stageBody s q.c
        let m := fld x 6 3
        let lists := (List.range 8).map (fun i => tget 0 b.lists (k1 i))
        let named := lists.any (fun d => fld d 2 0 == (if od then 4 else 3) && fld d 18 15 == t)
        if !od && fld x 2 1 == 3 && !((m == 3 && grvPaired s 0) || (m == 12 && grvPaired s 2)) then (.range, s)
        else if !bit x 0 && s.grv.ents.any (grvIn q.c t od) then (.range, s)
        else if fld x 2 1 ≠ grvWidth b t od ∧ (s.grv.ents.any (grvIn q.c t od) ∨ named = true) then (.range, s)
        else putBody (fun b => { b with grvTbl := tput 0x78 b.grvTbl (grvKey t od) x }) q.c s) with
    present := fun s q =>
      (argInst q).2 || (List.range 4).any (fun d => grovePresent s.variant d && (fld (rec64 q.payload) 6 3).testBit d) }

/-- The all-ones value of a width. -/
def allOnes (w : Nat) : BitVec 1280 := leftAlign w (2 ^ w - 1)

/-- GRV_GMASK_WRITE (R202). -/
def opGrvGmaskWrite : LOp :=
  { stageOp .grvGmaskWrite (fun _ => .ok) (fun _ _ _ => .ok)
      (fun q _ r s =>
        let (t, od) := argInst q
        let w := widthBits (grvWidth (stageBody s q.c) t od)
        if r.length ≠ w / 8 then (.range, s)
        else
          let x := leftAlign w (leNat r)
          let m : Option (BitVec 1280) := if x = allOnes w then none else some x
          let s' := setBody q.c { stageBody s q.c with gmask := tput none (stageBody s q.c).gmask (grvKey t od) m } s
          if masksFit s' then (.ok, settleMasks s') else (.noSpace, s)) with
    present := fun s q => (argInst q).2 || s.variant ≠ .e }

/-- GRV_PAIR_WRITE (R199). -/
def opGrvPairWrite : LOp :=
  { op := .grvPairWrite,
    present := fun s q =>
      let x := leAt q.payload 0 1
      s.variant ≠ .e && !(x.testBit 1 && !grovePresent s.variant 2),
    pre := fun s q =>
      let x := leAt q.payload 0 1
      let moved (i : Nat) : Bool := x.testBit i != bit s.grv.pair i
      if s.md.mode ≠ .staged ∨ [0, 1].any (fun i => moved i && s.grv.ents.any (fun e => decide (e.arr < 4) && e.arr / 2 == i)) = true
      then .busy else .ok }

/-- GRV_PAIR_WRITE lands. -/
def landGrvPair (i : Item) (s : State) : Ans :=
  { st := { s with grv := { s.grv with pair := BitVec.ofNat 8 (leAt i.req.payload 0 1 % 4) } }, ring := s.ring }

/-- The versions of an identifier that are in use, oldest first. -/
def versionsOf (s : State) (q : Req) : List GrvEnt :=
  let (t, od) := argInst q
  sortBy (fun a b => decide (a.birth < b.birth)) (s.grv.ents.filter (fun e => grvIn q.c t od e && e.id == q.t))

/-- The side record of an entry (R204). -/
def sideOf (s : State) (e : GrvEnt) : List Byte :=
  let supp := e.supp.any (fun r => decide (r ≤ s.ran))
  packLE [(2, 1 + e.cid * 2 + e.table * 64 + e.width * 1024 + b2n supp * 4096), (2, e.prio), (4, e.birth), (4, e.death),
    (4, e.id), (8, e.res.toNat), (8, 0)]

/-- GRV_READ (R204). -/
def opGrvRead : LOp :=
  { op := .grvRead, snap := true,
    present := fun s q => (argInst q).2 || s.variant ≠ .e,
    units := fun s q => ((versionsOf s q).flatMap (fun e => (entDies e.arr e.width).map uGrove)).eraseDups,
    args := fun _ q => if q.t < 2 ^ 32 then .ok else .range,
    pre := fun s q => if (versionsOf (atSnap s) q).isEmpty then .range else .ok,
    now := fun s q =>
      let es := versionsOf s q
      { st := s, ring := s.ring, count := es.length,
        data := es.flatMap (fun e =>
          let w := widthBits e.width
          sideOf s e ++ leBytes (w / 8) (e.value.toNat / 2 ^ (1280 - w)) ++ leBytes (w / 8) (e.mask.toNat / 2 ^ (1280 - w))) } }

/-! ## Versions end (R205, R206) -/

/-- Free the entries whose `DEATH` the oldest live cut has reached. -/
def grvSweep (c : Nat) (s : State) : State :=
  match (liveCuts s c).map Cut.number with
  | [] => settleMasks s
  | n :: r =>
    let oldest := r.foldl min n
    releaseBlocks { s with grv := { s.grv with ents := s.grv.ents.filter (fun e => !(e.cid == c && decide (e.death ≤ oldest))) } }

/-- STAGE_ABORT: what the staging area added is freed, and its deletions are undone. -/
def grvAbort (c n : Nat) (s : State) : State :=
  let left := s.grv.ents.filter (fun e => !(e.cid == c && e.birth == n))
  let back := left.map (fun e => if e.cid = c ∧ e.death = n then { e with death := noDeath } else e)
  releaseBlocks { s with grv := { s.grv with ents := back } }

/-- The entries and blocks of a compartment are cleared (R206). -/
def grvClear (c : Nat) (s : State) : State :=
  settleMasks { s with grv := { s.grv with ents := s.grv.ents.filter (fun e => e.cid != c),
                                           blocks := s.grv.blocks.filter (fun b => b.cid != c),
                                           jobs := s.grv.jobs.filter (fun j => j.req.c != c) } }

/-! ## The search (R207, R208, R213) -/

/-- An entry is seen by a frame of cut `n`, and its bits match the key under both masks. -/
def grvMatches (s : State) (c n t : Nat) (od : Bool) (gm key : BitVec 1280) (e : GrvEnt) : Bool :=
  grvIn c t od e && !(entDies e.arr e.width).any (fun d => isFenced s (uGrove d)) && !(e.supp.any (fun r => decide (r ≤ s.ran))) &&
    decide (e.birth ≤ n) && decide (n < e.death) && ((e.value ^^^ key) &&& e.mask &&& gm) == 0

/-- Lowest priority wins, then the lowest position (R207). -/
def grvBetter (a b : GrvEnt) : Bool :=
  decide (a.prio < b.prio) ||
    (a.prio == b.prio && (decide (a.arr < b.arr) || (a.arr == b.arr && decide (a.index < b.index))))

/-- The best of a list of matches. -/
def grvBest (l : List GrvEnt) : Option GrvEnt :=
  l.foldl (fun x e => match x with | some y => if grvBetter e y then some e else x | none => some e) none

/-- A search by a frame of compartment `c` stamped with cut `n`; `found` lists the side records that fail now. -/
def grvSearch (c n : Nat) (b : CutBody) (t : Nat) (od : Bool) (key : BitVec 1280) (found : List (Nat × Nat)) (s : State) :
    Option GrvEnt × State :=
  let gm := (tget none b.gmask (grvKey t od)).getD (allOnes 1280)
  let ms := if grvEnabled b t od then s.grv.ents.filter (grvMatches s c n t od gm key) else []
  let bad := ms.filter (fun e => found.contains (e.arr, e.index))
  let fenced := (instBlocks s c t od).any (fun k => (entDies k.arr k.width).any (fun d => isFenced s (uGrove d)))
  let s := foldS bad (fun e => grvFail e.arr e.index 2 0) s
  let s := if fenced then cnt .grvFencedSearch c 0 1 s else s
  let s := if od then s else foldS (List.range 4) (fun d s =>
    if grovePresent s.variant d && !isFenced s (uGrove d) then progEvt (uGrove d) 0x50 255 0 1 s else s) s
  (grvBest (ms.filter (fun e => !found.contains (e.arr, e.index))), s)

/-! ## Meanings -/

/-- GRV_PAIR_WRITE (R199). -/
def execGrvPairWrite (q : Req) (s : State) : Out := .next (runOp opGrvPairWrite q s)
/-- GRV_TBL_WRITE (R200). -/
def execGrvTblWrite (q : Req) (s : State) : Out :=
  .next (runOp opGrvTblWrite q (if served s q then finishJobs q.c s else s))
/-- GRV_WRITE (R203, R209). -/
def execGrvWrite (q : Req) (s : State) : Out := .next (runGrvWrite q s)
/-- GRV_GMASK_WRITE (R202). -/
def execGrvGmaskWrite (q : Req) (s : State) : Out :=
  .next (runOp opGrvGmaskWrite q (if served s q then finishJobs q.c s else s))
/-- GRV_READ (R204). -/
def execGrvRead (q : Req) (s : State) : Out := .next (runOp opGrvRead q (if served s q then finishJobs q.c s else s))
/-- GROVE_MOVE (R209). -/
def execGroveMove (bad : List (Fin 5 × Nat × Fin 3)) (s : State) : Out := .next (unlessHalted s (groveMove bad s))
/-- GROVE_SCRUB (R211). -/
def execGroveScrub (arr : Fin 5) (index : Nat) (word : Option (Fin 3)) (s : State) : Out :=
  .next (unlessHalted s (groveScrub arr.val index word s))

end Sys2Proof.Machine
end

