-- ==== Sys2Proof/Machine/Cuts.lean ====
section
/-!
DEFINITION. Versioned cuts (R128 to R154, R426, R475): staging areas, the staging of lists, actions, action data, port
sets and headers, commit with its checks, landing and retirement.
-/
namespace Sys2Proof.Machine

/-! ## Records -/

/-- `CUT.LIST` of a body, and its fields (R131). -/
def listOf (b : CutBody) (i : Nat) : BitVec 256 := tget 0 b.lists (k1 i)
def lsKind (d : BitVec 256) : Nat := fld d 2 0
def lsWidth (d : BitVec 256) : Nat := fld d 4 3
def lsGuard (d : BitVec 256) : Nat := fld d 12 5
def lsMissMode (d : BitVec 256) : Nat := fld d 14 13
def lsTable (d : BitVec 256) : Nat := fld d 18 15
def lsMissRes (d : BitVec 256) : BitVec 64 := BitVec.ofNat 64 (fld d 255 192)

/-- A key segment (R132): source, first byte, bytes. -/
structure Seg where
  src : Nat
  off : Nat
  cnt : Nat

/-- The eight segments that begin at bit `lo` of a record; unused ones are left out. -/
def segsAt (d : BitVec 256) (lo : Nat) : List Seg :=
  ((List.range 8).map (fun i =>
    let b := lo + 16 * i
    ({ src := fld d (b + 1) b, off := fld d (b + 7) (b + 2), cnt := fld d (b + 11) (b + 8) + 1 } : Seg))).filter (fun g => g.src != 0)

/-- Bytes that segments give together. -/
def segBytes (l : List Seg) : Nat := (l.map Seg.cnt).foldl (· + ·) 0

/-- Fields of a result record (R135). -/
def resAction (r : BitVec 64) : Nat := fld r 15 0
def resActionEn (r : BitVec 64) : Bool := bit r 16

/-- Fields of an action (R138). -/
def actClass (a : BitVec 128) : Nat := fld a 39 37
def actClassEn (a : BitVec 128) : Bool := bit a 40
def actLearn (a : BitVec 128) : Bool := bit a 41
def actTally (a : BitVec 128) : Bool := bit a 42
def actNoHairpin (a : BitVec 128) : Bool := bit a 43
def actCounter (a : BitVec 128) : Nat := fld a 63 48
def actDest (a : BitVec 128) : Nat := fld a 65 64
def actPort (a : BitVec 128) : Nat := fld a 71 66
def actPset (a : BitVec 128) : Nat := fld a 83 72

/-- The action entry of a body at an index: none where no ACTION_WRITE has written it (R138). -/
def actOf (b : CutBody) (i : Nat) : Option (BitVec 128) := (tget none b.acts (k1 i)).map Prod.snd

/-! ## Staging areas (R145) -/

/-- STAGE_OPEN (R145, R205, R475). -/
def opStageOpen : LOp :=
  { op := .stageOpen,
    pre := fun s q => if (stageOf s q.c).isSome then .busy else .ok,
    now := fun s q =>
      let base := newestCut s q.c
      let n := ((base.map Cut.number).getD 0) + 1
      let d := Config.sha384 ([0x43, 0x55, 0x54, 0x30] ++ packLE [(1, q.c), (4, n), (4, (base.map Cut.number).getD 0)])
      let a : Staging := { num := n, based := base.isSome, digest := d, body := (base.map Cut.body).getD {} }
      { st := setStage q.c (some a) s, ring := s.ring, value := n } }

/-- The staging area of a compartment is given up, and what only it held is freed (R145, R162, R163, R190, R205). -/
def dropStage (c : Nat) (s : State) : State :=
  match stageOf s c with
  | none => s
  | some a =>
    let s := setStage c none s
    let s := { s with em := { s.em with vers := s.em.vers.filter (fun v => !(v.cid == c && v.num == a.num)) } }
    trieAbort c a.num (grvAbort c a.num (emSweep s))

/-- STAGE_ABORT. -/
def opStageAbort : LOp :=
  { op := .stageAbort,
    pre := fun s q => if (stageOf s q.c).isSome then .ok else .range,
    now := fun s q => { st := dropStage q.c s, ring := s.ring } }

/-! ## Staging writes (R131, R138, R144, R426) -/

/-- Bytes of a segment source (R132). -/
def srcBytes : Nat → Nat
  | 1 => 64 | 2 => 8 | 3 => 2 | _ => 0

/-- A staged list keeps R133 and R201: every list the rules of its segments, a used one those of its kind. -/
def listOk (s : State) (b : CutBody) (d : BitVec 256) : Bool :=
  let gs := segsAt d 64
  let n := segBytes gs
  let t := lsTable d
  gs.all (fun g => decide (g.off + g.cnt ≤ srcBytes g.src)) && decide (n ≤ 20 * 2 ^ lsWidth d) &&
      (match lsKind d with
       | 0 => true
       | 1 => lsWidth d == 0
       | 2 => n == if trieV6 b t then 16 else 4
       | 3 => lsWidth d == grvWidth b t false && (lsWidth d != 3 || (grvPaired s 0 && grvMask b t false == 3) ||
                (grvPaired s 2 && grvMask b t false == 12))
       | _ => decide (lsWidth d ≤ 1) && lsWidth d == grvWidth b t true)

/-- An EXACT list's segments fit its table as the cut has it, which the commit judges (R161). -/
def exactFits (b : CutBody) (d : BitVec 256) : Bool :=
  lsKind d != 1 || emWide b (lsTable d) || decide (segBytes (segsAt d 64) ≤ 8)

/-- The lists of a body. -/
def allLists (b : CutBody) : List (BitVec 256) := (List.range 8).map (listOf b)

/-- A body holds at most two lists of each grove kind (R201). -/
def kindsOk (b : CutBody) : Bool :=
  [3, 4].all (fun k => decide (((allLists b).filter (fun d => lsKind d == k)).length ≤ 2))

/-- The bits of `CUT.LIST` that are not reserved, those of its segments and its result record among them (R19, R131, R132, R135). -/
def listMask : Nat := 0x7FFFF + segMask * 2 ^ 64 + 0xFFFFFFFF3FFFFFFF * 2 ^ 192

/-- LIST_WRITE (R131): the list must keep R133 and R201 with the tables as they are staged at the time of the write. -/
def opListWrite : LOp :=
  { stageOp .listWrite (fun q => if q.arg1.toNat < 8 then .ok else .range)
      (fun _ _ r => if lsKind (BitVec.ofNat 256 (leNat r)) < 5 then .ok else .range)
      (fun q _ r s =>
        let d := BitVec.ofNat 256 (leNat r &&& listMask)
        let b := stageBody s q.c
        if lsKind d = 3 ∧ (List.range 4).all (fun g =>
            !(grovePresent s.variant g && (grvMask b (lsTable d) false).testBit g)) then (.absent, s)
        else if !listOk s b d || !kindsOk { b with lists := tput 0 b.lists (k1 q.arg1.toNat) d } then (.range, s)
        else putBody (fun b => { b with lists := tput 0 b.lists (k1 q.arg1.toNat) d }) q.c s) with
    present := fun s q => s.variant ≠ .e || lsKind (BitVec.ofNat 256 (leNat q.payload)) ≠ 3 }

/-- The rules of an `ACT` record (R138, R523). -/
def actForm (a : BitVec 128) : Bool :=
  (actEntry a == 0 || decide (0x40 ≤ actEntry a)) && decide (actDataPtr a ≤ 98303) && decide (actDataWords a ≤ 8) &&
    decide (actCounter a < 2048) && actDest a != 3

/-- ACTION_WRITE. -/
def opActionWrite : LOp :=
  stageOp .actionWrite (fun q => if q.arg1.toNat = 0 ∨ 65535 < q.arg1.toNat then .range else .ok)
    (fun q n r => if q.arg1.toNat + n ≤ 65535 ∧ actForm (BitVec.ofNat 128 (leNat r)) then .ok else .range)
    (fun q n r s =>
      let i := q.arg1.toNat + n
      putStored (fun b => b.acts) (fun t b => { b with acts := t, actCount := max b.actCount i }) (cmpOf s q.c).actQuota 131072
        q.c i (BitVec.ofNat 128 (leNat r)) s)

/-- ACTDATA_WRITE. -/
def opActdataWrite : LOp :=
  stageOp .actdataWrite (fun q => if 98303 < q.arg1.toNat then .range else .ok)
    (fun q n _ => if q.arg1.toNat + n ≤ 98303 then .ok else .range)
    (fun q n r s => putStored (fun b => b.data) (fun t b => { b with data := t }) (cmpOf s q.c).dataQuota 98304 q.c
      (q.arg1.toNat + n) (BitVec.ofNat 128 (leNat r)) s)

/-- PSET_WRITE. -/
def opPsetWrite : LOp :=
  stageOp .psetWrite (fun q => if 4095 < q.arg1.toNat then .range else .ok)
    (fun q n r => if 4095 < q.arg1.toNat + n then .range else if leNat r = 0 then .zeroLen else .ok)
    (fun q n r s => putStored (fun b => b.psets) (fun t b => { b with psets := t }) (cmpOf s q.c).psetQuota 4096 q.c
      (q.arg1.toNat + n) (BitVec.ofNat 64 (leNat r)) s)

/-- CUT_HDR_WRITE. -/
def opCutHdrWrite : LOp :=
  stageOp .cutHdrWrite (fun _ => .ok) (fun _ _ _ => .ok)
    (fun q _ r s => putBody (fun b => { b with malAction := leAt r 0 2, defAction := leAt r 2 2, budget := leAt r 4 1 % 2 == 1 }) q.c s)

/-- PARSE_WRITE (R110). -/
def opParseWrite : LOp :=
  stageOp .parseWrite (fun _ => .ok) (fun _ _ _ => .ok)
    (fun q _ r s => putBody (fun b => { b with parCmp := BitVec.ofNat 32 (leNat r % 512) }) q.c s)

/-! ## The checks of a commit (R147, step 7) -/

/-- The start-node rule of R110. -/
def startOk (s : State) (node T : Nat) : Bool :=
  let loads := s.items.filter (fun i => i.op == .baseBundleLoad)
  let ok (g : Graph) : Bool := ndValid (nodeOf g node)
  loads.all (fun i => ok (graphOf (secOf i.req.payload 1))) && (loads.any (fun i => decide (i.due ≤ T)) || ok s.par.graph)

/-- Every result record of a staged cut (R140). -/
def allResults (s : State) (c : Nat) (b : CutBody) : List (BitVec 64) :=
  (allLists b).map lsMissRes ++ [BitVec.ofNat 64 (fld b.emLearn 207 144)] ++ b.emStatic.map EmStatic.res ++ b.pfx.map Pfx.res ++
    (s.grv.ents.filter (fun e => e.cid == c && e.death == noDeath)).map GrvEnt.res

/-- The malformed action has a destination of its own, or discards (R141). -/
def malOk (b : CutBody) : Bool :=
  match actOf b b.malAction with
  | some a => b.malAction == 0 || actDest a == 1 || actDest a == 2
  | none => true

/-- The learn template fits its table (R165). -/
def learnOk (b : CutBody) : Bool :=
  !bit b.emLearn 0 || decide (segBytes (segsAt b.emLearn 16) ≤ if emWide b (fld b.emLearn 4 1) then 20 else 8)

/-- Step 7 of R147. -/
def commitOk (s : State) (c : Nat) (b : CutBody) (T : Nat) : Bool :=
  startOk s (fld b.parCmp 7 0) T && (allLists b).all (fun d => listOk s b d && exactFits b d) &&
    kindsOk b &&
    (allResults s c b).all (fun r => !resActionEn r || decide (resAction r ≤ b.actCount)) &&
    decide (b.malAction ≤ b.actCount) && decide (b.defAction ≤ b.actCount) && malOk b && learnOk b &&
    (bodyEntries b).all (entryAllowed s (commonImg s) (imgOfCmp s c) c)

/-- Handles that no cut holds; a discarded cut without frames holds none (R150). -/
def freeHandles (s : State) : List Nat :=
  (List.range 64).filter (fun h => s.cut.cuts.all (fun x => x.handle != h || (x.discarded && x.live == 0)))

/-- The 68-byte message of a signed cut (R475): staging number, target ring and staged-image digest. -/
def cutMsg (c : Nat) (a : Staging) (t : Nat) : List Byte :=
  ascii "CUTS" ++ leBytes 1 c ++ zeros 3 ++ leBytes 4 a.num ++ leBytes 8 t ++ padTo 48 a.digest

/-- Step 6 of R147 (R475): the signature verifies over the message of the staged cut, under the cut-signing key in force, or under an
owner key where there is none. -/
def commitSig (s : State) (q : Req) (a : Staging) (signed : Bool) : Bool :=
  let key := tget [] s.trust.cutKey (k1 q.c)
  if signed then signedBy q (if key.isEmpty then s.trust.ownerKeys else [key]) (cutMsg q.c a q.t) else key.isEmpty

/-- The checks of R147 in their order. -/
def commitCheck (op : Op) (signed : Bool) (s : State) (q : Req) : Status :=
  orElseSt (argForm op q) <|
  orElseSt (paySize (opPay op) q.payload.length) <|
  match stageOf s q.c with
  | none => .range
  | some a =>
    orElseSt (if (liveCuts s q.c).any (fun x => x.state == 0) then .busy else .ok) <|
    orElseSt (tCheck (vOf s q op) q.t) <|
    firstBad [
      (commitSig s q a signed, .badSig), (commitOk s q.c a.body q.t, .range),
      (decide ((liveCuts s q.c).length < 4), .cutLimit), (!(freeHandles s).isEmpty, .noSpace)]

/-- Cuts that were discarded are freed when no frame holds them (R150). -/
def reapCuts (s : State) : State :=
  if s.cut.cuts.any (fun x => x.discarded && x.live == 0) then
    trieSweep (emSweep { s with cut := { s.cut with cuts := s.cut.cuts.filter (fun x => !(x.discarded && x.live == 0)) } })
  else s

/-- A commit is accepted (R147): the cut is PENDING, and the staging area is closed. Which free handle the Ranger assigns
is not the manual's to say: a free value. -/
def commitNow (signed : Bool) (s : State) (q : Req) : Ans :=
  match stageOf s q.c with
  | none => refuse .range s
  | some a =>
    let s := reapCuts s
    let hs := freeHandles s
    let (n, s) := freshFree s
    let h := hs.getD (n % hs.length) 0
    let x : Cut := { handle := h, cid := q.c, number := a.num, state := 0, signed := signed,
                     rotation := (cmpOf s q.c).rotation, target := q.t, digest := a.digest, body := a.body }
    let s := setStage q.c none { s with cut := { s.cut with cuts := s.cut.cuts ++ [x] } }
    { st := s, value := a.num % 2 ^ 32 + h * 2 ^ 32 }

/-- CUT_COMMIT and CUT_COMMIT_SIGNED. -/
def opCutCommit : LOp :=
  { op := .cutCommit, ownOrder := true, pre := commitCheck .cutCommit false, now := commitNow false }
def opCutCommitSigned : LOp :=
  { op := .cutCommitSigned, ownOrder := true, pre := commitCheck .cutCommitSigned true, now := commitNow true }

/-! ## Landing, retirement and discard (R148, R150, R152) -/

/-- The pending cut of a compartment becomes CURRENT (R148). -/
def landCut (i : Item) (s : State) : Ans :=
  let h := i.num / 2 ^ 32
  match s.cut.cuts.find? (fun x => x.cid == i.req.c && x.handle == h && x.state == 0 && !x.discarded) with
  | none => { st := s }
  | some y =>
    let s := { s with cut := { s.cut with cuts := s.cut.cuts.map (fun x =>
      if x.handle = h then { x with state := 1 }
      else if x.cid = y.cid ∧ x.state = 1 ∧ x.discarded = false then { x with state := 2, supRing := y.target } else x) } }
    { st := post y.cid 0x0501 (packLE [(8, y.target), (4, y.number)]) s }

/-- The cuts that no frame held at the last clock of the ring that ends (R152). -/
def noteIdle (s : State) : State :=
  { s with cut := { s.cut with idle := (s.cut.cuts.filter (fun x => x.live == 0)).map Cut.handle } }

/-- A cut may be retired at the present boundary (R152). -/
def retirable (s : State) (x : Cut) : Bool :=
  !x.discarded && x.state == 2 && s.cut.idle.contains x.handle && decide (x.supRing + 1 ≤ s.ring)

/-- Retire one cut (R152): its handle and what only it held are freed, and CUT_RETIRED is posted. -/
def retireCut (x : Cut) (s : State) : State :=
  let s := { s with cut := { s.cut with cuts := s.cut.cuts.filter (fun y => y.handle != x.handle) } }
  post x.cid 0x0502 (packLE [(8, s.ring), (4, x.number)]) (grvSweep x.cid (trieSweep (emSweep s)))

/-- CUT_RETIRE of one handle. -/
def cutRetire (c h : Nat) (s : State) : State :=
  match s.cut.cuts.find? (fun x => x.cid == c && x.handle == h) with
  | some x => if retirable s x then retireCut x s else s
  | none => s

/-- All retirements of a boundary. -/
def retireCuts (s : State) : State := foldS (s.cut.cuts.filter (retirable s)) retireCut s

/-- A rotation change discards the compartment's cuts and its staging area (R150, R206). -/
def discardCuts (c : Nat) (s : State) : State :=
  let s := dropStage c s
  let s := { s with cut := { s.cut with cuts := s.cut.cuts.map (fun x => if x.cid = c then { x with discarded := true } else x) },
                    em := { s.em with vers := s.em.vers.filter (fun v => v.cid != c) },
                    grv := { s.grv with trieBad := s.grv.trieBad.filter (fun x => x.cid != c) } }
  reapCuts (grvClear c (emSweep s))

/-- Records that the Ranger rewrites from its images take effect at the next boundary (R125, R148, R241, R244). -/
def rangerRepair (s : State) : State :=
  { s with par := { s.par with repairs := s.par.repairs.filter (fun r => decide (s.ran ≤ r.ring)) } }

/-! ## CUT_READ (R144, R426) -/

/-- `CUT.HDR` of a cut; `all` is false for CID 0 and another compartment's cut. -/
def cutHdr (all : Bool) (x : Cut) : List Byte :=
  let m (n : Nat) : Nat := if all then n else 0
  packLE [(4, x.number), (2, m x.cid % 32 + m x.handle * 32 + x.state * 2048 + m (b2n x.signed) * 8192), (2, m x.rotation.toNat),
    (8, x.target), (2, m x.body.malAction), (2, m x.body.defAction), (2, m (b2n x.body.budget)), (2, m x.body.actCount),
    (4, x.live), (4, 0)]

/-- CUT_READ. -/
def opCutRead : LOp :=
  { op := .cutRead, snap := true,
    args := fun s q => if 32 ≤ q.arg1.toNat ∨ cmpDefined s q.who = false then .range else .ok,
    now := fun s q =>
      let xs := sortBy (fun a b => decide (b.number < a.number)) (liveCuts s q.who)
      { st := s, ring := s.ring, count := xs.length, data := xs.flatMap (cutHdr (q.who == q.c)) } }

/-! ## Meanings -/

/-- STAGE_OPEN (R145). -/
def execStageOpen (q : Req) (s : State) : Out := .next (runOp opStageOpen q s)
/-- STAGE_ABORT (R145). -/
def execStageAbort (q : Req) (s : State) : Out := .next (runOp opStageAbort q (if served s q then finishJobs q.c s else s))
/-- CUT_COMMIT (R147). -/
def execCutCommit (q : Req) (s : State) : Out := .next (runOp opCutCommit q (if served s q then finishJobs q.c s else s))
/-- CUT_COMMIT_SIGNED (R147, R475). -/
def execCutCommitSigned (q : Req) (s : State) : Out :=
  .next (runOp opCutCommitSigned q (if served s q then finishJobs q.c s else s))
/-- LIST_WRITE (R131). -/
def execListWrite (q : Req) (s : State) : Out := .next (runOp opListWrite q s)
/-- ACTION_WRITE (R138). -/
def execActionWrite (q : Req) (s : State) : Out := .next (runOp opActionWrite q s)
/-- ACTDATA_WRITE (R426). -/
def execActdataWrite (q : Req) (s : State) : Out := .next (runOp opActdataWrite q s)
/-- PSET_WRITE (R138). -/
def execPsetWrite (q : Req) (s : State) : Out := .next (runOp opPsetWrite q s)
/-- CUT_HDR_WRITE (R144). -/
def execCutHdrWrite (q : Req) (s : State) : Out := .next (runOp opCutHdrWrite q s)
/-- PARSE_WRITE (R110). -/
def execParseWrite (q : Req) (s : State) : Out := .next (runOp opParseWrite q s)
/-- CUT_READ (R144, R426). -/
def execCutRead (q : Req) (s : State) : Out := .next (runOp opCutRead q s)
/-- CUT_RETIRE (R152). -/
def execCutRetire (cid : Fin 32) (handle : Fin 64) (s : State) : Out :=
  .next (unlessHalted s (onBoundary (cutRetire cid.val handle.val) s))
/-- RANGER_REPAIR (R125, R148). -/
def execRangerRepair (s : State) : Out := .next (unlessHalted s (rangerRepair s))

end Sys2Proof.Machine
end

