-- ==== Sys2Proof/Machine/Counters.lean ====
section
/-!
DEFINITION. Counter sets and their reading, the programmable counters and the blaze record (R520 to R538).
-/
namespace Sys2Proof.Machine

/-! ## Cycle counters (R525) -/

/-- `CTR.CYCLE` of a unit: the clocks since it started, less those in which it stood still. -/
def cycleOf (s : State) (u : Nat) : Nat :=
  let stop := tget 0 s.ctr.cycStop (k1 u)
  (((if stop = 0 then nowClk s else stop - 1 : Nat) : Int) - s.ctr.cycBase - tget 0 s.ctr.cycOff (k1 u)).toNat % 2 ^ 64

/-- A unit's cycle counter stops (R515, R516). -/
def cycleStop (u : Nat) (s : State) : State :=
  if tget 0 s.ctr.cycStop (k1 u) = 0 then { s with ctr := { s.ctr with cycStop := tput 0 s.ctr.cycStop (k1 u) (nowClk s + 1) } }
  else s

/-- A unit's cycle counter runs again. -/
def cycleRun (u : Nat) (s : State) : State :=
  let stop := tget 0 s.ctr.cycStop (k1 u)
  if stop = 0 then s
  else { s with ctr := { s.ctr with cycStop := tput 0 s.ctr.cycStop (k1 u) 0,
                                    cycOff := tmod 0 s.ctr.cycOff (k1 u) (· + (nowClk s - (stop - 1))) } }

/-! ## The NAMED sets (R521) -/

/-- A counter of one index. -/
def ctrOne (s : State) (c : Ctr) (i : Nat) : List Nat := [ctrGet s c i 0]
/-- The second index of a counter. -/
def ctrRow (s : State) (c : Ctr) (i n : Nat) : List Nat := (List.range n).map (ctrGet s c i)
/-- The first index of a counter. -/
def ctrCol (s : State) (c : Ctr) (n : Nat) : List Nat := (List.range n).map (fun i => ctrGet s c i 0)
/-- Both indexes, the last varying fastest. -/
def ctrGrid (s : State) (c : Ctr) (n m : Nat) : List Nat := (List.range n).flatMap (fun i => ctrRow s c i m)
/-- Several counters of one index, one after another. -/
def ctrOnes (s : State) (l : List Ctr) (i : Nat) : List Nat := l.map (fun c => ctrGet s c i 0)
/-- Several counters, each over its first index. -/
def ctrCols (s : State) (l : List Ctr) (n : Nat) : List Nat := l.flatMap (fun c => ctrCol s c n)

/-- Slots in use of an instance (R214). -/
def grvEntries (s : State) (c t : Nat) (od : Bool) : Nat := (s.grv.ents.filter (grvIn c t od)).length

/-- The deepest path of each instance in the newest live cut (R194). -/
def trieDepths (s : State) (c : Nat) : List Nat :=
  (List.range 16).map (fun t => ((newestCut s c).map (fun x => trieDepth (trieV6 x.body t) (pfxOf x.body t))).getD 0)

/-- Egress cells held of a group (R278). -/
def creditHeld (s : State) (g : Nat) : Nat :=
  ((s.lnd.credit.filter (fun e => e.1.1 == g)).map Prod.snd).foldl (· + ·) 0

/-- Slots and stash entries in use (R177). -/
def emSlots (s : State) (stash : Bool) : Nat := ((s.em.ents.filter (fun e => e.stash == stash)).map emWidth).foldl (· + ·) 0

/-- The compartment's counters of a family (R521), each chapter's table in its order. -/
def namedCmp (s : State) (fam c : Nat) : List Nat :=
  match fam with
  | 0x00 => ctrOnes s [.mbxBadAccess, .mbxTailBad, .mbxEvtLost, .mbxRotDiscard] c
  | 0x04 =>
    ctrOnes s [.parFrames, .parNoCut, .parHznDepth, .parHznBytes] c ++ ctrRow s .parMal c 11 ++
      ctrOnes s [.krfRoutines, .krfBypass, .krfDrop] c ++ ctrRow s .krfTrap c 6 ++ (ctrRow s .krfAbort c 6).drop 1 ++
      ctrOnes s [.krfFetch, .krfPtpBad] c
  | 0x05 =>
    ctrRow s .ruleHit c 8 ++ ctrRow s .ruleMiss c 8 ++
      ctrOnes s [.ruleDefault, .ruleDiscard, .ruleNoPort, .rulePortDenied, .ruleBudgetDiscard, .ruleBudgetUnrewritten] c
  | 0x06 =>
    [learnedOf s c, staticUsed s c] ++
      ctrOnes s [.emLearnOk, .emLearnMove, .emLearnDup, .emLearnStatic, .emLearnStale, .emRefRate, .emRefQuota,
        .emRefModule, .emRefFull, .emAged, .emFlushed] c
  | 0x07 => [trieUnits s c] ++ trieDepths s c ++ ctrOne s .trieParityMiss c
  | 0x08 =>
    [grvBlocks s c false, grvBlocks s c true] ++ (List.range 16).map (fun t => grvEntries s c t false) ++
      (List.range 16).map (fun t => grvEntries s c t true) ++ ctrOne s .grvFencedSearch c
  | 0x09 =>
    ctrOnes s [.lndFencedPort, .lndFrozenDiscard, .lndDescFull, .lndMcHold] c ++ ctrRow s .lndPsetIncomplete c 4096 ++
      ctrOnes s [.lndReseqLost, .lndBadCell, .lndFenceDiscard, .schedGateOversize] c ++ ctrRow s .schedShareHeld c 64
  | 0x0A => ctrOne s .dramThrottled c
  | 0x0B => ctrOnes s [.tallyCaptured, .tallyStageDrop, .tallyDropFull, .tallyStale, .tallyLost, .tallyOverwritten] c
  | 0x0C => ctrOnes s [.blzBlazed, .blzTraceDrop, .blzTraceLost] c
  | 0x0D => ctrOnes s [.cmpStaleFrames, .cmpFreezeDiscard, .cmpDetachDiscard, .cmpEgressForeign] c
  | 0x11 => ctrOne s .pairStandbyDiscard c
  | _ => []

/-- The port counters of family 0x02 (R81, R89, R90, R93, R95, R100 to R103). -/
def namedPorts (s : State) : List Nat :=
  ctrCols s [.rxFrames, .rxBytes, .rxFcs, .rxLen, .rxFecCorr, .rxFecUncorr, .rxUnattached, .rxPfc, .rxPauseIgnored,
      .rxMacCtlOther, .rxPfcGated, .txFrames, .txBytes, .txPfc, .txDownDiscard, .txOversize] 64 ++
    ctrGrid s .radioEcpri 64 8 ++ ctrCols s [.radioEcpriOther, .radioBadRev, .radioRoe, .radioEarly, .radioLate] 64 ++
    ctrCols s [.cageTimeout, .cageRange] 53 ++
    [Ctr.msecNoSc, .msecNoSa, .msecIcv, .msecReplay, .msecBadTag, .msecUntagged].flatMap (fun c => ctrGrid s c 64 4) ++
    ctrCols s [.rxSecyMismatch, .msecTxNoSecy] 64 ++ ctrGrid s .msecTxNoSa 64 4 ++ ctrGrid s .msecPnExhausted 64 4

/-- The module's counters and gauges of the Landing. -/
def namedLanding (s : State) : List Nat :=
  [ctrGet s .lndReseqLostUnknown 0 0, ctrGet s .lndSeqRange 0 0] ++
    ctrCols s [.lndCorr, .lndUncorrHdr, .lndUncorrData, .lndEpochDrop, .lndCells] 2 ++ [descUsed s] ++
    (List.range 16).map (creditHeld s)

/-- `POOL.EMPTY`, the ports that `p` picks (R318). -/
def namedEmpty (s : State) (p : Nat → Bool) : List Nat :=
  (List.range 64).flatMap (fun i => if p i then ctrRow s .poolEmpty i 8 else List.replicate 8 0)

/-- The counters and gauges of the pools, the cell buffer and the spill unit (R318). `POOL.PEAK` is never below the
present occupancy. -/
def namedPools (s : State) : List Nat :=
  let pools := List.range 8
  pools.map (fun p => (poolOf s p).occ) ++ pools.map (fun p => (poolOf s p).state) ++
    pools.map (fun p => max (poolOf s p).peak (poolOf s p).occ) ++
    pools.flatMap (fun p => (List.range 64).flatMap (fun i => (List.range 8).map (fun j => tget 0 s.buf.ownerOcc (k3 p i j)))) ++
    namedEmpty s (fun _ => true) ++ ctrCols s [.poolPtrRange, .poolPtrAlign, .poolPtrState] 8 ++
    pools.map (fun p => (poolOf s p).leaked) ++ ctrOnes s [.cbCorr, .cbUncorr, .cbUncorrTx] 0 ++
    [(s.lnd.voq.filter (fun e => e.2.spilling)).length, (heldPages s).length] ++
    ctrOnes s [.spillCopiesOut, .spillCopiesBack, .spillReadBad, .spillLimitWait] 0 ++ ctrCol s .spillStageWait 16

/-- The counters of the scheduler's ports (R339). -/
def namedSched (s : State) : List Nat :=
  ctrGrid s .schedPauseRings 64 8 ++ (List.range 64).map (guardSeen s) ++ ctrGrid s .schedShaped 64 8

/-- A signed reading as a 64-bit word. -/
def intWord (x : Int) : Nat := (BitVec.ofInt 64 x).toNat

/-- The gauges of family 0x10 (R567). -/
def namedPower (s : State) : List Nat :=
  let rd (k i : Nat) : Nat := intWord ((tget none s.pwr.reading (k2 k i)).getD 0)
  ctrOnes s [.pwrDips, .pwrFails, .pwrThermalOff] 0 ++ [rd 0 0, s.pwr.pin] ++ (List.range 64).map (rd 3)

/-- The module's, pipelines', ports' and units' counters of a family (R521). -/
def namedModule (s : State) (fam : Nat) : List Nat :=
  match fam with
  | 0x02 => namedPorts s
  | 0x03 => ctrCol s .timRej 9
  | 0x04 =>
    ctrCol s .parParity 8 ++ ctrCols s [.krfFenceDiscard, .krfStoreParity] 8 ++ ctrOne s .krfActParity 0 ++
      ctrCols s [.krfPeakUsed, .krfPeakBusy] 8
  | 0x05 => ctrOne s .ruleParity 0
  | 0x06 => [emSlots s false, emSlots s true, s.em.vers.length, ctrGet s .emParity 0 0]
  | 0x07 => [rootsUsed s, nodesUsed s, refsUsed s, poolUsed s, ctrGet s .trieParity 0 0]
  | 0x08 => [ctrGet s .grvMoves 0 0, ((List.range 5).map (masksOn s)).foldl (· + ·) 0, ctrGet s .grvParity 0 0]
  | 0x09 => namedLanding s ++ namedPools s ++ namedSched s
  | 0x0A =>
    ctrCols s [.dramCorr, .dramUncorr, .dramTagMismatch, .dramHammer] 16 ++ ctrOne s .dramThrottledMod 0 ++
      ctrCol s .dramSweepTokens 6 ++ ctrOne s .dramFencePages 0 ++ ctrGrid s .dramSrEntries 16 2
  | 0x0E => ctrOnes s [.secAuthFail, .secReqDenied] 0
  | 0x0F =>
    ctrOne s .lkoRecordsLost 0 ++ ctrCols s [.lkoFences, .lkoSweepTokens] 256 ++ ctrCol s .lkoIngressDiscard 8 ++
      ctrCol s .lkoResetFail 256
  | 0x10 => namedPower s
  | 0x11 =>
    ctrOnes s [.pairHbTx, .pairHbRx, .pairHbLost, .pairMsgReject, .pairNoticeTx, .pairNoticeLost, .pairNoticeDropped] 0
  | _ => []

/-! ## COUNTER_READ (R520 to R522, R431) -/

/-- The fields of a set identifier (R520). -/
def setIndex (q : Req) : Nat := fld q.arg0 7 0
def setCid (q : Req) : Nat := fld q.arg0 12 8
def setModule (q : Req) : Bool := bit q.arg0 13
def setKind (q : Req) : Nat := fld q.arg0 23 16
def setClear (q : Req) : Bool := bit q.arg0 32

/-- The pairs of a compartment: words 2i and 2i + 1. -/
def pairWords (t : Tab Nat) (c n : Nat) : List Nat := (List.range n).flatMap (fun i => [tget 0 t (k3 c i 0), tget 0 t (k3 c i 1)])

/-- A programmable counter's word (R528). -/
def progWord (p : Prog) (i : Nat) : Nat :=
  p.val.getD i 0 + 2 ^ 32 * b2n (p.ovf.testBit i) + 2 ^ 33 * b2n (fld (p.sel.getD i 0) 7 0 != 0)

/-- The programmable counters of a unit. -/
def progOf (s : State) (u : Nat) : Prog := tget {} s.ctr.prog (k1 u)

/-- The number of a blaze set: a compartment's, or 32 for every compartment's. -/
def blzSet (q : Req) : Nat := if setModule q then 32 else setCid q

/-- The blaze records that a read returns: those of the ring boundary that are in scope and past the reader's mark, oldest first
(R522, R536). -/
def blzRecs (s : State) (q : Req) : List (Nat × Nat × List Byte) :=
  let mark := tget 0 s.ctr.marks (k2 q.c (blzSet q))
  (s.snap.ctr.trace.filter (fun e => decide (mark ≤ e.1) && (setModule q || e.2.1 == setCid q))).reverse

/-- The words of the set that a request names, at the ring boundary (R522). -/
def setWords (s : State) (q : Req) : List Nat :=
  let b := atSnap s
  match setKind q with
  | 1 => pairWords b.ctr.action (setCid q) 2048
  | 2 => pairWords b.ctr.kerf (setCid q) 512
  | 3 => cycleOf b (setIndex q) :: (List.range 8).map (progWord (progOf b (setIndex q)))
  | 4 =>
    if !setModule q then namedCmp b (setIndex q) (setCid q)
    else if q.c = 0 then namedModule b (setIndex q) else namedEmpty b (fun p => attached b q.c p)
  | _ => (blzRecs s q).flatMap (fun e => (List.range 4).map (fun i => leAt e.2.2 (8 * i) 8))

/-- The sender may read the set (R521). -/
def setScope (q : Req) : Bool :=
  q.c == 0 ||
    match setKind q with
    | 3 => false
    | 4 => if setModule q then setIndex q == 0x09 else setCid q == q.c
    | _ => !setModule q && setCid q == q.c

/-- What a read changes: the overflow bits of the counters returned (R528), the read mark (R536), and the peaks of the
pools, which are cleared when read (R318). What came up after the ring boundary stays for the next read. -/
def setTaken (s : State) (q : Req) (n : Nat) : State :=
  let u := setIndex q
  if setKind q = 3 ∧ setClear q then
    let p := progOf s u
    { s with ctr := { s.ctr with prog := tput {} s.ctr.prog (k1 u) { p with ovf := p.ovf - (p.ovf &&& (progOf (atSnap s) u).ovf) % 2 ^ (n - 1) } } }
  else if setKind q = 5 ∧ setClear q then
    match ((blzRecs s q).take (n / 4)).getLast? with
    | some e => { s with ctr := { s.ctr with marks := tput 0 s.ctr.marks (k2 q.c (blzSet q)) (e.1 + 1) } }
    | none => s
  else if setKind q = 4 ∧ setModule q ∧ u = 0x09 ∧ q.c = 0 then
    foldS (List.range 8) (fun p s =>
      if 19 + 10 + 16 + p < n then modPool p (fun x => if x.peak ≤ (poolOf (atSnap s) p).peak then { x with peak := 0 } else x) s else s) s
  else s

/-- COUNTER_READ. -/
def opCounterRead : LOp :=
  { op := .counterRead,
    present := fun s q => !(setKind q == 3 && unitListed (setIndex q) && !unitPresent s.variant (setIndex q)),
    args := fun _ q =>
      let k := setKind q
      firstBad [
        (decide (q.arg0.toNat < 2 ^ 33) && fld q.arg0 15 14 == 0 && fld q.arg0 31 24 == 0, .range),
        (decide (1 ≤ k) && decide (k ≤ 5), .range),
        (k == 3 || k == 4 || setIndex q == 0, .range), (decide (4 ≤ k) || !setModule q, .range),
        (k != 3 || unitListed (setIndex q), .range), (k != 4 || decide (setIndex q ≤ 0x11), .range),
        (k != 5 || q.arg1.toNat % 4 == 0, .range), (setScope q, .range)],
    now := fun s q =>
      let ws := setWords s q
      let n := if q.arg1.toNat = 0 then ws.length else min q.arg1.toNat ws.length
      { st := setTaken s q n, ring := s.ring, count := n,
        data := packLE [(4, q.arg0.toNat % 2 ^ 32), (4, n), (8, s.ring)] ++ (ws.take n).flatMap (leBytes 8) } }

/-! ## COUNTER_PROGRAM (R526, R527) -/

/-- The unit offers an event (R527). -/
def eventAt (u e : Nat) : Bool :=
  decide (e ≤ 3) || (decide (u < 8) && decide (0x10 ≤ e) && decide (e ≤ 0x15)) ||
    (decide (8 ≤ u) && decide (u < 16) && decide (0x20 ≤ e) && decide (e ≤ 0x24)) ||
    (decide (16 ≤ u) && decide (u < 32) && decide (0x30 ≤ e) && decide (e ≤ 0x33)) ||
    (decide (32 ≤ u) && decide (u < 34) && decide (0x40 ≤ e) && decide (e ≤ 0x42)) ||
    (decide (36 ≤ u) && decide (u < 40) && decide (0x50 ≤ e) && decide (e ≤ 0x51)) ||
    (decide (48 ≤ u) && decide (u < 64) && decide (0x60 ≤ e) && decide (e ≤ 0x63))

/-- Events that use a qualifier mask, and events that can be counted for one compartment. -/
def eventQual : List Nat := [0x10, 0x13, 0x20, 0x24, 0x30, 0x31, 0x32, 0x33, 0x60, 0x61, 0x63]
def eventCid : List Nat := [0x10, 0x11, 0x12, 0x13, 0x14, 0x15, 0x20, 0x21, 0x22, 0x24, 0x30, 0x31, 0x40]

/-- The rules of one select (R526). -/
def selCheck (u : Nat) (x : BitVec 32) : Status :=
  let e := fld x 7 0
  firstBad [
    (eventAt u e, .range), (!bit x 13 || eventCid.contains e, .range),
    (!eventQual.contains e || fld x 23 16 != 0, .zeroLen), (eventQual.contains e || fld x 23 16 == 0, .range)]

/-- The eight selects of a payload. -/
def selsOf (l : List Byte) : List (BitVec 32) := (List.range 8).map (fun i => BitVec.ofNat 32 (leAt l (4 * i) 4))

/-- A select with its reserved bits at zero (R19). -/
def selMask (x : BitVec 32) : BitVec 32 := setFld (setFld x 15 14 0) 31 24 0

/-- COUNTER_PROGRAM. -/
def opCounterProgram : LOp :=
  { op := .counterProgram,
    present := fun s q => !(unitListed q.arg1.toNat && !unitPresent s.variant q.arg1.toNat),
    args := fun _ q =>
      firstBad ((decide (q.arg1.toNat < 256) && unitListed q.arg1.toNat, .range) ::
        (selsOf q.payload).map (fun x => (selCheck q.arg1.toNat x == .ok, selCheck q.arg1.toNat x))) }

/-- The selects take effect: the counters and their overflow bits are cleared. -/
def landCounterProgram (i : Item) (s : State) : Ans :=
  { st := { s with ctr := { s.ctr with prog := tput {} s.ctr.prog (k1 i.req.arg1.toNat) { sel := (selsOf i.req.payload).map selMask } } },
    ring := s.ring }

/-- COUNTER_OVF of each unit an overflow bit of which was set in the finished ring, with every counter that overflowed in it (R529). -/
def ovfEvents (ring : Nat) (s : State) : State :=
  foldS s.ctr.prog (fun e s =>
    if e.2.ringOvf = 0 then s
    else
      let s := { s with ctr := { s.ctr with prog := tmod {} s.ctr.prog e.1 (fun p => { p with ringOvf := 0, ringSet := false }) } }
      if e.2.ringSet then post 0 0x0C01 (packLE [(8, ring), (1, e.1.1), (1, e.2.ringOvf)]) s else s) s

/-! ## BLAZE_CFG_WRITE (R530) -/

/-- BLAZE_CFG_WRITE. -/
def opBlazeCfgWrite : LOp :=
  { op := .blazeCfgWrite,
    args := fun _ q =>
      let x := rec128 q.payload
      firstBad [(!bit x 81 || fld x 80 64 != 0, .zeroLen), (decide (fld x 80 64 ≤ 65536), .range)] }

/-- The record governs the frames whose entry ring is T or later; reserved bits read as zero. -/
def landBlazeCfg (i : Item) (s : State) : Ans :=
  { st := { s with ctr := { s.ctr with blz := setFld (setFld (rec128 i.req.payload) 127 94 0) 82 82 0,
                                       blzWas := s.ctr.blzWas ++ [(min i.due s.ring, s.ctr.blz)] } }, ring := s.ring }

/-! ## Clearing (R538) -/

/-- The counters that a compartment reset clears for its compartment. -/
def resetCtrs : List Nat :=
  ([.parFrames, .parNoCut, .parHznDepth, .parHznBytes, .parMal, .ruleHit, .ruleMiss, .ruleDefault, .ruleDiscard, .ruleNoPort,
    .rulePortDenied, .ruleBudgetDiscard, .ruleBudgetUnrewritten, .emLearnOk, .emLearnMove, .emLearnDup] : List Ctr).map
      Ctr.ctorIdx ++
    ([.emLearnStatic, .emLearnStale, .emRefRate, .emRefQuota, .emRefModule, .emRefFull, .emAged, .emFlushed, .trieParityMiss,
    .grvFencedSearch, .krfRoutines, .krfBypass, .krfDrop, .krfTrap, .krfAbort, .krfFetch, .krfPtpBad] : List Ctr).map
      Ctr.ctorIdx ++
    ([.lndFencedPort, .lndFrozenDiscard, .lndDescFull, .lndMcHold, .lndPsetIncomplete, .lndReseqLost, .lndBadCell,
    .lndFenceDiscard, .schedGateOversize, .schedShareHeld, .tallyCaptured, .tallyStageDrop, .tallyDropFull] : List Ctr).map
      Ctr.ctorIdx ++
    ([.tallyStale, .tallyLost, .tallyOverwritten, .cmpStaleFrames, .cmpFreezeDiscard, .cmpDetachDiscard, .cmpEgressForeign,
    .blzBlazed, .blzTraceDrop, .blzTraceLost, .pairStandbyDiscard] : List Ctr).map Ctr.ctorIdx

/-- A compartment reset clears the compartment's counters and pairs, and its blaze records and marks (R444, R538). -/
def clearCmpCtrs (c : Nat) (s : State) : State :=
  { s with ctr := { s.ctr with
      named := s.ctr.named.filter (fun e => !(resetCtrs.contains e.1.1 && e.1.2.1 == c)),
      action := s.ctr.action.filter (fun e => e.1.1 != c), kerf := s.ctr.kerf.filter (fun e => e.1.1 != c),
      trace := s.ctr.trace.filter (fun e => e.2.1 != c), marks := s.ctr.marks.filter (fun e => e.1.1 != c) } }

/-- A device restart or a power cycle clears every counter but those of R567; `BLZ.CFG` stays (R538). -/
def clearAllCtrs (s : State) : State :=
  let keep := ([.pwrDips, .pwrFails, .pwrThermalOff] : List Ctr).map Ctr.ctorIdx
  { s with ctr := { named := s.ctr.named.filter (fun e => keep.contains e.1.1), cycBase := nowClk s, blz := s.ctr.blz } }

/-! ## Meanings -/

/-- COUNTER_READ (R520 to R522). -/
def execCounterRead (q : Req) (s : State) : Out := .next (runOp opCounterRead q s)
/-- COUNTER_PROGRAM (R526). -/
def execCounterProgram (q : Req) (s : State) : Out := .next (runOp opCounterProgram q s)
/-- BLAZE_CFG_WRITE (R530). -/
def execBlazeCfgWrite (q : Req) (s : State) : Out := .next (runOp opBlazeCfgWrite q s)

end Sys2Proof.Machine
end

