-- ==== Sys2Proof/Machine/Ports.lean ====
section
/-!
DEFINITION. Ports and cages (R74 to R95): the port record, link state, preemption verification, the radio window, and the
management of the optics.
-/
namespace Sys2Proof.Machine

/-! ## The port record (R74 to R78) -/

/-- Lanes of a speed (R74). -/
def lanesOf (speed : Nat) : Nat :=
  match speed with
  | 4 => 2 | 5 => 4 | 6 => 8 | 7 => 4 | _ => 1

/-- Speed of a code in Gb/s (R74). -/
def gbOf (speed : Nat) : Nat :=
  match speed with
  | 1 => 10 | 2 => 25 | 3 => 50 | 4 => 100 | 5 => 200 | 6 => 400 | 7 => 100 | _ => 0

/-- The FEC is allowed for the speed (R74). -/
def fecOk (speed fec : Nat) : Bool :=
  match speed with
  | 1 => fec == 0
  | 2 => fec == 0 || fec == 1
  | 7 => fec == 1
  | _ => fec == 2

/-- Fields of a port record. -/
def pcCage (x : BitVec 128) : Nat := fld x 5 0
def pcLane (x : BitVec 128) : Nat := fld x 8 6
def pcSpeed (x : BitVec 128) : Nat := fld x 11 9

/-- The lanes a record uses, counted over the module (R7, R75). -/
def lanesUsed (x : BitVec 128) : List Nat :=
  let base := if pcCage x < 48 then 2 * pcCage x else 96 + 8 * (pcCage x - 48)
  (List.range (lanesOf (pcSpeed x))).map (fun i => base + pcLane x + i)

/-- The port records as they will stand (R76): those in force, changed by every accepted write in landing order. -/
def portsToBe (s : State) (p : Nat) : BitVec 128 :=
  let w := sortBy (fun (a b : Item) => decide (a.due < b.due))
    (s.items.filter (fun i => i.op == .portCfgWrite && i.req.arg1.toNat == p))
  match w.getLast? with
  | some i => BitVec.ofNat 128 (leNat i.req.payload)
  | none => (port s p).cfg

/-- The checks of a port record (R74 to R78), single fields first (R417). `FEC` 3 is refused with R77 whatever the speed, though R74's
table ignores the field of a disabled port (DESIGN CHOICE, log entry 131). -/
def portCfgCheck (s : State) (p : Nat) (x : BitVec 128) : Status :=
  let sp := pcSpeed x
  let others := (allPorts.filter (fun q => q != p)).map (portsToBe s) |>.filter (fun r => pcSpeed r != 0)
  firstBad [
    (decide (pcCage x < 52), .range),
    (fld x 13 12 != 3, .range),
    (fld x 61 48 != 0, .zeroLen),
    (decide (1518 ≤ fld x 61 48) && decide (fld x 61 48 ≤ 9216), .range),
    (fld x 79 64 != 0, .zeroLen),
    (fld x 95 80 != 0, .zeroLen),
    (fld x 111 96 != 0, .zeroLen),
    (sp == 0 || decide (sp < 5) || decide (48 ≤ pcCage x), .range),
    (sp == 0 || (pcLane x % lanesOf sp == 0 && decide (pcLane x + lanesOf sp ≤ (if pcCage x < 48 then 2 else 8))), .range),
    (sp == 0 || fecOk sp (fld x 13 12), .range),
    (!bit x 14 || (decide (2 ≤ sp) && decide (sp ≤ 4)), .range),
    (!bit x 15 || bit x 14, .range),
    (sp == 0 || decide (fld x 95 80 * 1000 * gbOf sp < fld x 79 64 * 512), .range),
    (sp == 0 || others.all (fun r => (lanesUsed r).all (fun l => !(lanesUsed x).contains l)), .range)]

/-- The group of the record has room for the port: at most eight enabled ports (R76). -/
def portRoom (s : State) (p : Nat) (x : BitVec 128) : Bool :=
  let others := (allPorts.filter (fun q => q != p)).map (portsToBe s) |>.filter (fun r => pcSpeed r != 0)
  pcSpeed x == 0 || decide ((others.filter (fun r => groupOfCage (pcCage r) == groupOfCage (pcCage x))).length < 8)

/-- The unit that a command naming a port acts on (R480): the group of the cage in the port's record, whether the port is enabled or
not. -/
def portUnits (s : State) (p : Nat) : List Nat := if p < 64 then [uGroup (portGroup s p)] else []

/-- Time source entry `i` (R58) and what the module keeps of it. -/
def srcRec (s : State) (i : Nat) : BitVec 64 := tget 0x703e800000000#64 s.tim.src (k1 i)
def srcOf (s : State) (i : Nat) : SrcSt := tget {} s.tim.srcs (k1 i)
/-- Change what the module keeps of a time source. -/
def modSrc (i : Nat) (f : SrcSt → SrcSt) (s : State) : State :=
  { s with tim := { s.tim with srcs := tmod {} s.tim.srcs (k1 i) f } }
/-- `TIM.SRC.TYPE`: 0 empty, 1 PTP, 2 GNSS, 3 SyncE, 4 10 MHz. -/
def srcType (s : State) (i : Nat) : Nat := fld (srcRec s i) 3 0
/-- `TIM.SRC.PORT`. -/
def srcPort (s : State) (i : Nat) : Nat := fld (srcRec s i) 9 4

/-- A time source is lost: it qualifies afresh. -/
def srcLost (i : Nat) (s : State) : State :=
  modSrc i (fun x => { x with qualified := false, goodSince := none, pulses := 0, missed := 0, lastPulse := none, lastTod := none }) s

/-- A port that is reset or put to sleep loses the selected source that it carries (R73). -/
def portSrcLost (p : Nat) (s : State) : State :=
  match s.tim.source with
  | some i => if (srcType s i = 1 ∨ srcType s i = 3) ∧ srcPort s i = p then srcLost i s else s
  | none => s

/-- A port number is in range. -/
def portArg (_ : State) (q : Req) : Status := if q.arg1.toNat < 64 then .ok else .range

/-- PORT_CFG_WRITE. -/
def opPortCfgWrite : LOp :=
  { op := .portCfgWrite,
    units := fun s q => (portUnits s q.arg1.toNat ++
      (let x := rec128 q.payload
       if pcSpeed x ≠ 0 ∧ pcCage x < 52 then [uGroup (groupOfCage (pcCage x))] else [])).eraseDups,
    args := fun s q => if 64 ≤ q.arg1.toNat then .range else portCfgCheck s q.arg1.toNat (rec128 q.payload),
    pre := fun s q => if portRoom s q.arg1.toNat (rec128 q.payload) then .ok else .noSpace }

/-! ## Link state (R79, R80) -/

/-- PORT_STATE to CID 0 and every attached compartment. -/
def postPort (p st : Nat) (s : State) : State :=
  postTo (0 :: (attachedTo s p).filter (· ≠ 0)) 0x0201 (packLE [(8, s.ring), (1, p), (1, st)]) s

/-- A port goes down (R79, R80, R173): its queues are emptied, pauses and verification cleared, learned entries flushed at
the second boundary after. -/
def portDown (p : Nat) (s : State) : State :=
  if (port s p).up then
    let s := clearPauses p s
    let s := modPort p (fun q => { q with up := false, changed := s.ring, trainFrom := s.ran, downs := q.downs + 1,
                                          xoff := 0, verified := false, verifies := 0 }) s
    postPort p 0 (portDownEm p (flushPort p s))
  else modPort p (fun q => { q with trainFrom := s.ran, verified := false, verifies := 0 }) s

/-- The pipeline of port `p` is gated, or ungated and not ready yet (R516). -/
def pipeAsleep (s : State) (p : Nat) : Bool :=
  tget false s.md.gated (k1 (portGroup s p / 2)) || tget false s.md.waking (k1 (portGroup s p / 2))

/-- The buckets of a port's classes are full again (R340). -/
def fillBuckets (p : Nat) (s : State) : State := { s with sch := { s.sch with lack := tfilter (fun k => k.1 != p) s.sch.lack } }

/-- The port may come up: enabled, out of SEALED, its group in service and awake, its pipeline ready, its optic not denied
power, and clean for `UP_HOLD` rings (R79, R94, R508, R515, R516). -/
def mayComeUp (s : State) (p : Nat) : Bool :=
  !(port s p).up && portSpeed s p != 0 && s.md.mode != .sealed && !groupFenced s (portGroup s p) &&
    !asleep s (portGroup s p) && !pipeAsleep s p && !(tget {} s.link.cage (k1 (portCage s p))).denied && !s.link.squelched &&
    decide ((port s p).trainFrom + fld (port s p).cfg 111 96 ≤ s.ran)

/-- A port comes up (R79). -/
def portUp (p : Nat) (s : State) : State :=
  if mayComeUp s p then
    pfcUpdate p (postPort p 1 (modPort p (fun q => { q with up := true, changed := s.ring }) s))
  else s

/-- A cause of a link-state change is found; the state changes at the next boundary (R79). -/
def linkFound (p : Nat) (up : Bool) (s : State) : State := { s with link := { s.link with found := s.link.found ++ [(p, up)] } }

/-- The link-state changes whose causes were found before the present boundary, in the order in which they were found
(R79, R581 step 8). -/
def linkStep (s : State) : State :=
  foldS s.link.found (fun x => if x.2 then portUp x.1 else portDown x.1) { s with link := { s.link with found := [] } }

/-- The record with the in-place fields cleared. -/
def pcRest (x : BitVec 128) : BitVec 128 :=
  setFld (setFld (setFld (setFld (setFld (setFld (setFld (setFld x 31 24 0) 39 32 0) 42 40 0) 45 43 0) 61 48 0) 79 64 0)
    95 80 0) 127 112 0

/-- A port record with its reserved bits at zero. -/
def pcMask (x : BitVec 128) : BitVec 128 := setFld x 63 62 0

/-- The port goes down at step 8 of the present boundary (R581). -/
def resetDue (p : Nat) (s : State) : State := { s with link := { s.link with downs8 := s.link.downs8 ++ [p] } }

/-- A port that is reset goes down, its buckets fill, and a selected source that it carries is lost (R73, R79, R340). -/
def resetPort (p : Nat) (s : State) : State := portSrcLost p (fillBuckets p (portDown p s))

/-- The ports that a change of the present boundary resets go down (R581 step 8). -/
def downStep (s : State) : State := foldS s.link.downs8 resetPort { s with link := { s.link with downs8 := [] } }

/-- A port record takes effect: in place, or with a reset of the port (R78). -/
def landPortCfg (i : Item) (s : State) : Ans :=
  let p := i.req.arg1.toNat
  let x := pcMask (rec128 i.req.payload)
  let same := pcRest x == pcRest (port s p).cfg
  let s := modPort p (fun q => { q with
    cfg := x, poolWas := if fld q.cfg 42 40 = fld x 42 40 then q.poolWas
      else q.poolWas.filter (fun w => decide (s.ran < w.2 + 16)) ++ [(fld q.cfg 42 40, s.ran)] }) s
  { st := if same then pfcUpdate p s else resetDue p s, ring := s.ring }

/-- PORT_RESET. -/
def opPortReset : LOp :=
  { op := .portReset, units := fun s q => portUnits s q.arg1.toNat,
    args := portArg, pre := fun s q => if portSpeed s q.arg1.toNat = 0 then .range else .ok }

/-- A port reset takes effect (R79, R510). -/
def landPortReset (i : Item) (s : State) : Ans := { st := resetDue i.req.arg1.toNat s, ring := s.ring }

/-- RADIO_WIN_WRITE (R90). -/
def opRadioWin : LOp :=
  { op := .radioWinWrite, units := fun s q => portUnits s q.arg1.toNat,
    args := fun _ q =>
      let w := rec32 q.payload 0
      firstBad [(decide (q.arg1.toNat < 64), .range), (fld w 5 0 != fld w 11 6, .range)],
    pre := fun s q => if bit (port s q.arg1.toNat).cfg 14 then .ok else .range }

/-- A radio window takes effect. -/
def landRadioWin (i : Item) (s : State) : Ans :=
  { st := modPort i.req.arg1.toNat (fun q => { q with win := setFld (rec32 i.req.payload 0) 31 13 0 }) s, ring := s.ring }

/-- PORT_READ: 32 bytes. -/
def opPortRead : LOp :=
  { op := .portRead, snap := true, units := fun s q => portUnits s q.arg1.toNat, args := portArg,
    now := fun s q =>
      let r := port s q.arg1.toNat
      { st := s, ring := s.ring,
        data := leBytes 16 r.cfg.toNat ++ packLE [(4, r.win.toNat), (4, b2n r.up), (8, r.changed)] } }

/-! ## Preemption (R87) -/

/-- A verify mPacket is due, 10 ms after the one before: sent, or, after three without an answer, the failure is posted. -/
def preemptVerify (p : Nat) (s : State) : State :=
  let q := port s p
  if q.up && bit q.cfg 14 && bit q.cfg 15 && !q.verified && (q.verifies == 0 || decide (q.lastVerify + 10000 ≤ s.ran)) then
    if q.verifies < 3 then modPort p (fun q => { q with verifies := q.verifies + 1, lastVerify := s.ran }) s
    else if q.verifies = 3 then
      post 0 0x0202 (packLE [(8, s.ring), (1, p)]) (modPort p (fun q => { q with verifies := 4 }) s)
    else s
  else s

/-- A respond mPacket answers a verify. -/
def preemptRespond (p : Nat) (s : State) : State :=
  let q := port s p
  if q.up && bit q.cfg 14 && bit q.cfg 15 && decide (0 < q.verifies) then modPort p (fun q => { q with verified := true }) s
  else s

/-! ## The pair link (R539, R544, R554) -/

/-- A field of the last accepted heartbeat (R544). -/
def hbAt (s : State) (o n : Nat) : Nat := leAt s.pair.peer o n

/-- The grids lie within 100 ns of each other (R545). -/
def pairAligned (s : State) : Bool := s.pair.live && decide (s.pair.offset.natAbs ≤ 200)

/-- PAIR_STATE with a cause of R554. -/
def pairState (old : Bool) (cause : Nat) (s : State) : State :=
  postTo (cid0AndEnabled s) 0x1101 (packLE [(8, s.ring), (1, b2n old), (1, b2n s.pair.role), (1, cause), (1, hbAt s 8 1),
    (1, hbAt s 9 1), (1, b2n s.pair.live + 2 * b2n (pairAligned s))]) s

/-- A pending switchover is cancelled. -/
def pairCancel (s : State) : State :=
  if s.pair.pend.isSome then pairState s.pair.role 3 { s with pair := { s.pair with pend := none } } else s

/-- The heartbeat is lost, and with it a pending switchover (R544, R548). -/
def hbLost (s : State) : State :=
  if s.pair.live then
    pairCancel (pairState s.pair.role 4 (cnt .pairHbLost 0 0 1 { s with pair := { s.pair with live := false } }))
  else s

/-- The pair link goes down: its key is lost. -/
def pairDown (s : State) : State :=
  hbLost { s with pair := { s.pair with linkUp := false, downDue := false, sentHello := false, hello := none } }

/-- The pair link has been found lost: it goes down at the next boundary (R79, R539). -/
def pairFound (s : State) : State := { s with pair := { s.pair with downDue := true } }

/-- The pair link goes down at the boundary after its loss was found (R79, R539). -/
def pairStep (s : State) : State := if s.pair.downDue then pairDown s else s

/-! ## Cages (R93 to R95) -/

/-- The record of a cage. -/
def cageOf (s : State) (c : Nat) : Cage := tget {} s.link.cage (k1 c)
/-- Change the record of a cage. -/
def modCage (c : Nat) (f : Cage → Cage) (s : State) : State :=
  { s with link := { s.link with cage := tmod {} s.link.cage (k1 c) f } }

/-- The unit that stands for a cage: its port group, or the Isal pair link (R478, R480). -/
def cageUnit (c : Nat) : Nat := if c < 52 then uGroup (groupOfCage c) else 0x4A

/-- The ports of a cage. -/
def cagePorts (s : State) (c : Nat) : List Nat := allPorts.filter (fun p => portSpeed s p != 0 && portCage s p == c)

/-- The power limit of a cage in mW (R94). -/
def cageLimit (c : Nat) : Nat := if c < 48 then 4000 else 16000

/-- The optic is moved to high power when the three conditions of R94 hold; the heater runs while that of the temperature
fails. -/
def cagePower (temp : Int) (g : Cage) : Cage :=
  { g with heater := decide (temp < g.minTemp),
           highPower := g.highPower || (!g.denied && !g.identity.isEmpty && decide (g.minTemp ≤ temp)) }

/-- The power state of the optic of cage `c`; those of a sleeping group are held in low power (R515), and all of them once the rails are
to fall (R561). -/
def cagePowerAt (s : State) (c : Nat) (temp : Int) (g : Cage) : Cage :=
  let g := cagePower temp g
  if (c < 52 && asleep s (groupOfCage c)) || s.pwr.fallAt.isSome then { g with highPower := false } else g

/-- An optic is inserted: `id` is what the identity read gave, none where it failed. -/
def opticInsert (c : Nat) (id : Option (List Byte)) (cls mw : Nat) (temp minTemp : Int) (s : State) : State :=
  if !cagePresent s.variant c then s
  else
    let denied := id.isSome && decide (cageLimit c < mw)
    let g : Cage := { present := true, identity := id.getD [], powerClass := cls, powerMw := mw, minTemp := minTemp,
                      denied := denied }
    let s := modCage c (fun _ => cagePowerAt s c temp g) s
    if denied then post 0 0x0203 (packLE [(8, s.ring), (1, c)]) s else s

/-- An optic is removed: the ports of its cage go down at the next boundary (R79). -/
def opticRemove (c : Nat) (s : State) : State :=
  if (cageOf s c).present then
    let s := if c = 52 then pairFound s else s
    foldS (cagePorts s c) (linkFound · false) (post 0 0x0204 (packLE [(8, s.ring), (1, c)]) (modCage c (fun _ => {}) s))
  else s

/-- A reading outside its limits is discarded, counted and reported (R95). -/
def cageRangeBad (c n : Nat) (s : State) : State :=
  foldS (List.range n) (fun _ s => note (cageUnit c) 0x0201 255 [c, 1] (cnt .cageRange c 0 1 s)) s

/-- Keep the readings of a list that pass a test, and the last accepted value elsewhere. -/
def keepGood {α : Type} (d : α) (ok : α → Bool) (old new : List α) : List α :=
  new.mapIdx (fun i x => if ok x then x else old.getD i d)

/-- A poll of the monitors (R95): temperature in 1/16 °C, supply in mV, bias in µA, power in 0.01 dBm. DESIGN CHOICE (log entry
95): the change of a reading is measured from the last reading that was accepted. -/
def opticPoll (c : Nat) (temp : Int) (volt : Nat) (bias : List Nat) (power : List Int) (flags : BitVec 8) (s : State) : State :=
  let g := cageOf s c
  if !g.present || g.mgmtLost then s
  else
    let tOk := decide (-800 ≤ temp) && decide (temp ≤ 2080) && (!g.seen || decide ((temp - g.temp).natAbs ≤ 160))
    let vOk := decide (2900 ≤ volt) && decide (volt ≤ 3700) && (!g.seenV || decide (volt ≤ g.volt + 200 ∧ g.volt ≤ volt + 200))
    let bOk (x : Nat) : Bool := decide (x ≤ 200000)
    let pOk (x : Int) : Bool := decide (-4000 ≤ x) && decide (x ≤ 1000)
    let bad := b2n (!tOk) + b2n (!vOk) + (bias.filter (fun x => !bOk x)).length + (power.filter (fun x => !pOk x)).length
    let s := cageRangeBad c bad s
    let s := modCage c (fun g =>
      let g := { g with temp := if tOk then temp else g.temp, volt := if vOk then volt else g.volt,
                        bias := keepGood 0 bOk g.bias bias, power := keepGood 0 pOk g.power power,
                        seen := g.seen || tOk, seenV := g.seenV || vOk, timeouts := 0 }
      if tOk then cagePowerAt s c temp g else g) s
    if flags = 0 then s else post 0 0x0205 (packLE [(8, s.ring), (1, c), (1, flags.toNat)]) s

/-- A management access is abandoned after 10 ms (R93). -/
def mgmtTimeout (c : Nat) (s : State) : State :=
  if (cageOf s c).present then
    let s := note (cageUnit c) 0x0201 255 [c, 0] (cnt .cageTimeout c 0 1 s)
    modCage c (fun g => { g with timeouts := g.timeouts + 1, mgmtLost := g.mgmtLost || decide (3 ≤ g.timeouts + 1) }) s
  else s

/-- A lost cage is tried again (R93). -/
def cageRetry (c : Nat) (ok : Bool) (s : State) : State :=
  if (cageOf s c).mgmtLost then
    if ok then modCage c (fun g => { g with mgmtLost := false, timeouts := 0 }) s else mgmtTimeout c s
  else s

/-- CAGE_READ: 128 bytes (log entry 21). -/
def opCageRead : LOp :=
  { op := .cageRead, snap := true,
    present := fun s q => decide (53 ≤ q.arg1.toNat) || cagePresent s.variant q.arg1.toNat,
    units := fun _ q => if q.arg1.toNat < 52 then [uGroup (groupOfCage q.arg1.toNat)] else [],
    args := fun _ q => if q.arg1.toNat < 53 then .ok else .range,
    now := fun s q =>
      let g := cageOf s q.arg1.toNat
      let i16 (x : Int) : Nat := (x % 65536).toNat
      { st := s, ring := s.ring,
        data := padTo 128 (padTo 64 g.identity ++ packLE [(1, g.powerClass), (1, b2n g.mgmtLost), (2, i16 g.temp), (2, g.volt)] ++
          (List.range 8).flatMap (fun i => leBytes 2 (g.bias.getD i 0)) ++
          (List.range 8).flatMap (fun i => leBytes 2 (i16 (g.power.getD i 0)))) } }

/-! ## Meanings -/

/-- LINK_DOWN (R79): the PCS reports a loss; the port goes down at the next boundary. -/
def execLinkDown (port : Fin 64) (s : State) : Out := .next (unlessHalted s (linkFound port.val false s))
/-- LINK_UP (R79): the PCS has run clean; the port comes up at the next boundary. -/
def execLinkUp (port : Fin 64) (s : State) : Out := .next (unlessHalted s (linkFound port.val true s))
/-- PREEMPT_VERIFY_SEND (R87). -/
def execPreemptVerifySend (port : Fin 64) (s : State) : Out := .next (unlessHalted s (preemptVerify port.val s))
/-- PREEMPT_RESPOND (R87). -/
def execPreemptRespond (port : Fin 64) (s : State) : Out := .next (unlessHalted s (preemptRespond port.val s))
/-- OPTIC_INSERT (R94). -/
def execOpticInsert (cage : Fin 53) (id : Option (List Byte)) (cls : Fin 8) (powerMw : Nat) (temp minTemp : Int) (s : State) :
    Out := .next (unlessHalted s (opticInsert cage.val id cls.val powerMw temp minTemp s))
/-- OPTIC_REMOVE (R94). -/
def execOpticRemove (cage : Fin 53) (s : State) : Out := .next (unlessHalted s (opticRemove cage.val s))
/-- OPTIC_POLL (R95). -/
def execOpticPoll (cage : Fin 53) (temp : Int) (volt : Nat) (bias : List Nat) (power : List Int) (flags : BitVec 8)
    (s : State) : Out := .next (unlessHalted s (opticPoll cage.val temp volt bias power flags s))
/-- MGMT_TIMEOUT (R93). -/
def execMgmtTimeout (cage : Fin 53) (s : State) : Out := .next (unlessHalted s (mgmtTimeout cage.val s))
/-- CAGE_RETRY (R93). -/
def execCageRetry (cage : Fin 53) (ok : Bool) (s : State) : Out := .next (unlessHalted s (cageRetry cage.val ok s))
/-- PORT_CFG_WRITE (R78). -/
def execPortCfgWrite (q : Req) (s : State) : Out := .next (runOp opPortCfgWrite q s)
/-- RADIO_WIN_WRITE (R90). -/
def execRadioWinWrite (q : Req) (s : State) : Out := .next (runOp opRadioWin q s)
/-- PORT_RESET (R510). -/
def execPortReset (q : Req) (s : State) : Out := .next (runOp opPortReset q s)
/-- PORT_READ (R425). -/
def execPortRead (q : Req) (s : State) : Out := .next (runOp opPortRead q s)
/-- CAGE_READ (R425). -/
def execCageRead (q : Req) (s : State) : Out := .next (runOp opCageRead q s)

end Sys2Proof.Machine
end

