-- ==== Sys2Proof/Machine/SecY.lean ====
section
/-!
DEFINITION. The MACsec commands (R96 to R99, R432) and the key handles they name (R470): allocation and writes of SecYs,
receive channels, and the install, switch and deletion of associations.
-/
namespace Sys2Proof.Machine

/-! ## Key handles (R470) -/

/-- A key-store slot. -/
def keySlot (s : State) (i : Nat) : KeySlot := tget {} s.trust.keys (k1 i)
/-- Replace a key-store slot. -/
def setKeySlot (i : Nat) (k : KeySlot) (s : State) : State :=
  { s with trust := { s.trust with keys := tput {} s.trust.keys (k1 i) k } }
/-- The slot index of a handle. -/
def handleSlot (h : Nat) : Nat := h % 8192
/-- The handle of a slot. -/
def handleOf (s : State) (i : Nat) : Nat := i + 8192 * (keySlot s i).gen
/-- A handle names a slot of compartment `c`. -/
def handleOk (s : State) (c h : Nat) : Bool :=
  (keySlot s (handleSlot h)).owner == some c && handleOf s (handleSlot h) == h

/-! ## Arguments -/

/-- The port, SecY, SC and AN that `ARG1` names (R432). -/
def qPort (q : Req) : Nat := q.a1 5 0
def qSecy (q : Req) : Nat := q.a1 7 6
def qSc (q : Req) : Nat := q.a1 11 8
def qAn (q : Req) : Nat := q.a1 17 16

/-- The SecY that a request names. -/
def qSecyOf (s : State) (q : Req) : SecY := secyOf s (qPort q) (qSecy q)

/-- A SecY slot is allocated (R97). -/
def secyAllocated (y : SecY) : Bool := secyQuota y != 0

/-- The SecY belongs to the sender. -/
def secyMine (s : State) (q : Req) : Bool := secyAllocated (qSecyOf s q) && secyCid (qSecyOf s q) == q.c

/-- MACsec is present on the port (R424). -/
def secyPresent (s : State) (q : Req) : Bool := macsecPresent s.variant (portCage s (qPort q))

/-- The sender may name the SecY: it is its own; a SecY that the variant lacks is no other's, and step 11 answers ABSENT for it (R3,
R424). -/
def secyOwns (s : State) (q : Req) : Bool := !secyPresent s q || secyMine s q

/-- The units of a MACsec command (R480). -/
def secyUnits (s : State) (q : Req) : List Nat := portUnits s (qPort q)

/-! ## SECY_ALLOC (R96, R97) -/

/-- Secure channels allocated on a port, leaving out SecY `i`: the transmit SC and the receive SCs of each (R96). -/
def scsAllocated (s : State) (p i : Nat) : Nat :=
  ((List.range 4).map (fun j =>
    let y := secyOf s p j
    if j ≠ i ∧ secyAllocated y then 1 + secyQuota y else 0)).foldl (· + ·) 0

/-- SECY_ALLOC. -/
def opSecyAlloc : LOp :=
  { op := .secyAlloc, present := secyPresent, units := secyUnits,
    args := fun s q =>
      let x := rec128 q.payload
      firstBad [(cmpDefined s (fld x 4 0), .range), (fld x 8 5 != 0, .zeroLen)],
    pre := fun s q => if 16 < scsAllocated s (qPort q) (qSecy q) + 1 + fld (rec128 q.payload) 8 5 then .noSpace else .ok }

/-- A SecY is allocated: the quota is written; a new owner finds the owner's fields at their reset values. DESIGN CHOICE (log
entry 94): a quota below the receive SCs that the owner holds keeps those SCs; only a further one is refused. -/
def landSecyAlloc (i : Item) (s : State) : Ans :=
  let x := rec128 i.req.payload
  if opSecyAlloc.pre s i.req ≠ .ok then refuse .noSpace s
  else
    let t := modSecy (qPort i.req) (qSecy i.req) (fun y =>
      if secyAllocated y && secyCid y == fld x 4 0 then { y with rec_ := setFld y.rec_ 8 5 (fld x 8 5) }
      else { rec_ := setFld (setFld 0#128 4 0 (fld x 4 0)) 8 5 (fld x 8 5) }) s
    { st := t, ring := s.ring }

/-! ## SECY_WRITE (R97) -/

/-- The owner's fields of a SecY record. -/
def ownerFields (old x : BitVec 128) : BitVec 128 :=
  BitVec.ofNat 128 (fld old 8 0 + fld x 14 9 * 2 ^ 9 + fld x 45 16 * 2 ^ 16 + fld x 127 64 * 2 ^ 64)

/-- SECY_WRITE. -/
def opSecyWrite : LOp :=
  { op := .secyWrite, present := secyPresent, owns := secyOwns, units := secyUnits,
    args := fun _ q =>
      let x := rec128 q.payload
      if bit x 13 && fld x 45 16 == 0 then .zeroLen else .ok }

/-- The owner's fields take effect. -/
def landSecyWrite (i : Item) (s : State) : Ans :=
  { st := if secyMine s i.req then
      modSecy (qPort i.req) (qSecy i.req) (fun y => { y with rec_ := ownerFields y.rec_ (rec128 i.req.payload) }) s else s,
    ring := s.ring }

/-! ## RX_SC_WRITE (R96) -/

/-- RX_SC_WRITE. -/
def opRxScWrite : LOp :=
  { op := .rxScWrite, present := secyPresent, owns := secyOwns, units := secyUnits,
    pre := fun s q =>
      let y := qSecyOf s q
      if y.scs.any (fun c => c.1 == qSc q) || decide (y.scs.length < secyQuota y) then .ok else .noSpace }

/-- A receive SC is written. -/
def landRxSc (i : Item) (s : State) : Ans :=
  let q := i.req
  if opRxScWrite.pre s q ≠ .ok then refuse .noSpace s else
  let sc := (qSc q, BitVec.ofNat 64 (leAt q.payload 0 8), leAt q.payload 8 1 % 2 == 1)
  let t := modSecy (qPort q) (qSecy q) (fun y => { y with scs := y.scs.filter (fun c => c.1 != qSc q) ++ [sc] }) s
  { st := if secyMine s q then t else s, ring := s.ring }

/-! ## Associations (R98, R99) -/

/-- The association that a record of `MSEC.SA` describes. -/
def saOf (q : Req) : SaRec :=
  let x := rec128 q.payload
  let tx := bit x 18
  { handle := fld x 15 0, an := fld x 17 16, tx := tx, sc := if tx then 0 else qSc q, pn := fld x 95 32,
    ssci := BitVec.ofNat 32 (fld x 127 96) }

/-- Two records stand for one association: transmit, or receive on one SC, with one AN. -/
def saSame (a b : SaRec) : Bool := a.tx == b.tx && a.an == b.an && (a.tx || a.sc == b.sc)

/-- SA_INSTALL: the handle names a slot of the owner; the receive SC exists. -/
def opSaInstall : LOp :=
  { op := .saInstall, present := secyPresent,
    owns := fun s q => !secyPresent s q || (secyMine s q && handleOk s q.c (fld (rec128 q.payload) 15 0)),
    units := secyUnits,
    args := fun s q => if (saOf q).tx || (qSecyOf s q).scs.any (fun c => c.1 == qSc q) then .ok else .range }

/-- An association is installed at its boundary (`num` 0), dead where its key has been deleted since v (R474); a receive SA is active from the ring after the one in which that
is acknowledged (`num` 1). -/
def landSaInstall (i : Item) (s : State) : Ans :=
  let q := i.req
  let a := saOf q
  if !secyMine s q then { st := s, ring := s.ring }
  else if i.num = 0 then
    let live := handleOk s q.c a.handle
    let pn := if secyXpn (qSecyOf s q) then a.pn else a.pn % 2 ^ 32
    let s := modSecy (qPort q) (qSecy q) (fun y =>
      let old := y.sas.any (fun b => saSame a b && b.inUse)
      { y with sas := y.sas.filter (fun b => !saSame a b) ++ [{ a with pn := pn, inUse := a.tx && old && live, dead := !live }] }) s
    { st := if a.tx then s else { s with items := s.items ++ [{ i with due := s.ring + 1, num := 1, rsp := false, sec := none }] },
      ring := s.ring }
  else
    { st := modSecy (qPort q) (qSecy q) (fun y => { y with sas := y.sas.map (fun b =>
        if saSame a b && b.handle == a.handle && !b.dead && handleOk s q.c a.handle then { b with inUse := true } else b) }) s,
      ring := s.ring }

/-- The transmit SA with an AN that may come into use (R99, R474). -/
def txSa (s : State) (q : Req) : Option SaRec :=
  (qSecyOf s q).sas.find? (fun a => a.tx && a.an == qAn q && !a.dead && handleOk s q.c a.handle)

/-- SA_SWITCH (R99). -/
def opSaSwitch : LOp :=
  { op := .saSwitch, present := secyPresent, owns := secyOwns, units := secyUnits,
    pre := fun s q => if (txSa s q).isSome then .ok else .range }

/-- The transmit SA is switched. -/
def landSaSwitch (i : Item) (s : State) : Ans :=
  let q := i.req
  { st := if secyMine s q && (txSa s q).isSome then
      modSecy (qPort q) (qSecy q) (fun y => { y with sas := y.sas.map (fun a =>
        if a.tx then { a with inUse := a.an == qAn q } else a) }) s else s,
    ring := s.ring }

/-- The association that SA_DELETE names. -/
def delSa (q : Req) (a : SaRec) : Bool :=
  a.an == qAn q && a.tx == (q.a1 18 18 == 1) && (a.tx || a.sc == qSc q)

/-- SA_DELETE. -/
def opSaDelete : LOp :=
  { op := .saDelete, present := secyPresent, owns := secyOwns, units := secyUnits,
    args := fun s q => if (qSecyOf s q).sas.any (delSa q) then .ok else .range,
    pre := fun s q => if (qSecyOf s q).sas.any (fun a => delSa q a && a.tx && a.inUse) then .busy else .ok,
    now := fun s q =>
      { st := modSecy (qPort q) (qSecy q) (fun y => { y with sas := y.sas.filter (fun a => !delSa q a) }) s, ring := s.ring } }

/-- The owner's part of a SecY is lost (R104): its fields return to their reset values and the SecY is disabled. -/
def loseSecy (y : SecY) : SecY := { rec_ := BitVec.ofNat 128 (fld y.rec_ 8 0) }

/-- The SecYs of the compartments that `p` picks lose their owner's part. -/
def loseSecys (p : Nat → Bool) (s : State) : State :=
  { s with link := { s.link with secy := s.link.secy.map (fun e => if p (secyCid e.2) then (e.1, loseSecy e.2) else e) } }

/-! ## Meanings -/

/-- SECY_ALLOC (R97). -/
def execSecyAlloc (q : Req) (s : State) : Out := .next (runOp opSecyAlloc q s)
/-- SECY_WRITE (R97). -/
def execSecyWrite (q : Req) (s : State) : Out := .next (runOp opSecyWrite q s)
/-- RX_SC_WRITE (R96). -/
def execRxScWrite (q : Req) (s : State) : Out := .next (runOp opRxScWrite q s)
/-- SA_INSTALL (R98). -/
def execSaInstall (q : Req) (s : State) : Out := .next (runOp opSaInstall q s)
/-- SA_SWITCH (R99). -/
def execSaSwitch (q : Req) (s : State) : Out := .next (runOp opSaSwitch q s)
/-- SA_DELETE (R98). -/
def execSaDelete (q : Req) (s : State) : Out := .next (runOp opSaDelete q s)

end Sys2Proof.Machine
end

