-- ==== Sys2Proof/Machine/Trust.lean ====
section
/-!
DEFINITION. Trust, attestation and the key store (R458 to R477): the SPDM exchanges and the sessions, SECURED, the owner
claim, cut-signing keys, key-store slots, and the requests of the management port.
-/
namespace Sys2Proof.Machine

/-! ## Identity and measurements (R436, R464, R465) -/

/-- The compartment definition of `c` as a 64-byte record (R436); of an undefined compartment all zero (R582). -/
def cmpDefBytes (s : State) (c : Nat) : List Byte :=
  let x := cmpOf s c
  if x.defined then
    packLE [(1, c), (1, 1 + 2 * b2n x.frozen), (2, 0), (4, x.pasid), (4, x.actQuota), (4, x.dataQuota), (2, x.psetQuota),
      (2, x.odgQuota), (2, x.grvQuota), (2, 0), (4, x.emQuota), (4, x.emSquota), (4, x.trieQuota), (4, tlyPages (tlyOf s c))] ++
      packLE [(8, x.region.toNat), (2, (s.cmp.att.filter (fun a => a.cid == c)).length), (2, x.rotation.toNat), (12, 0)]
  else zeros 64

/-- The lifecycle byte (R464). -/
def lifecycle (s : State) : Nat := b2n s.trust.claimed + 2 * b2n s.trust.factorySeen

/-- The bytes of the image that runs: the factory's are not the manual's to give. -/
def fwBytes (s : State) : List Byte := if (fwRunning s).bytes.isEmpty then Config.crypto 22 [] else (fwRunning s).bytes

/-- A measurement block (R464). -/
def measBlock (s : State) (i : Nat) : List Byte :=
  if i = 1 then padTo 48 (Config.crypto 21 [])
  else if i = 2 then
    -- In ROM recovery no image runs: the model gives zeros (log entry 129).
    if s.trust.recovery then zeros 49 ++ leBytes 1 s.trust.rollback
    else digest (fwBytes s) ++ packLE [(1, (fwRunning s).secVersion), (1, s.trust.rollback)]
  else if i = 3 then (s.par.base.map (fun b => digest b.bytes)).getD (zeros 48)
  else if i = 4 then (if s.trust.claimed then digest s.trust.ownerKeys.flatten else zeros 48)
  else if i = 5 then packLE [(1, lifecycle s), (4, s.trust.tamper)]
  else if i = 6 then digest (calPage s)
  else if 0x10 ≤ i ∧ i < 0x30 ∧ cmpDefined s (i - 0x10) then
    digest (cmpDefBytes s (i - 0x10) ++ tget [] s.trust.binding (k1 (i - 0x10)) ++
      ((imgOfCmp s (i - 0x10)).map (fun k => digest k.section_)).getD (zeros 48))
  else zeros 48

/-- IDENTITY_READ (R465). -/
def opIdentityRead : LOp :=
  { op := .identityRead, snap := true,
    now := fun s _ =>
      { st := s, ring := s.ring,
        data := packLE [(4, 0x640), (1, match s.variant with | .f => 0 | .m => 1 | .e => 2), (1, lifecycle s), (2, fwVersion s)] ++
          beBytes 16 (Config.fuse 0).toNat ++ beBytes 16 (Config.fuse 1).toNat ++ beBytes 16 (Config.fuse 2).toNat ++
          packLE [(1, s.trust.rollback), (7, 0)] } }

/-! ## Sessions (R463, R466, R467) -/

/-- The state of the SPDM exchange on a transport: 0 to 31 a compartment's mailbox, 32 the management port. -/
def spdmOf (s : State) (tr : Nat) : SpdmSt := tget {} s.trust.spdm (k1 tr)
/-- Replace it. -/
def setSpdm (tr : Nat) (x : SpdmSt) (s : State) : State :=
  { s with trust := { s.trust with spdm := tput {} s.trust.spdm (k1 tr) x } }

/-- A requester's key is accepted (R466). -/
def keyAccepted (s : State) (tr : Nat) (key : List Byte) : Bool :=
  if tr = 0 ∨ tr = 32 then s.trust.ownerKeys.contains key
  else
    let b := tget [] s.trust.binding (k1 tr)
    b.isEmpty || b == key

/-- A message of a session has been read. -/
def sessMsg (tr : Nat) (s : State) : State :=
  { s with trust := { s.trust with
      sess := tmod none s.trust.sess (k1 tr) (fun o => o.map (fun x => { x with lastMsg := s.ran })) } }

/-- A key fails (R466): counted, and a NOTE. -/
def authFail (tr : Nat) (s : State) : State :=
  note 0x47 0x0E01 (if tr < 32 then tr else 0) [] (cnt .secAuthFail 0 0 1 s)

/-- A successful FINISH (R466, R467): the older session ends, and an unbound compartment is bound to the key. -/
def openSession (tr : Nat) (key : List Byte) (s : State) : State :=
  let bind := decide (0 < tr) && decide (tr < 32) && (tget [] s.trust.binding (k1 tr)).isEmpty
  { s with freeCtr := s.freeCtr + 1, trust := { s.trust with
      sess := tput none s.trust.sess (k1 tr) (some { key := key, lastMsg := s.ran, ems := s.freeCtr }),
      binding := if bind then tput [] s.trust.binding (k1 tr) key else s.trust.binding,
      spdm := tmod {} s.trust.spdm (k1 tr) (fun x => { x with offered := none, keyEx := false }) } }

/-- A transport serves SPDM requests: in HALTED and in ROM recovery the management port alone (R460, R498). -/
def transportOpen (s : State) (tr : Nat) : Bool := (tr == 32 && s.pwr.on) || ((mbxOf s tr).enabled && !dmaStopped s)

/-- The six requests that HALTED answers (R498). -/
def haltedAnswers : Spdm → Bool
  | .getVersion | .getCapabilities | .negotiate | .getDigests | .getCertificate _ | .getMeasurements _ => true
  | .challenge | .keyOffer _ | .keyExchange | .finish _ | .heartbeat | .keyUpdate | .endSession | .other => false

/-- A response message: version 1.3 and its code (DSP0274), its first parameter, and what it carries. -/
def spdmMsgP (code param : Nat) (body : List Byte) : List Byte := packLE [(1, 0x13), (1, code), (1, param), (1, 0)] ++ body

/-- A response message without a parameter. -/
def spdmMsg (code : Nat) (body : List Byte) : List Byte := spdmMsgP code 0 body

/-- CAPABILITIES (R463; log entry 118): CERT, CHAL, MEAS with signature, ENCRYPT, MAC, MUT_AUTH, KEY_EX, HBEAT and KEY_UPD, and no
PSK. The manual gives neither the timing exponent nor the two sizes. -/
def spdmCaps : List Byte :=
  let open_ := padTo 9 (Config.crypto 23 [])
  zeros 1 ++ open_.take 1 ++ zeros 2 ++ leBytes 4 0x63D6 ++ open_.drop 1

/-- ALGORITHMS (R463; log entry 118): ECDSA P-384 and SHA-384 for signatures and measurements, DHE on secp384r1, AES-256-GCM; the
requester signs with ECDSA P-384 too, and the key schedule is SPDM's own. -/
def spdmAlgs : List Byte :=
  packLE [(2, 52), (1, 1), (1, 0), (4, 4), (4, 0x80), (4, 2), (8, 0), (8, 0)] ++
    packLE [(2, 0x2002), (2, 0x10), (2, 0x2003), (2, 2), (2, 0x2004), (2, 0x80), (2, 0x2005), (2, 1)]

/-- A certificate chain in the SPDM form (R458, R463): slot 0 runs from the Brinaton root to the device identity key; slot 1 is that chain
with the wrap-key certificate after it, which the device identity key signs and which carries the usage extension and the serial
number. The certificates themselves are not the manual's to give. -/
def certChain (slot : Nat) : List Byte :=
  let serial := beBytes 16 (Config.fuse 0).toNat
  let certs := Config.crypto 26 [] ++ Config.crypto 33 [serial, Config.publicOf (Config.fusedKey 0)] ++
    (if slot = 1 then Config.crypto 34 [Config.publicOf (Config.fusedKey 1), ascii "wrap-key usage", serial, Config.fusedKey 0] else [])
  packLE [(2, 52 + certs.length), (2, 0)] ++ padTo 48 (Config.fusedKey 2) ++ certs

/-- The requests that set up or keep a session, none of which ROM recovery admits (R460). -/
def sessionRequest : Spdm → Bool
  | .keyOffer _ | .keyExchange | .finish _ | .heartbeat | .keyUpdate | .endSession | .other => true
  | .getVersion | .getCapabilities | .negotiate | .getDigests | .getCertificate _ | .challenge | .getMeasurements _ => false

/-- R469 does not admit the request: in ROM recovery anything but attestation, KEY_OFFER inside a session, and what the management
port does not list. -/
def notAdmitted (tr : Nat) (inside : Bool) (m : Spdm) (s : State) : Bool :=
  (s.trust.recovery && sessionRequest m) ||
    match m with
    | .keyOffer _ => inside
    | .other => tr == 32
    | _ => false

/-- Carry out one SPDM request on a transport, `inside` a session or not: the response message, none for an SPDM ERROR, and the state
after it. -/
def spdm (tr : Nat) (inside : Bool) (m : Spdm) (s : State) : Option (List Byte) × State :=
  let x := spdmOf s tr
  if halted s && !haltedAnswers m then (none, s)
  else if notAdmitted tr inside m s then (none, cnt .secReqDenied 0 0 1 s)
  else
    match m with
    | .getVersion => (some (spdmMsg 0x04 (packLE [(1, 0), (1, 1), (2, 0x1300)])), setSpdm tr { version := true } s)
    | .getCapabilities =>
      if x.version then (some (spdmMsg 0x61 spdmCaps), setSpdm tr { x with caps := true } s) else (none, s)
    | .negotiate =>
      if x.caps then (some (spdmMsgP 0x63 4 spdmAlgs), setSpdm tr { x with algs := true } s) else (none, s)
    | .getDigests => if x.algs then (some (spdmMsgP 0x01 3 (digest (certChain 0) ++ digest (certChain 1))), s) else (none, s)
    | .getCertificate slot => if x.algs && decide (slot < 2) then (some (spdmMsgP 0x02 slot (certChain slot)), s) else (none, s)
    | .challenge => if x.algs then (some (spdmMsg 0x03 (Config.crypto 27 [Config.fusedKey 0])), s) else (none, s)
    | .getMeasurements i => if x.algs then (some (spdmMsg 0x60 (measBlock s i.toNat)), s) else (none, s)
    | .keyOffer key =>
      if !x.algs then (none, s)
      else if keyAccepted s tr key then (some (spdmMsg 0x7E []), setSpdm tr { x with offered := some key, keyEx := false } s)
      else (none, authFail tr s)
    | .keyExchange =>
      if x.offered.isSome then (some (spdmMsgP 0x64 30 (Config.crypto 28 [Config.fusedKey 0])), setSpdm tr { x with keyEx := true } s) else (none, s)
    | .finish ok =>
      match x.offered with
      | some key =>
        if x.keyEx && ok then
          if keyAccepted s tr key then (some (spdmMsg 0x65 []), openSession tr key s) else (none, authFail tr s)
        else (none, s)
      | none => (none, s)
    | .heartbeat => if (session s tr).isSome then (some (spdmMsg 0x68 []), sessMsg tr s) else (none, s)
    | .keyUpdate => if (session s tr).isSome then (some (spdmMsg 0x69 []), sessMsg tr s) else (none, s)
    | .endSession => if (session s tr).isSome then (some (spdmMsg 0x6C []), closeSession tr s) else (none, s)
    | .other => (none, s)

/-- The bytes of a reply; an SPDM ERROR has code 0x7F. -/
def spdmBytes (r : Option (List Byte)) : List Byte := r.getD (packLE [(1, 0x13), (1, 0x7F), (1, 1), (1, 0)])

/-- An SPDM request arrives on a transport: the reply of the management port is kept; that of a mailbox travels as the
response data of its SPDM command. -/
def spdmRow (tr : Nat) (inside : Bool) (m : Spdm) (s : State) : State :=
  if transportOpen s tr then
    let (r, t) := spdm tr inside m s
    if tr = 32 then
      let rsp : Rsp := { status := if r.isSome then .ok else .denied, data := spdmBytes r }
      { t with host := { t.host with mgmtReply := some { rsp := rsp } } }
    else t
  else s

/-- SPDM (R399). -/
def opSpdm (m : Spdm) : LOp :=
  { op := .spdm,
    now := fun s q =>
      let (r, t) := spdm q.c q.inner m s
      { st := t, ring := s.ring, data := spdmBytes r } }

/-- A session without a message for 60 s ends (R467). -/
def sessionTimeout (tr : Nat) (s : State) : State :=
  match session s tr with
  | some x => if x.lastMsg + 60000000 ≤ s.ran then closeSession tr s else s
  | none => s

/-- SECURED's own checks (R399, R467): the session is open and its message authenticates. -/
def opSecured : LOp := { op := .secured, owns := fun s q => (session s q.c).isSome && q.auth && !q.inner }

/-- The checks of R398 that the plaintext of a secured message goes through again (R399, log entry 20): a plaintext shorter
than a header is refused with RANGE. -/
def innerCheck (s : State) (q : Req) : Status :=
  if q.payload.length < 64 then .range else headCheck true s q.c (q.payload.take 64) (q.payload.drop 64) true

/-- The response of an inner command that fails steps 1 to 8 of R398: `CID` and `FLAGS` [1] are its own (R395). -/
def innerRefusal (q : Req) (st : Status) : Rsp :=
  { op := leAt q.payload 4 2, inner := bit (BitVec.ofNat 8 (leAt q.payload 3 1)) 1, status := st,
    tag := BitVec.ofNat 32 (leAt q.payload 8 4), cid := some (leAt q.payload 12 1) }

/-- The SECURED command whose message is next in count order (R399): the first one read that has not been opened. One whose reading is
not shown waits for none (log entry 18). -/
def nextSecured (s : State) (q : Req) : Bool :=
  let l := (mbxOf s q.c).reads.filter (fun e => e.op == 0x0E01 && e.ans.isNone)
  match l.find? (fun e => !e.begun) with
  | some e => e.tag == q.tag
  | none => !l.any (fun e => e.tag == q.tag)

/-- The first message of SECURED that has not been opened is opened. -/
def beginSecured : List ReadEnt → List ReadEnt
  | [] => []
  | e :: r => if e.op = 0x0E01 ∧ e.ans.isNone ∧ !e.begun then { e with begun := true } :: r else e :: beginSecured r

/-- An inner command is held for its `NOT_BEFORE` (R398); v of its SECURED command becomes that ring, at which it is
validated. -/
def holdInner (q : Req) (so : SecOpen) (s : State) : State :=
  let nb := leAt q.payload 16 8
  modMbx q.c (fun m => { m with
    held := some { tag := q.tag, op := 0x0E01, notBefore := nb, arg1 := 0, sec := some so },
    reads := m.reads.map (fun e => if e.tag = q.tag ∧ e.op = 0x0E01 ∧ e.ans.isNone then { e with v := nb } else e) }) s

/-- SECURED: the inner command goes through R398 again; it then follows, and its response answers this one (R399). -/
def runSecured (q : Req) (s : State) : State :=
  if served s q && nextSecured s q && (mbxOf s q.c).secOpen.isNone then
    let s := modMbx q.c (fun m => { m with reads := beginSecured m.reads }) (finishJobs q.c s)
    let v := vOf s q .secured
    match admission opSecured v s q with
    | .ok =>
      let so : SecOpen := { tag := q.tag, outAddr := q.outAddr, outLen := q.outLen.toNat, sess := ((session s q.c).map Sess.ems).getD 0 }
      match innerCheck s q with
      | .ok =>
        if s.ring < leAt q.payload 16 8 then holdInner q so (sessMsg q.c s)
        else modMbx q.c (fun m => { m with secOpen := some so }) (sessMsg q.c s)
      | st => sealAnswer q.c so v (innerRefusal q st) none (sessMsg q.c s) (sessMsg q.c s)
    | st => answer .secured q v s (refuse st s)
  else s

/-! ## OWNER_ENROL (R462) -/

/-- The prime and the constant of P-384. -/
def p384 : Nat := 2 ^ 384 - 2 ^ 128 - 2 ^ 96 + 2 ^ 32 - 1
def b384 : Nat := 0xb3312fa7e23ee7e4988e056be3f82d19181d9c6efe8141120314088f5013875ac656398d8a2ed19d2a85c8edd3ec2aef

/-- A public key lies on the curve (R458). -/
def onCurve (k : List Byte) : Bool :=
  let x := beAt k 0 48
  let y := beAt k 48 48
  decide (x < p384) && decide (y < p384) && (y * y) % p384 == (x * x * x + (p384 - 3) * x + b384) % p384

/-- The keys of an owner key list. -/
def keysOf (l : List Byte) : List (List Byte) := recordsOf 96 (l.drop 8)

/-- OWNER_ENROL. -/
def opOwnerEnrol : LOp :=
  { op := .ownerEnrol, owns := fun s _ => !s.trust.claimed,
    args := fun _ q =>
      let n := leAt q.payload 0 1
      firstBad [
        (n != 0, .zeroLen), (decide (n ≤ 4), .range), (q.payload.length == 8 + 96 * n, .range),
        ((keysOf q.payload).all onCurve, .range)] }

/-- The keys and the claimed flag are written; the lifecycle byte tells of factory test mode since the claim (R464). -/
def landOwnerEnrol (i : Item) (s : State) : Ans :=
  if s.trust.claimed then refuse .denied s
  else
    { st := { s with trust := { s.trust with ownerKeys := keysOf i.req.payload, claimed := true, factorySeen := false } }, ring := s.ring }

/-! ## Keys (R470 to R475) -/

/-- CUT_KEY_SET (R475). -/
def opCutKeySet : LOp :=
  { op := .cutKeySet, pre := fun s q => if (liveCuts s q.c).any (fun x => x.state == 0) then .busy else .ok }

/-- The key applies; zero bytes clear it. -/
def landCutKeySet (i : Item) (s : State) : Ans :=
  let k := if allZero i.req.payload then [] else i.req.payload
  { st := { s with trust := { s.trust with cutKey := tput [] s.trust.cutKey (k1 i.req.c) k } }, ring := s.ring }

/-- Slots that a compartment holds. -/
def keysHeld (s : State) (c : Nat) : Nat := (s.trust.keys.filter (fun e => e.2.owner == some c)).length
/-- Slots in use. -/
def keysUsed (s : State) : Nat := (s.trust.keys.filter (fun e => e.2.owner.isSome)).length

/-- The first free slot at or after `i`, cyclically. -/
def freeSlotFrom (s : State) : Nat → Nat → Option Nat
  | 0, _ => none
  | fuel + 1, i => if (keySlot s i).owner.isNone then some i else freeSlotFrom s fuel ((i + 1) % 8192)

/-- Install a key in a free slot (R470): its handle. Which free slot is not the manual's to say: a free value. -/
def installKey (c typ : Nat) (exp : Bool) (key : List Byte) (s : State) : Option (Nat × State) :=
  if 1024 ≤ keysHeld s c then none
  else
    let (n, s) := freshFree s
    match freeSlotFrom s 8192 (n % 8192) with
    | some i =>
      let s := setKeySlot i { (keySlot s i) with owner := some c, typ := typ, exportable := exp, key := key } s
      some (handleOf s i, s)
    | none => none

/-- Fields of `KWR` (R471). -/
def kwForm (q : Req) : Nat := leAt q.payload 4 1
def kwType (q : Req) : Nat := leAt q.payload 5 1
def kwLen (q : Req) : Nat := leAt q.payload 8 4

/-- The key and the IV of a wrapping (R472): `z` is the ECDH secret, `purpose` 1 for a key record and 2 for a save blob. -/
def wrapKey (nonce z : List Byte) (purpose : Nat) (target : List Byte) : List Byte × List Byte :=
  let k := padTo 44 (Config.hkdf nonce z (ascii "fis64 wrap" ++ leBytes 1 purpose ++ target) 44)
  (k.take 32, k.drop 32)

/-- Wrap contents for the public key `w` (R472): the ephemeral public key, the ciphertext and the tag. The ephemeral key pair is drawn: a
free value. -/
def wrapBody (w nonce : List Byte) (purpose : Nat) (target aad text : List Byte) (s : State) : List Byte × List Byte × List Byte × State :=
  let (e, s) := freshFree s
  let priv := leBytes 48 e
  let (k, iv) := wrapKey nonce (Config.ecdh priv w) purpose target
  let ct := padTo text.length (Config.gcmText k iv text)
  (padTo 96 (Config.publicOf priv), ct, padTo 16 (Config.gcmTag k iv aad ct), s)

/-- The key that a wrapped-key record of this module carries (R471, R472). -/
def unwrapKey (p : List Byte) (n : Nat) : List Byte :=
  let z := Config.ecdh (Config.fusedKey 1) (slice p 32 96)
  let (k, iv) := wrapKey (slice p 128 12) z 1 (slice p 16 16)
  padTo n (Config.gcmText k iv (slice p 140 n))

/-- KEY_INSTALL. -/
def opKeyInstall : LOp :=
  { op := .keyInstall,
    args := fun _ q =>
      firstBad [
        (decide (32 ≤ q.payload.length) && leAt q.payload 0 4 == 0x4B575250, .range), (decide (kwForm q ≤ 1), .range),
        (kwType q == 1 || kwType q == 2, .range), (kwLen q != 0, .zeroLen), (kwLen q == (if kwType q = 1 then 32 else 44), .range),
        (kwForm q == 1 || allZero (slice q.payload 16 16), .range),
        (q.payload.length == 32 + kwLen q + (if kwForm q = 1 then 124 else 0), .range)],
    pre := fun s q =>
      firstBad [
        (kwForm q == 0 || (q.auth && slice q.payload 16 16 == beBytes 16 (Config.fuse 2).toNat), .badSig),
        (decide (keysHeld s q.c < 1024) && decide (keysUsed s < 8192), .noSpace)],
    now := fun s q =>
      let key := if kwForm q = 0 then q.payload.drop 32 else unwrapKey q.payload (kwLen q)
      match installKey q.c (kwType q) (leAt q.payload 6 1 % 2 == 1) key s with
      | some (h, t) => { st := t, ring := s.ring, value := h }
      | none => refuse .noSpace s }

/-- An association in use names the handle. -/
def handleInUse (s : State) (h : Nat) : Bool := s.link.secy.any (fun e => e.2.sas.any (fun a => a.inUse && a.handle == h))

/-- The associations of a compartment that name a handle never come into use again: its key is deleted (R474). -/
def killSas (c h : Nat) (s : State) : State :=
  let mark (y : SecY) : SecY := { y with sas := y.sas.map (fun a => if a.handle == h then { a with dead := true } else a) }
  { s with link := { s.link with secy := s.link.secy.map (fun e =>
      if secyAllocated e.2 && secyCid e.2 == c then (e.1, mark e.2) else e) } }

/-- KEY_DELETE (R474). -/
def opKeyDelete : LOp :=
  { op := .keyDelete, owns := fun s q => handleOk s q.c q.arg1.toNat,
    pre := fun s q => if handleInUse s q.arg1.toNat then .busy else .ok,
    now := fun s q =>
      let i := handleSlot q.arg1.toNat
      { st := setKeySlot i (freedSlot (keySlot s i)) (killSas q.c q.arg1.toNat s), ring := s.ring } }

/-- A certificate payload is accepted (R472): its verification is the environment's. -/
def certOk (q : Req) : Bool := q.auth && decide (q.payload.length ≤ 4096)

/-- The public wrap key that a certificate payload carries, and its identifier. -/
def certKey (l : List Byte) : List Byte := padTo 96 (Config.crypto 10 [l])
def certKeyId (l : List Byte) : List Byte := (digest (certKey l)).take 16

/-- KEY_EXPORT (R473). -/
def opKeyExport : LOp :=
  { op := .keyExport,
    owns := fun s q => handleOk s q.c q.arg1.toNat && (keySlot s (handleSlot q.arg1.toNat)).exportable,
    pre := fun _ q => if certOk q then .ok else .badSig,
    now := fun s q =>
      let k := keySlot s (handleSlot q.arg1.toNat)
      let head := packLE [(4, 0x4B575250), (1, 1), (1, k.typ), (1, b2n k.exportable), (1, 0), (4, k.key.length), (4, 0)] ++
        certKeyId q.payload
      let (n, t) := freshFree s
      let nonce := leBytes 12 n
      let (eph, ct, tag, t) := wrapBody (certKey q.payload) nonce 1 (certKeyId q.payload) head k.key t
      { st := t, ring := s.ring, data := head ++ eph ++ nonce ++ ct ++ tag } }

/-- Every slot, the cut-signing key and the sessions of a compartment are deleted (R444). -/
def dropKeys (c : Nat) (s : State) : State :=
  let s := closeSession c (if c = 0 then closeSession 32 (setSpdm 32 {} s) else s)
  let s := setSpdm c {} s
  { s with trust := { s.trust with
      keys := (s.trust.keys.map (fun e => if e.2.owner = some c then (e.1, freedSlot e.2) else e)).filter
        (fun e => e.2 ≠ ({} : KeySlot)),
      cutKey := tput [] s.trust.cutKey (k1 c) [] } }

/-! ## The management port (R460, R469) -/

/-- A request that is not admitted (R469): an SPDM ERROR, counted. -/
def mgmtDeny (s : State) : State :=
  cnt .secReqDenied 0 0 1 { s with host := { s.host with mgmtReply := some { rsp := { status := .denied, data := spdmBytes none } } } }

/-- A request is answered with data. -/
def mgmtOk (data : List Byte) (s : State) : State :=
  { s with host := { s.host with mgmtReply := some { rsp := { data := data } } } }

/-- FW_LOAD (R460, R469): the image is written to the slot not running; `valid` is what its signature is worth at the
next boot. -/
def fwLoad (tr : Nat) (valid : Bool) (sec : Nat) (image : FwImage) (s : State) : State :=
  let x : FwSlot := { valid := valid, secVersion := sec, version := image.version, bytes := image.bytes }
  let ok := if s.trust.recovery then tr == 32 else (tr == 0 || tr == 32) && (session s tr).isSome
  if halted s then s
  else if ok then
    let s := sessMsg tr s
    let s := { s with trust := if s.trust.runB then { s.trust with fwA := x } else { s.trust with fwB := x } }
    if tr = 32 then mgmtOk [] s else s
  else if tr = 32 then mgmtDeny s else cnt .secReqDenied 0 0 1 s

/-- CID0_PASID_SET (R469): refused while CID 0's mailbox is enabled or the PASID is bound elsewhere. -/
def pasidSet (pasid : Nat) (s : State) : State :=
  if halted s then s
  else if s.trust.recovery || (session s 32).isNone then mgmtDeny s
  else
    let s := sessMsg 32 s
    if (mbxOf s 0).enabled || (allCids.drop 1).any (fun c => cmpDefined s c && (cmpOf s c).pasid == pasid) then
      { s with host := { s.host with mgmtReply := some { rsp := { status := .denied, data := spdmBytes none } } } }
    else mgmtOk [] { s with trust := { s.trust with pasidNext := some pasid } }

/-- The PASID applies at the boundary. -/
def pasidApply (s : State) : State :=
  match s.trust.pasidNext with
  | some p => modCmp 0 (fun c => { c with pasid := p }) { s with trust := { s.trust with pasidNext := none } }
  | none => s

/-! ## Meanings -/

/-- IDENTITY_READ (R465). -/
def execIdentityRead (q : Req) (s : State) : Out := .next (runOp opIdentityRead q s)
/-- SPDM (R399). -/
def execSpdm (q : Req) (m : Spdm) (s : State) : Out := .next (runOp (opSpdm m) q s)
/-- SECURED (R399). -/
def execSecured (q : Req) (s : State) : Out := .next (runSecured q s)
/-- OWNER_ENROL (R462). -/
def execOwnerEnrol (q : Req) (s : State) : Out := .next (runOp opOwnerEnrol q s)
/-- CUT_KEY_SET (R475). -/
def execCutKeySet (q : Req) (s : State) : Out := .next (runOp opCutKeySet q s)
/-- KEY_INSTALL (R471). -/
def execKeyInstall (q : Req) (s : State) : Out := .next (runOp opKeyInstall q s)
/-- KEY_DELETE (R474). -/
def execKeyDelete (q : Req) (s : State) : Out := .next (runOp opKeyDelete q s)
/-- KEY_EXPORT (R473). -/
def execKeyExport (q : Req) (s : State) : Out := .next (runOp opKeyExport q s)
/-- KEY_OFFER (R466). -/
def execKeyOffer (via : SpdmVia) (key : List Byte) (s : State) : Out := .next (spdmRow via.tr.val via.inside (.keyOffer key) s)
/-- KEY_EXCHANGE (R463). -/
def execKeyExchange (tr : Fin 33) (s : State) : Out := .next (spdmRow tr.val false .keyExchange s)
/-- FINISH (R466, R467). -/
def execFinish (tr : Fin 33) (ok : Bool) (s : State) : Out := .next (spdmRow tr.val false (.finish ok) s)
/-- END_SESSION (R467). -/
def execEndSession (tr : Fin 33) (s : State) : Out := .next (spdmRow tr.val false .endSession s)
/-- SESSION_TIMEOUT (R467). -/
def execSessionTimeout (tr : Fin 33) (s : State) : Out := .next (sessionTimeout tr.val s)
/-- GET_MEASUREMENTS (R464). -/
def execGetMeasurements (tr : Fin 33) (index : BitVec 8) (s : State) : Out := .next (spdmRow tr.val false (.getMeasurements index) s)
/-- GET_CERTIFICATE (R463). -/
def execGetCertificate (tr : Fin 33) (slot : Nat) (s : State) : Out := .next (spdmRow tr.val false (.getCertificate slot) s)
/-- GET_VERSION (R463). -/
def execGetVersion (tr : Fin 33) (s : State) : Out := .next (spdmRow tr.val false .getVersion s)
/-- GET_CAPABILITIES (R463). -/
def execGetCapabilities (tr : Fin 33) (s : State) : Out := .next (spdmRow tr.val false .getCapabilities s)
/-- NEGOTIATE_ALGORITHMS (R463). -/
def execNegotiateAlgorithms (tr : Fin 33) (s : State) : Out := .next (spdmRow tr.val false .negotiate s)
/-- GET_DIGESTS (R463). -/
def execGetDigests (tr : Fin 33) (s : State) : Out := .next (spdmRow tr.val false .getDigests s)
/-- FW_LOAD (R460, R469). -/
def execFwLoad (tr : Fin 33) (valid : Bool) (secVersion : Fin 64) (image : FwImage) (s : State) : Out :=
  .next (fwLoad tr.val valid secVersion.val image s)
/-- CID0_PASID_SET (R469). -/
def execCid0PasidSet (pasid : BitVec 20) (s : State) : Out := .next (pasidSet pasid.toNat s)

end Sys2Proof.Machine
end

