-- ==== Sys2Proof/Machine/Compart.lean ====
section
/-!
DEFINITION. Compartments (R435 to R457, R582): definitions and quotas, attachments, rotation changes and compartment
reset, freeze and thaw, save and restore, deletion.
-/
namespace Sys2Proof.Machine

/-! ## Events (R454) -/

/-- Kinds of CMP_STATE. -/
def kFrozen : Nat := 1
def kThawed : Nat := 2
def kReset : Nat := 3
def kSaved : Nat := 4
def kRestored : Nat := 5
def kEmpty : Nat := 6
def kDeleted : Nat := 7

/-- CMP_STATE of compartment `c`: to CID 0 and, but for DELETED, to the compartment. -/
def cmpState (c kind old mode gone notRestored : Nat) (s : State) : State :=
  let body := packLE [(8, s.ring), (1, c), (1, kind), (2, (cmpOf s c).rotation.toNat), (2, old), (1, mode), (1, 0), (4, gone),
    (4, notRestored)]
  postTo (if c = 0 ∨ kind = kDeleted then [0] else [0, c]) 0x0D01 body s

/-- The present rotation as a number. -/
def rotNow (s : State) (c : Nat) : Nat := (cmpOf s c).rotation.toNat

/-! ## Rotation changes (R443, R406, R423) -/

/-- The opcode and tag that a command read has in its mailbox: those of its SECURED command, if one carries it. -/
def itemId (i : Item) : BitVec 32 × Nat :=
  if i.req.inner then ((i.sec.map SecOpen.tag).getD 0, 0x0E01) else (i.req.tag, opCode i.op)

/-- The mailbox at a rotation change (R406): commands read without a response are discarded and counted, but for the
command whose landing is the change (R423, R434). -/
def mbxRotate (c old : Nat) (keep : Option (BitVec 32 × Nat)) (s : State) : State :=
  let m := mbxOf s c
  let mine (e : ReadEnt) : Bool := keep.any (fun k => e.tag = k.1 && e.op == k.2)
  let n := (m.reads.filter (fun e => !mine e)).length + heldNum m
  let s := modMbx c (fun m => { m with reads := m.reads.filter mine, held := none, secOpen := none, late := [] }) s
  post c 0x0002 (packLE [(8, s.ring), (2, rotNow s c), (2, old), (4, n), (4, m.cmdHead.toNat)]) (cnt .mbxRotDiscard c 0 n s)

/-- The accepted commands that a compartment sent are discarded at its rotation change (R423), and its grove writes that
wait. A pending MODE_SET is kept, as the table of R514 has it (DEDUCED, log entry 126). -/
def dropItems (c : Nat) (s : State) : State :=
  dropReads (fun j => j.req.c == c) { s with items := s.items.filter (fun i => i.req.c != c || i.op == .modeSet), grv := { s.grv with jobs := s.grv.jobs.filter (fun j => j.req.c != c) } }

/-- The copies of a compartment's old rotation leave the VOQs, the engines and the scheduler (R28, R242, R276, R322);
those in DRAM are discarded as they are read (R315). -/
def dropStale (c : Nat) (s : State) : State :=
  let old (t : State) (x : Copy) : Bool := stCid x.fi.stamp == c && stale t x
  let s := removeVoqs (fun _ => true) (old s) (discardQueued .cmpStaleFrames c 0 1) s
  let s := kerfRotate c s
  removeSched (fun k => k.2.2 == c) (old s) (discardDone .cmpStaleFrames c 0 1) s

/-- A rotation change of compartment `c` with what comes with every one: at most one at a boundary (R443). -/
def cmpRotate (c : Nat) (keep : Option (BitVec 32 × Nat)) (s : State) : State :=
  if (cmpOf s c).rotRing = s.ran then s
  else
    let old := rotNow s c
    let s := modCmp c (fun x => { x with rotation := x.rotation + 1, rotRing := s.ran }) s
    mbxRotate c old keep (tallyRotate c (dropItems c (dropStale c s)))

/-- Learned entries, requests, ticks and posts of a compartment are removed (R166, R178). -/
def dropLearned (c : Nat) (s : State) : State :=
  let n := (s.em.reqs.filter (fun r => r.cid == c)).length
  let ents := s.em.ents.filter (fun e => !(e.learned && e.cid == c))
  let reqs := s.em.reqs.filter (fun r => r.cid != c)
  let ticks := s.em.ticks.filter (fun t => t.cid != c)
  let posts := s.em.posts.filter (fun p => p.ent.cid != c)
  cnt .emLearnStale c 0 n { s with em := { s.em with ents := ents, reqs := reqs, ticks := ticks, posts := posts } }

/-- The check units that a compartment owns return to `x` (R384, R453). -/
def resetCv (c : Nat) (x : Cv) (s : State) : State :=
  let cv := s.cap.cv.map (fun e => if e.2.owner = c then (e.1, x) else e)
  { s with cap := { s.cap with cv := cv.filter (fun e => e.2 ≠ ({} : Cv)) } }

/-- A compartment reset (R444): counters and the abort frame are cleared first; then the rotation changes, and what the
compartment holds is lost. -/
def cmpReset (c : Nat) (keep : Option (BitVec 32 × Nat)) (s : State) : State :=
  if (cmpOf s c).rotRing = s.ran then s
  else
    let s := clearCmpCtrs c { s with krf := { s.krf with abort := tput none s.krf.abort (k1 c) none,
                                                         abortEvt := tput {} s.krf.abortEvt (k1 c) {} } }
    let s := dropLearned c (discardCuts c (dropKeys c (loseSecys (fun x => x == c) s)))
    let s := { s with pair := { s.pair with queue := s.pair.queue.filter (fun n => n.2.1 != c) } }
    let s := resetCv c { owner := c } (modTly c (fun t => { t with cfg := setFld t.cfg 4 0 0 }) s)
    cmpRotate c keep s

/-! ## Definitions (R435 to R438) -/

/-- The definition that a payload describes, over what the compartment holds already; `region` is applied by CMP_DEFINE
alone (R436). -/
def defOf (l : List Byte) (region : Bool) (x : Cmp) : Cmp :=
  { x with pasid := leAt l 4 4, actQuota := leAt l 8 4, dataQuota := leAt l 12 4, psetQuota := leAt l 16 2,
           odgQuota := leAt l 18 2, grvQuota := leAt l 20 2, emQuota := leAt l 24 4, emSquota := leAt l 28 4,
           trieQuota := leAt l 32 4, region := if region then regionRec (slice l 40 8) else x.region }

/-- A definition's quotas are non-zero (R437 step 3); on a FIS-64-E that of the Grove dies is 0. -/
def defZero (v : Variant) (d : Cmp) : Status :=
  firstBad [
    (v ≠ .e || d.grvQuota == 0, .absent),
    (d.actQuota != 0 && d.dataQuota != 0 && d.psetQuota != 0 && d.odgQuota != 0 && d.emQuota != 0 && d.emSquota != 0 &&
      d.trieQuota != 0 && (v = .e || d.grvQuota != 0), .zeroLen)]

/-- Its quotas are in range and its reserved bytes are zero (R437 step 4). -/
def defRange (l : List Byte) (d : Cmp) : Bool :=
  decide (d.actQuota ≤ 131072) && decide (d.dataQuota ≤ 98304) && decide (d.psetQuota ≤ 4096) && decide (d.odgQuota ≤ 64) &&
    decide (d.grvQuota ≤ 512) && decide (d.emQuota ≤ 1048576) && decide (d.emSquota ≤ 2097152) &&
    decide (d.trieQuota ≤ 2097152) && decide (d.pasid < 2 ^ 20) && allZero (slice l 2 2) && allZero (slice l 22 2) &&
    allZero (slice l 52 12)

/-- No quota falls below the compartment's current use (R437 step 7). -/
def defUse (s : State) (c : Nat) (d : Cmp) : Bool :=
  let bs := bodiesOf s c
  decide (distinct (bs.flatMap (fun b => uidsOf b.acts)) ≤ d.actQuota) &&
    decide (distinct (bs.flatMap (fun b => uidsOf b.data)) ≤ d.dataQuota) &&
    decide (distinct (bs.flatMap (fun b => uidsOf b.psets)) ≤ d.psetQuota) && decide (grvBlocks s c true ≤ d.odgQuota) &&
    decide (grvBlocks s c false ≤ d.grvQuota) && decide (learnedOf s c ≤ d.emQuota) && decide (staticUsed s c ≤ d.emSquota) &&
    decide (trieUnits s c ≤ d.trieQuota)

/-- The checks of R437 in their order. -/
def defCheck (define : Bool) (s : State) (q : Req) : Status :=
  let c := q.arg1.toNat
  let d := defOf q.payload define (cmpOf s c)
  orElseSt (firstBad [
    (if define then decide (1 ≤ c) && decide (c < 32) else decide (c < 32), .range),
    (cmpDefined s c != define, if define then .busy else .range)]) <|
  orElseSt (defZero s.variant d) <| firstBad [
    (defRange q.payload d, .range),
    (allCids.all (fun k => k == c || !cmpDefined s k || (cmpOf s k).pasid != d.pasid), .range),
    (d.pasid == (cmpOf s c).pasid || !(mbxOf s c).enabled, .busy),
    (defUse s c d, .busy),
    (!define || regionForm d.region == .ok, regionForm d.region), (!define || regionFree s c d.region, .range)]

/-- CMP_DEFINE (R437). -/
def opCmpDefine : LOp := { op := .cmpDefine, args := defCheck true }
/-- CMP_QUOTA_WRITE (R437). -/
def opCmpQuota : LOp := { op := .cmpQuotaWrite, args := defCheck false }

/-- A definition lands (R435): the compartment is frozen, holds nothing, and its rotation goes on from its last, where step 2
of the boundary has not changed it yet; FROZEN and EMPTY are posted. -/
def landCmpDefine (i : Item) (s : State) : Ans :=
  let c := i.req.arg1.toNat
  match defCheck true s i.req with
  | .ok =>
    let old := if (cmpOf s c).rotRing = s.ran then (rotNow s c + 65535) % 65536 else rotNow s c
    let s := cmpRotate c none (modCmp c (fun x =>
      { defOf i.req.payload true x with defined := true, frozen := true, emptyPosted := true }) s)
    { st := cmpState c kEmpty old 0 0 0 (cmpState c kFrozen old 2 0 0 s), ring := s.ring }
  | st => refuse st s

/-- Of the definitions that are due, those that will land: each is checked with the ones before it made. Their rotation changes are
step 2 of the boundary (R435, R443, R581). -/
def definesLand : List Item → State → List Item
  | [], _ => []
  | i :: r, s =>
    let c := i.req.arg1.toNat
    if defCheck true s i.req = .ok then
      i :: definesLand r (modCmp c (fun x => { defOf i.req.payload true x with defined := true }) s)
    else definesLand r s

/-- New quotas land; the region stays (R436). -/
def landCmpQuota (i : Item) (s : State) : Ans :=
  match defCheck false s i.req with
  | .ok => { st := modCmp i.req.arg1.toNat (defOf i.req.payload false) s, ring := s.ring }
  | st => refuse st s

/-! ## Attachment (R439 to R441) -/

/-- The attachment entry that a payload describes. -/
def attOf (q : Req) : Att :=
  let x := rec64 q.payload
  { port := fld x 5 0, kind := fld x 7 6, lo := fld x 19 8, hi := fld x 31 20, cid := q.arg1.toNat }

/-- The fields of an entry keep R439. -/
def attForm (a : Att) : Bool :=
  if a.kind = 1 then decide (1 ≤ a.lo) && decide (a.lo ≤ a.hi) && decide (a.hi ≤ 4094)
  else a.kind != 3 && a.lo == 0 && a.hi == 0

/-- The attaches accepted and not landed: target ring and entry. -/
def attPending (s : State) (o : Op) : List (Nat × Att) := (s.items.filter (fun i => i.op == o)).map (fun i => (i.due, attOf i.req))

/-- An attach against the map in force with every accepted attach added (R439). -/
def attachCheck (s : State) (a : Att) : Status :=
  let all := s.cmp.att ++ (attPending s .cmpAttach).map Prod.snd
  let on := all.filter (fun x => x.port == a.port)
  firstBad [
    (on.all (fun x => x.kind != 0) && (a.kind != 0 || on.isEmpty), .range),
    (a.kind != 1 || on.all (fun x => x.kind != 1 || decide (x.hi < a.lo) || decide (a.hi < x.lo)), .range),
    (a.kind != 2 || on.all (fun x => x.kind != 2), .range),
    (decide (on.length < 16) && decide (all.length < 512), .noSpace)]

/-- A detach names an entry that will stand at its T and that no other detach names (R439). -/
def detachCheck (s : State) (T : Nat) (a : Att) : Bool :=
  !(attPending s .cmpDetach).any (fun x => x.2 == a) &&
    (s.cmp.att.contains a || (attPending s .cmpAttach).any (fun x => x.2 == a && decide (x.1 ≤ T)))

/-- What both commands check first (R439, R582). -/
def attArgs (s : State) (q : Req) : Status :=
  firstBad [(decide (q.arg1.toNat < 32) && cmpDefined s q.arg1.toNat, .range), (attForm (attOf q), .range)]

/-- CMP_ATTACH. -/
def opCmpAttach : LOp := { op := .cmpAttach, args := attArgs, pre := fun s q => attachCheck s (attOf q) }
/-- CMP_DETACH. -/
def opCmpDetach : LOp :=
  { op := .cmpDetach, args := attArgs, pre := fun s q => if detachCheck s q.t (attOf q) then .ok else .range }

/-- The ports on which a compartment holds a PORT entry send the XOFF that its freeze calls for (R445, R447). -/
def freezePfc (c : Nat) (s : State) : State :=
  foldS ((s.cmp.att.filter (fun a => a.cid == c && a.kind == 0)).map Att.port) pfcUpdate s

/-- An attach lands (R441): the first entry on the port creates the compartment's `SHARE` there. -/
def landAttach (i : Item) (s : State) : Ans :=
  let a := attOf i.req
  if cmpDefined s a.cid then
    let share := if attached s a.cid a.port then s.sch.share else tput none s.sch.share (k2 a.cid a.port) (some 0x180010#32)
    { st := pfcUpdate a.port { s with cmp := { s.cmp with att := s.cmp.att ++ [a] }, sch := { s.sch with share := share } } }
  else { st := s }

/-- The copies of a compartment that satisfy `pc` leave the VOQs, their DRAM portions and the scheduler, counted in
`ctr` (R441, R445); R291 does not name these discards. -/
def dropCopies (c : Nat) (ctr : Ctr) (cause : Nat) (pc : Copy → Bool) (s : State) : State :=
  let p (x : Copy) : Bool := stCid x.fi.stamp == c && pc x
  let s := removeVoqs (fun _ => true) p (discardWaiting false ctr c 0 cause) s
  let s := doomVoqs (fun _ => true) p (discardSpilled ctr c 0 cause false) s
  removeSched (fun k => k.2.2 == c) p (discardDone ctr c 0 cause) s

/-- The compartment holds no entry on the port any more (R441); copies on their way from the VOQs are discarded where they arrive. -/
def lastDetach (c p : Nat) (s : State) : State :=
  dropCopies c .cmpDetachDiscard 10 (fun x => x.port == p)
    { s with cmp := { s.cmp with detached := tput 0 s.cmp.detached (k2 c p) s.ran }, sch := { s.sch with share := tput none s.sch.share (k2 c p) none } }

/-- A detach lands. -/
def landDetach (i : Item) (s : State) : Ans :=
  let a := attOf i.req
  if s.cmp.att.contains a then
    let s := pfcUpdate a.port { s with cmp := { s.cmp with att := s.cmp.att.filter (fun x => x != a) } }
    { st := if attached s a.cid a.port then s else lastDetach a.cid a.port s }
  else { st := s }

/-! ## Commands that name a compartment (R415, R452, R582) -/

/-- `ARG1` [4:0] names a defined compartment, and nothing stands above it (R582). -/
def whoArg (s : State) (q : Req) : Status := if q.arg1.toNat < 32 ∧ cmpDefined s q.who then .ok else .range

/-- A command of one of these kinds on compartment `c` is accepted and not landed (R452). -/
def pendingOn (s : State) (c : Nat) (ops : List Op) : Bool := s.items.any (fun i => ops.contains i.op && i.req.who == c)

/-- CMP_RESET (R452). -/
def opCmpReset : LOp :=
  { op := .cmpReset, args := whoArg,
    pre := fun s q => if pendingOn s q.who [.cmpReset, .save, .restore] then .busy else .ok }

/-- CMP_RESET lands: the reset, and CMP_STATE RESET. -/
def landCmpReset (i : Item) (s : State) : Ans :=
  let c := i.req.who
  if !cmpDefined s c then { st := s }
  else
    let old := rotNow s c
    let done := (cmpOf s c).rotRing = s.ran
    let s := cmpReset c none s
    { st := cmpState c kReset old 0 (if done then 0 else ctrGet s .cmpStaleFrames c 0) 0 s }

/-- FREEZE (R432, R445, R452): BUSY while one of the commands that R452 names is pending, then FROZEN for a frozen compartment. -/
def opFreeze : LOp :=
  { op := .freeze,
    args := fun s q => firstBad [(cmpDefined s q.who, .range), (decide (q.a1 9 8 < 2), .range)],
    pre := fun s q => firstBad [
      (!pendingOn s q.who [.freeze, .save, .restore], .busy), (!(cmpOf s q.who).frozen, .frozen)] }

/-- A freeze lands (R445). -/
def landFreeze (i : Item) (s : State) : Ans :=
  let c := i.req.who
  let mode := i.req.a1 9 8
  if !cmpDefined s c then { st := s }
  else
    let s := modCmp c (fun x => { x with frozen := true, emptyPosted := false }) s
    let n := ctrGet s .cmpFreezeDiscard c 0
    let s := if mode = 1 then dropCopies c .cmpFreezeDiscard 2 (fun _ => true) s else s
    let gone := (ctrGet s .cmpFreezeDiscard c 0 + 2 ^ 64 - n) % 2 ^ 64
    { st := cmpState c kFrozen (rotNow s c) mode gone 0 (freezePfc c s) }

/-- An image of the compartment is accepted and IMAGE_APPLIED is not posted yet (R271). -/
def imagePending (s : State) (c : Nat) : Bool :=
  s.items.any (fun i => (i.op == .cmpBundleLoad && i.req.c == c) || (i.op == .baseBundleLoad && c == 0)) ||
    (c == 0 && s.krf.wait.isSome)

/-- THAW (R447, R452). -/
def opThaw : LOp :=
  { op := .thaw, args := whoArg,
    pre := fun s q => firstBad [
      (!pendingOn s q.who [.thaw, .save, .restore], .busy), ((cmpOf s q.who).frozen, .notFrozen),
      (!imagePending s q.who, .busy)] }

/-- A thaw lands (R447). -/
def landThaw (i : Item) (s : State) : Ans :=
  let c := i.req.who
  if !cmpDefined s c || !(cmpOf s c).frozen then { st := s }
  else { st := cmpState c kThawed (rotNow s c) 0 0 0 (freezePfc c (modCmp c (fun x => { x with frozen := false }) s)) }

/-! ## Empty, deletion and reads (R446, R453) -/

/-- No frame is stamped with a live cut of the compartment. -/
def cutsIdle (s : State) (c : Nat) : Bool := (liveCuts s c).all (fun x => x.live == 0)

/-- The compartment is empty (R446): records whose writes still wait for DRAM are in staging (R371, log entry 108). -/
def isEmpty (s : State) (c : Nat) : Bool :=
  let mine (x : Copy) : Bool := stCid x.fi.stamp == c && !x.doomed
  cutsIdle s c && s.lnd.voq.all (fun e => !(e.2.head ++ e.2.dram ++ e.2.writing.toList ++ e.2.tail).any mine) &&
    s.sch.queue.all (fun e => e.1.2.2 != c || e.2.isEmpty) && s.cap.staging.all (fun e => e.2.all (fun r => r.cid != c)) &&
    s.dram.reqs.all (fun r => r.cls != 2 || r.cid != c) && s.cap.due.all (fun d => d.tr.cid != c)

/-- CMP_EMPTY: posted once for a freeze, at a boundary at which the compartment is empty. -/
def cmpEmpty (c : Nat) (s : State) : State :=
  let x := cmpOf s c
  if x.defined && x.frozen && !x.emptyPosted && isEmpty s c then
    cmpState c kEmpty (rotNow s c) 0 0 0 (modCmp c (fun x => { x with emptyPosted := true }) s)
  else s

/-- CMP_DELETE's state checks (R453). -/
def deleteCheck (s : State) (c : Nat) : Status :=
  firstBad [((cmpOf s c).frozen, .notFrozen), (isEmpty s c && !(mbxOf s c).enabled, .busy)]

/-- CMP_DELETE. -/
def opCmpDelete : LOp :=
  { op := .cmpDelete,
    args := fun s q => firstBad [(q.arg1.toNat < 32 && cmpDefined s q.arg1.toNat, .range), (q.arg1 != 0, .range)],
    pre := fun s q => deleteCheck s q.arg1.toNat }

/-- Zero words of a store. -/
def storeZero {α : Type} (base n : Nat) (t : Tab α) : Tab α := t.filter (fun e => decide (e.1.1 < base) || decide (base + n ≤ e.1.1))

/-- A compartment's image leaves the stores and MRAM. -/
def dropImage (c : Nat) (s : State) : State :=
  let r := (cmpOf s c).region
  { s with par := { s.par with imgs := tput none s.par.imgs (k1 c) none },
           krf := { s.krf with micro := storeZero (rgMicroBase r) (rgMicroSize r) s.krf.micro,
                               nano := storeZero (rgNanoBase r) (rgNanoSize r) s.krf.nano } }

/-- A compartment is deleted (R453): its rotation stays. -/
def deleteCmp (c : Nat) (s : State) : State :=
  let s := foldS ((s.cmp.att.filter (fun a => a.cid == c)).map Att.port).eraseDups (lastDetach c)
    (dropCopies c .cmpDetachDiscard 10 (fun _ => true) s)
  let s := dropImage c (dropLearned c (discardCuts c (dropKeys c s)))
  let s := foldS ((s.cmp.att.filter (fun a => a.cid == c)).map Att.port) pfcUpdate
    { s with cmp := { s.cmp with att := s.cmp.att.filter (fun a => a.cid != c) },
             sch := { s.sch with share := s.sch.share.filter (fun e => e.1.1 != c) },
             link := { s.link with secy := s.link.secy.filter (fun e => !(secyAllocated e.2 && secyCid e.2 == c)) },
             cap := { s.cap with tly := s.cap.tly.filter (fun e => e.1.1 != c) },
             trust := { s.trust with binding := tput [] s.trust.binding (k1 c) [] } }
  let s := modMbx c (fun m => { m with enable := false, evtSeal := false, enabling := false }) (resetCv c { owner := 32 } s)
  modCmp c (fun x => { rotation := x.rotation, rotRing := x.rotRing }) s

/-- A deletion lands. -/
def landCmpDelete (i : Item) (s : State) : Ans :=
  let c := i.req.arg1.toNat
  match deleteCheck s c with
  | .ok =>
    let s := deleteCmp c s
    { st := cmpState c kDeleted (rotNow s c) 0 0 0 s, ring := s.ring }
  | st => refuse st s

/-- CMP_READ (R436, R582). -/
def opCmpRead : LOp :=
  { op := .cmpRead, snap := true, args := fun _ q => if q.arg1.toNat < 32 then .ok else .range,
    now := fun s q => { st := s, ring := s.ring, data := cmpDefBytes s q.who } }

/-! ## Save (R448, R449) -/

/-- The instances of the grove, Grove dies before on-die. -/
def grvInsts : List (Nat × Bool) := (List.range 16).flatMap (fun t => [(t, false), (t, true)])

/-- The state that SAVE captures (R448). -/
def captureCmp (c nonce : Nat) (s : State) : Saved :=
  let cur := currentCut s c
  let seen (x : Cut) (e : GrvEnt) : Bool := decide (e.birth ≤ x.number) && decide (x.number < e.death)
  { srcCid := c, ring := s.ring, nonce := nonce, body := cur.map Cut.body,
    grove := match cur with
      | some x => grvInsts.flatMap (fun y => ((instSlots s c y.1 y.2).filterMap (grvAt s)).filter (seen x))
      | none => [],
    learned := (s.em.ents.filter (fun e => e.learned && e.cid == c)).map (fun e => (e.table, e.wide, e.key, e.res)),
    image := ((imgOfCmp s c).map KImg.section_).getD [], signer := ((imgOfCmp s c).map KImg.signer).getD [],
    keys := (s.trust.keys.filter (fun e => e.2.owner == some c)).map
      (fun e => (handleOf s e.1.1, e.2.typ, e.2.exportable, e.2.key)),
    cutKey := tget [] s.trust.cutKey (k1 c),
    secys := (s.link.secy.filter (fun e => secyAllocated e.2 && secyCid e.2 == c)).map
      (fun e => { port := e.1.1, idx := e.1.2.1, rec_ := e.2.rec_, scs := e.2.scs, sas := e.2.sas }),
    tallyCfg := BitVec.ofNat 64 (fld (tlyOf s c).cfg 4 0) }

/-- SAVE's checks (R448, R452). -/
def opSave : LOp :=
  { op := .save, args := whoArg,
    pre := fun s q => firstBad [
      ((cmpOf s q.who).frozen, .notFrozen),
      (!pendingOn s q.who [.cmpReset, .freeze, .thaw, .save, .restore], .busy), (cutsIdle s q.who, .busy), (certOk q, .badSig)] }

/-- The blob's header in the clear (R449). -/
def blobHeader (sv : Saved) (target : List Byte) (n : Nat) : List Byte :=
  packLE [(4, 0x424C4F42), (2, 1), (1, sv.srcCid), (1, 0), (8, sv.ring), (8, sv.nonce)] ++ target ++
    packLE [(4, n), (4, sv.learned.length), (16, 0)]

/-- The first number from `n` upward that is not in the list. -/
def firstUnused (l : List Nat) : Nat → Nat → Nat
  | 0, n => n
  | k + 1, n => if l.contains n then firstUnused l k ((n + 1) % 2 ^ 64) else n

/-- Draw the nonce of a blob (R449): a free value, moved past the numbers drawn before, so that no two blobs carry the same. -/
def freshNonce (s : State) : Nat × State :=
  let (f, s) := freshFree s
  let n := firstUnused s.cmp.drawn s.cmp.drawn.length (f % 2 ^ 64)
  (n, { s with cmp := { s.cmp with drawn := n :: s.cmp.drawn } })

/-- SAVE lands (R448): capture, reset, blob. The nonce and the encoding of the contents are not the manual's to say: free values. -/
def landSave (i : Item) (s : State) : Ans :=
  let c := i.req.who
  match opSave.pre s i.req with
  | .ok =>
    let (n, s1) := freshNonce s
    let sv := captureCmp c n s1
    let target := certKeyId i.req.payload
    let text := Config.savedBytes sv
    let head := blobHeader sv target (112 + text.length)
    let (eph, ct, tag, s2) := wrapBody (certKey i.req.payload) (leBytes 8 n) 2 target head text s1
    let data := head ++ eph ++ ct ++ tag
    if i.req.outLen.toNat < data.length then refuse .noSpace s
    else
      let old := rotNow s2 c
      let t := cmpReset c (if i.req.c = c then some (itemId i) else none) s2
      { st := cmpState c kSaved old 0 (ctrGet t .cmpStaleFrames c 0) 0 t, ring := s.ring, data := data, blob := some sv }
  | st => refuse st s

/-! ## Restore (R450, R451) -/

/-- Give new names to the stored entries of a body. -/
def shiftBody (n : Nat) (b : CutBody) : CutBody :=
  { b with acts := b.acts.map (fun e => (e.1, e.2.map (fun x => (x.1 + n, x.2)))),
           data := b.data.map (fun e => (e.1, e.2.map (fun x => (x.1 + n, x.2)))),
           psets := b.psets.map (fun e => (e.1, e.2.map (fun x => (x.1 + n, x.2)))),
           pfx := b.pfx.map (fun p => { p with uid := p.uid + n }), touch := b.touch.map (fun t => { t with stamp := t.stamp + n }),
           emStatic := [] }

/-- A number above every name in a body. -/
def bodyTop (b : CutBody) : Nat :=
  ((uidsOf b.acts ++ uidsOf b.data ++ uidsOf b.psets ++ b.pfx.map Pfx.uid ++ b.touch.map PfxTouch.stamp).foldl max 0) + 1

/-- What the body holds is within the quotas and the stores (R130, R146, R180, R450 step 7). -/
def bodyFits (s : State) (c : Nat) : Bool :=
  let d := cmpOf s c
  let held := heldBodies s
  defUse s c { d with emQuota := learnedOf s c } && decide (distinct (held.flatMap (fun b => uidsOf b.acts)) ≤ 131072) &&
    decide (distinct (held.flatMap (fun b => uidsOf b.data)) ≤ 98304) &&
    decide (distinct (held.flatMap (fun b => uidsOf b.psets)) ≤ 4096) && decide (pfxUnits held ≤ 2097152) && trieFits s && masksFit s

/-- Apply a step to each element while it succeeds. -/
def foldOpt {α : Type} (f : α → State → Option State) : List α → State → Option State
  | [], s => some s
  | x :: r, s => match f x s with | some t => foldOpt f r t | none => none

/-- The write that places a captured grove entry behind those of its priority. -/
def grvRe (e : GrvEnt) : GrvWr :=
  { id := e.id, table := e.table, ondie := e.arr == 4, op := 0, order := 0, prio := e.prio, ref := 0, res := e.res,
    value := e.value, mask := e.mask }

/-- Place the captured cut in a staging area of compartment `c`: none where it does not fit (R450 step 7). -/
def placeBody (c : Nat) (sv : Saved) (b : CutBody) (s : State) : Option State :=
  let s := setStage c (some { num := 1, based := false, digest := [], body := shiftBody s.cut.uid b })
    { s with cut := { s.cut with uid := s.cut.uid + bodyTop b } }
  match foldOpt (fun (e : EmStatic) s => staticAdd c e.table e.key e.res s) b.emStatic s with
  | none => none
  | some s =>
    match foldOpt (fun (e : GrvEnt) s => grvCarry c (grvRe e) [] s) sv.grove s with
    | none => none
    | some s => if bodyFits s c then some s else none

/-- The captured cut becomes CURRENT with number 1 (R451). -/
def restoreCut (c : Nat) (sv : Saved) (s : State) : Option State :=
  match sv.body with
  | none => some s
  | some b =>
    match placeBody c sv b (reapCuts s) with
    | none => none
    | some s =>
      let hs := freeHandles s
      let (n, s) := freshFree s
      if hs.isEmpty then none
      else
        let x : Cut := { handle := hs.getD (n % hs.length) 0, cid := c, number := 1, state := 1, signed := false,
                         rotation := (cmpOf s c).rotation, target := s.ring, restored := true, body := stageBody s c }
        some (setStage c none { s with cut := { s.cut with cuts := s.cut.cuts ++ [x] } })

/-- The compartment holds nothing that RESTORE would meet (R450 step 2). -/
def holdsNothing (s : State) (c : Nat) : Bool :=
  (liveCuts s c).isEmpty && (stageOf s c).isNone && learnedOf s c == 0 && s.grv.ents.all (fun e => e.cid != c) && keysHeld s c == 0

/-- The header of a blob is well formed (R450 step 3). -/
def blobForm (l : List Byte) : Bool :=
  decide (64 ≤ l.length) && leAt l 0 4 == 0x424C4F42 && leAt l 4 2 == 1 && allZero (slice l 7 1) && allZero (slice l 48 16)

/-- Step 1 of R270 for the captured section (R461): its signature verifies, by the cut-signing key of the compartment, which is the one
that the blob carries where it carries one, or by an owner key where there is none (log entry 54). -/
def imageSig (s : State) (c : Nat) (sv : Saved) : Bool :=
  let cut := if sv.cutKey.isEmpty then tget [] s.trust.cutKey (k1 c) else sv.cutKey
  let keys := if cut.isEmpty then s.trust.ownerKeys else [cut]
  sv.sigOk && keys.any (fun k => decide ((digest k).take 16 = sv.signer))

/-- Steps 1 to 8 of R270 for the captured section. -/
def imageCheck (s : State) (c : Nat) (sv : Saved) : Status :=
  let x := sv.image
  if x.isEmpty then .ok
  else
    let k := imgOf x
    orElseSt (if imageSig s c sv then .ok else .badSig) <| orElseSt (if secCrc x 64 16 then .ok else .crc) <| orElseSt (kimgForm x 1) <| firstBad [
      (kimgRoom s x 1 c, .noSpace), (k.micro.all (microOk 1 k.micro.length k.nano.length), .range), (k.nano.all (nanoOk 1), .range),
      (entriesOk 1 k, .range)]

/-- RESTORE's checks (R450, R452). -/
def restoreCheck (sv : Saved) (s : State) (q : Req) : Status :=
  let c := q.who
  let l := q.payload
  orElseSt (firstBad [
    (!pendingOn s c [.save, .restore], .busy), ((cmpOf s c).frozen, .notFrozen), (holdsNothing s c, .busy), (blobForm l, .range),
    (q.auth && slice l 24 16 == beBytes 16 (Config.fuse 2).toNat, .badSig), (!s.cmp.nonces.contains (leAt l 16 8), .denied)]) <|
  orElseSt (imageCheck s c sv) <| firstBad [
    ((restoreCut c sv s).isSome, .noSpace),
    (decide (keysHeld s c + sv.keys.length ≤ 1024) && decide (keysUsed s + sv.keys.length ≤ 8192), .noSpace)]

/-- RESTORE of a blob whose body, once decrypted, is `sv`. -/
def opRestore (sv : Saved) : LOp :=
  { op := .restore, args := whoArg, pre := restoreCheck sv, now := fun s _ => { st := s, blob := some sv } }

/-- The captured image is written to the region that the compartment has once this boundary's commands have landed, and IMAGE_APPLIED
posted (R250, R451 step 3). -/
def restoreImage (c : Nat) (sv : Saved) (s : State) : State :=
  if sv.image.isEmpty then s
  else
    let k := { imgOf sv.image with ring := s.ring, signer := sv.signer }
    imageApplied c k s.ring (writeStores (regionToBe s c) k { s with par := { s.par with imgs := tput none s.par.imgs (k1 c) (some k) } })

/-- Insert one captured learned entry (R159, R168): the state, and whether it was refused. -/
def restoreLearned (c : Nat) (x : Nat × Bool × BitVec 160 × BitVec 64) (s : State) : Bool × State :=
  if (cmpOf s c).emQuota ≤ learnedOf s c then (true, cnt .emRefQuota c 0 1 s)
  else if 1048576 ≤ (s.em.ents.filter EmEnt.learned).length then (true, cnt .emRefModule c 0 1 s)
  else
    let (u, s1) := newUid s
    let e : EmEnt := { uid := u, cid := c, table := x.1, wide := x.2.1, learned := true, key := x.2.2.1, res := x.2.2.2, bank := 0,
                       index := 0, stash := false, act := s.ring, wrote := s.ring }
    match emPlace e s1 with
    | some s2 => (false, s2)
    | none => (true, cnt .emRefFull c 0 1 s)

/-- Insert the captured learned entries in blob order; the number not restored. -/
def restoreAll (c : Nat) (l : List (Nat × Bool × BitVec 160 × BitVec 64)) (s : State) : Nat × State :=
  l.foldl (fun a x => let (r, t) := restoreLearned c x a.2; (a.1 + b2n r, t)) (0, s)

/-- Install the captured keys: the new handle of each old one (R451 step 5). -/
def restoreKeys (c : Nat) (l : List (Nat × Nat × Bool × List Byte)) (s : State) : List (Nat × Nat) × State :=
  l.foldl (fun a x =>
    match installKey c x.2.1 x.2.2.1 x.2.2.2 a.2 with
    | some (h, t) => (a.1 ++ [(x.1, h)], t)
    | none => a) ([], s)

/-- An association under its new handle; one whose handle no slot has names none. -/
def reHandle (m : List (Nat × Nat)) (a : SaRec) : SaRec :=
  { a with handle := ((m.find? (fun x => x.1 == a.handle)).map Prod.snd).getD 65536 }

/-- Apply a captured SecY to the one allocated at its place; the items dropped (R451 step 6). -/
def restoreSecy (c : Nat) (m : List (Nat × Nat)) (x : SavedSecy) (a : Nat × State) : Nat × State :=
  let y := secyOf a.2 x.port x.idx
  if secyAllocated y && secyCid y == c then
    let scs := x.scs.take (secyQuota y)
    let sas := x.sas.filter (fun r => r.tx || scs.any (fun k => k.1 == r.sc))
    (a.1 + (x.scs.length - scs.length) + (x.sas.length - sas.length),
      modSecy x.port x.idx (fun y => { rec_ := ownerFields y.rec_ x.rec_, scs := scs, sas := sas.map (reHandle m) }) a.2)
  else (a.1 + 1 + x.scs.length + x.sas.length, a.2)

/-- RESTORE lands (R451): it is a compartment reset too (R510), with the effects of R444 on what a frozen and empty compartment still
holds. -/
def landRestore (i : Item) (s : State) : Ans :=
  match i.blob with
  | none => refuse .badSig s
  | some sv =>
    match restoreCheck sv s i.req with
    | .ok =>
      let c := i.req.who
      let old := rotNow s c
      let s1 := cmpReset c (if i.req.c = c then some (itemId i) else none) s
      match restoreCut c sv s1 with
      | none => refuse .noSpace s
      | some s2 =>
        let (n, s3) := restoreAll c sv.learned (restoreImage c sv s2)
        let (m, s4) := restoreKeys c sv.keys s3
        let s5 := { s4 with trust := { s4.trust with cutKey := tput [] s4.trust.cutKey (k1 c) sv.cutKey } }
        let (d, s6) := sv.secys.foldl (fun a x => restoreSecy c m x a) (0, s5)
        let s7 := modTly c (fun t => { t with cfg := setFld t.cfg 4 0 (fld sv.tallyCfg 4 0) }) s6
        let s8 := { s7 with cmp := { s7.cmp with nonces := (leAt i.req.payload 16 8 :: s7.cmp.nonces).take 1024 } }
        { st := cmpState c kRestored old 0 0 n s8, ring := s.ring, value := n + d * 2 ^ 32 }
    | st => refuse st s

/-! ## Meanings -/

/-- CMP_DEFINE (R435, R437). -/
def execCmpDefine (q : Req) (s : State) : Out := .next (runOp opCmpDefine q s)
/-- CMP_QUOTA_WRITE (R437). -/
def execCmpQuotaWrite (q : Req) (s : State) : Out := .next (runOp opCmpQuota q s)
/-- CMP_DELETE (R453). -/
def execCmpDelete (q : Req) (s : State) : Out := .next (runOp opCmpDelete q s)
/-- CMP_ATTACH (R439). -/
def execCmpAttach (q : Req) (s : State) : Out := .next (runOp opCmpAttach q s)
/-- CMP_DETACH (R439). -/
def execCmpDetach (q : Req) (s : State) : Out := .next (runOp opCmpDetach q s)
/-- CMP_RESET (R444). -/
def execCmpReset (q : Req) (s : State) : Out := .next (runOp opCmpReset q s)
/-- FREEZE (R445). -/
def execFreeze (q : Req) (s : State) : Out := .next (runOp opFreeze q s)
/-- THAW (R447). -/
def execThaw (q : Req) (s : State) : Out := .next (runOp opThaw q s)
/-- SAVE (R448). -/
def execSave (q : Req) (s : State) : Out := .next (runOp opSave q s)
/-- RESTORE (R450); `blob` is what its body decrypts to. -/
def execRestore (q : Req) (blob : Saved) (s : State) : Out := .next (runOp (opRestore blob) q s)
/-- CMP_READ (R436). -/
def execCmpRead (q : Req) (s : State) : Out := .next (runOp opCmpRead q s)
/-- CMP_EMPTY (R446). -/
def execCmpEmpty (cid : Fin 32) (s : State) : Out := .next (unlessHalted s (onBoundary (cmpEmpty cid.val) s))

end Sys2Proof.Machine
end

