-- ==== Sys2Proof/Machine/Rules.lean ====
section
/-!
DEFINITION. The rule engine's evaluation of a frame (R131 to R143, R149): keys, the eight lists, the action, the
destination and the learn request.
-/
namespace Sys2Proof.Machine

/-! ## Keys (R132) -/

/-- The fixed area. -/
def fixedArea (inPort : Nat) (pv : BitVec 1024) : List Byte :=
  beBytes 1 inPort ++ beBytes 1 (pvPrio pv) ++ beBytes 2 (pvVid pv) ++ beBytes 1 (pvHdrCount pv) ++
    beBytes 1 (pvLastNode pv) ++ zeros 2

/-- The bytes of a list of segments over the parse vector, the fixed area and the metadata. Of a learn template's segment that runs past
the end of its source, the bytes past the end are left out: R165 does not say what they are (DESIGN CHOICE, log entry 125). -/
def segKey (inPort : Nat) (pv : BitVec 1024) (md : Nat) (l : List Seg) : List Byte :=
  l.flatMap (fun x =>
    match x.src with
    | 0 => []
    | 1 => slice (pvFields pv) x.off x.cnt
    | 2 => slice (fixedArea inPort pv) x.off x.cnt
    | _ => slice (beBytes 2 md) x.off x.cnt)

/-! ## Result records (R135, R136) -/

/-- The accumulator of R134. -/
structure Acc where
  action : Option Nat := none
  cls : Option Nat := none
  port : Option Nat := none
  md : Nat := 0
  learnOk : Bool := true

/-- Fields of a result record. -/
def resClass (r : BitVec 64) : Nat := fld r 19 17
def resStop (r : BitVec 64) : Bool := bit r 21
def resPort (r : BitVec 64) : Nat := fld r 28 23

/-- Apply a result record (R136). -/
def Acc.apply (a : Acc) (r : BitVec 64) : Acc :=
  { action := if resActionEn r then some (resAction r) else a.action,
    cls := if bit r 20 then some (resClass r) else a.cls,
    port := if bit r 29 then some (resPort r) else a.port,
    md := (a.md &&& (65535 - fld r 63 48)) ||| (fld r 47 32 &&& fld r 63 48),
    learnOk := a.learnOk && !bit r 22 }

/-! ## One frame at stage 4 -/

/-- What stage 4 works on: the compartment, the stamped cut, the ingress port and pipeline, the entry position, and the
store errors that the frame meets. -/
structure RuleIn where
  cid : Nat
  cut : Cut
  port : Nat
  pipe : Nat
  pos : Nat
  pv : BitVec 1024
  length : Nat
  found : RxFrame

/-- A bad rule record met by a frame (R149): counted, reported with the CID, the cut number, the region and the index, and
rewritten from the Ranger's image (R148). The frame is discarded. DESIGN CHOICE (log entry 97): the region's code is 0 for a
list, 1 for an action and 2 for a port set. -/
def ruleBad (x : RuleIn) (kind i : Nat) (s : State) : State :=
  let s := noteWindow (uIngress x.pipe) 0x0501 x.cid [x.cid, x.cut.number, kind, i] 1 (cnt .ruleParity 0 0 1 s)
  let s := progEvt (uIngress x.pipe) 0x03 255 0 1 s
  let r : Repair := { region := 1, who := x.cid, index := (kind * 64 + x.cut.handle) * 131072 + i, ring := s.ran }
  { s with par := { s.par with repairs := s.par.repairs ++ [r] } }

/-- A rule record reads bad: found now, or found earlier and not rewritten yet (R148). -/
def ruleIsBad (x : RuleIn) (kind i : Nat) (s : State) : Bool :=
  x.found.rule.contains (kind, i) ||
    s.par.repairs.any (fun r => r.region == 1 && r.who == x.cid &&
      r.index == (kind * 64 + x.cut.handle) * 131072 + i)

/-- The search of list `i` (R134): the result record on a hit. -/
def searchList (x : RuleIn) (i : Nat) (d : BitVec 256) (key : List Byte) (s : State) : Option (BitVec 64) × State :=
  let b := x.cut.body
  let t := lsTable d
  match lsKind d with
  | 1 =>
    match emLookup s x.cid (x.cut.number) b t (emKey (emWide b t) key) x.found.em with
    | none => (none, s)
    | some (e, r) =>
      (some r, if e.learned && emHitRefresh (emTbl b t) then emActivity e.uid s.ring s else s)
  | 2 =>
    let (p, s) := trieLookup x.cid x.cut.number b t (trieKey (trieV6 b t) key) ((x.found.trie.filter (fun w => w.1 == i)).map Prod.snd) s
    (p.map Pfx.res, s)
  | k =>
    let wide := BitVec.ofNat 1280 (beNat (padTo 160 key))
    let (e, s) := grvSearch x.cid x.cut.number b t (k == 4) wide x.found.grove s
    (e.map GrvEnt.res, s)

/-- The lists from number `i` on: the accumulator, whether a bad list descriptor ended the evaluation, and the
state. -/
def evalLists (x : RuleIn) : Nat → Nat → Acc → State → Acc × Bool × State
  | 0, _, a, s => (a, false, s)
  | fuel + 1, i, a, s =>
    let d := listOf x.cut.body i
    if ruleIsBad x 0 i s then (a, true, ruleBad x 0 i s)
    else if lsKind d = 0 ∨ (lsGuard d ≠ 0 ∧ pvHas x.pv (lsGuard d) = false) then evalLists x fuel (i + 1) a s
    else
      let key := segKey x.port x.pv a.md (segsAt d 64)
      match searchList x i d key s with
      | (some r, s) =>
        let s := progEvt (uIngress x.pipe) 0x13 x.cid (2 ^ i) 1 (cnt .ruleHit x.cid i 1 s)
        let a := a.apply r
        if resStop r then (a, false, s) else evalLists x fuel (i + 1) a s
      | (none, s) =>
        let s := cnt .ruleMiss x.cid i 1 s
        let m := lsMissMode d
        let a := if 2 ≤ m then a.apply (lsMissRes d) else a
        if m = 1 ∨ m = 3 then (a, false, s) else evalLists x fuel (i + 1) a s

/-- The stage 4 result of a frame. -/
structure Decision where
  action : Nat
  /-- The action's entry, if it holds one. -/
  entry : Option (BitVec 128) := none
  /-- Egress ports, ascending; empty = discarded. -/
  ports : List Nat := []
  cls : Nat := 0
  pset : Option Nat := none
  /-- A bad rule record discarded the frame (R149); a bad list descriptor leaves the action index unknown. -/
  parity : Bool := false
  known : Bool := true

/-- Count a frame of an action counter pair (R139, R523). -/
def countAction (c pair bytes : Nat) (s : State) : State :=
  if pair = 0 then s
  else
    let add (k n : Nat) (s : State) : State :=
      { s with ctr := { s.ctr with action := tmod 0 s.ctr.action (k3 c pair k) (fun v => (v + n) % 2 ^ 64) } }
    add 1 bytes (add 0 1 s)

/-- Fields of the learn template (R165). -/
def lrnEnable (l : BitVec 256) : Bool := bit l 0
def lrnTable (l : BitVec 256) : Nat := fld l 4 1
def lrnRes (l : BitVec 256) : BitVec 64 := BitVec.ofNat 64 (fld l 207 144)

/-- The learn request of a frame (R139, R165, R166); it is activity for a learned entry of its key (R171). A request whose key a static entry
of the stamped cut holds is activity for the learned entry that it shadows: R166 says that nothing changes, R171 that every request
counts (DESIGN CHOICE, log entry 125). -/
def learnRequest (x : RuleIn) (md : Nat) (s : State) : State :=
  let l := x.cut.body.emLearn
  if !lrnEnable l then s
  else
    let t := lrnTable l
    let wide := emWide x.cut.body t
    let key := emKey wide (segKey x.port x.pv md (segsAt l 16))
    let r0 := lrnRes l
    let res := if bit l 208 then setFld (setFld r0 28 23 x.port) 29 29 1 else r0
    let r : LearnReq :=
      { ring := s.ring, port := x.port, ord := x.pos, rotation := x.cut.rotation, cid := x.cid,
        handle := x.cut.handle, table := t, wide := wide, key := key, res := res, tmpl := r0,
        static_ := (staticOf x.cut.body t key).isSome }
    let s := { s with em := { s.em with reqs := s.em.reqs ++ [r] } }
    let s := progEvt (uIngress x.pipe) 0x14 x.cid 0 1 s
    match s.em.ents.find? (fun e => e.learned && e.cid == x.cid && e.table == t && e.key == key) with
    | some e => emActivity e.uid s.ring s
    | none => s

/-- The ports of an action's destination before the checks of R139: none where `DEST_MODE` 0 finds no port. DESIGN CHOICE (log
entry 98): a port set that was never written is empty. -/
def destPorts (x : RuleIn) (a : BitVec 128) (p : Option Nat) : List Nat :=
  match actDest a with
  | 0 => p.toList
  | 1 => [actPort a]
  | _ =>
    match tget none x.cut.body.psets (k1 (actPset a)) with
    | some w => allPorts.filter (fun i => bit w.2 i)
    | none => []

/-- Form the stage 4 result from the action index (R138, R139). `acc` is none for a malformed frame (R141). -/
def applyAction (x : RuleIn) (a : Nat) (acc : Option Acc) (s : State) : Decision × State :=
  match if a = 0 then none else actOf x.cut.body a with
  | none => ({ action := a }, cnt .ruleDiscard x.cid 0 1 s)
  | some e =>
    if ruleIsBad x 1 a s then ({ action := a, parity := true }, ruleBad x 1 a s)
    else if actDest e = 2 && ruleIsBad x 2 (actPset e) s then
      ({ action := a, parity := true }, ruleBad x 2 (actPset e) s)
    else
      let s := countAction x.cid (actCounter e) x.length s
      let s := match acc with
        | some m => if actLearn e && m.learnOk then learnRequest x m.md s else s
        | none => s
      let ps := (destPorts x e (acc.bind Acc.port)).filter (fun p => !(actNoHairpin e && p == x.port))
      let ok := ps.filter (fun p => attached s x.cid p)
      let s := cnt .rulePortDenied x.cid 0 (ps.length - ok.length) s
      let s := if ok.isEmpty then cnt .ruleNoPort x.cid 0 1 s else s
      let cls := if actClassEn e then actClass e else ((acc.bind Acc.cls).getD (pvPrio x.pv))
      ({ action := a, entry := some e, ports := ok, cls := cls,
         pset := if actDest e = 2 then some (actPset e) else none }, s)

/-- The stage 4 result of a frame (R134, R141, R142). -/
def decide4 (x : RuleIn) (s : State) : Decision × State :=
  let b := x.cut.body
  if pvMalformed x.pv || (pvHorizon x.pv && bit b.parCmp 8) then applyAction x b.malAction none s
  else
    match evalLists x 8 0 {} (foldS x.found.em (fun e => emParityAt e.1 e.2) s) with
    | (_, true, s) => ({ action := 0, parity := true, known := false }, s)
    | (a, false, s) =>
      match a.action with
      | some n => applyAction x n (some a) s
      | none => applyAction x b.defAction (some a) (cnt .ruleDefault x.cid 0 1 s)

end Sys2Proof.Machine
end

