-- ==== Sys2Proof/Machine/Receive.lean ====
section
/-!
DEFINITION. A received frame, stages 1 to 4 (R20 to R31, R81, R89, R105 to R126, R308, R364, R530 to R533): checks, cells,
entry ring, resolution, stamp, walk, rules, capture. The copies go to the enqueue through `lnd.pipe`.
-/
namespace Sys2Proof.Machine

/-! ## The blaze decision (R532) -/

/-- One step of the shift register. -/
def lfsrStep (x : Nat) : Nat := if x % 2 = 1 then (x / 2) ^^^ 0xD800000000000000 else x / 2

/-- Sixteen steps: the register and the sixteen bits taken. -/
def lfsr16 : Nat → Nat → Nat → Nat × Nat
  | 0, x, v => (x, v)
  | n + 1, x, v => lfsr16 n (lfsrStep x) (v * 2 + x % 2)

/-- The value at position `k`. -/
def blazeWalk : Nat → Nat → Nat
  | 0, x => (lfsr16 16 x 0).2
  | k + 1, x => blazeWalk k (lfsr16 16 x 0).1

/-- The register before position 0 of a port in a ring. -/
def blazeStart (seed n q : Nat) : Nat :=
  let x := (seed % 2 ^ 64) ^^^ (n * 0x9E3779B97F4A7C15 % 2 ^ 64) ^^^ (q * 0xC2B2AE3D27D4EB4F % 2 ^ 64)
  if x = 0 then 1 else x

/-- The frame at position `k` of port `q` in ring `n` is blazed. -/
def blazed (s : State) (n q k : Nat) : Bool :=
  bit s.ctr.blz 81 && decide (blazeWalk k (blazeStart (fld s.ctr.blz 63 0) n q) < fld s.ctr.blz 80 64)

/-! ## Radio counters (R89, R90) -/

/-- The offset of the EtherType behind zero, one or two VLAN tags. -/
def etOffset : Nat → List Byte → Nat → Nat
  | 0, _, o => o
  | n + 1, l, o => if beAt l o 2 = 0x8100 ∨ beAt l o 2 = 0x88A8 then etOffset n l (o + 4) else o

/-- A notch lies in a window that may wrap. -/
def inWindow (o c n : Nat) : Bool :=
  if o ≤ c then decide (o ≤ n) && decide (n ≤ c) else decide (o ≤ n) || decide (n ≤ c)

/-- The arrival check of a recognised frame. R90 does not say how the distance to an edge is measured: the model measures it round the
ring, from the notch on to `OPEN` and from `CLOSE` on to the notch (DESIGN CHOICE, log entry 131). -/
def radioWindow (p : Nat) (s : State) : State :=
  let w := (port s p).win
  let n := s.clock / 25
  let o := fld w 5 0
  let c := fld w 11 6
  if !bit w 12 || inWindow o c n then s
  else if (o + 64 - n) % 64 < (n + 64 - c) % 64 then cnt .radioEarly p 0 1 s
  else cnt .radioLate p 0 1 s

/-- Recognise a radio frame. -/
def radioCount (p : Nat) (l : List Byte) (s : State) : State :=
  if !bit (port s p).cfg 14 then s
  else
    let o := etOffset 2 l 12
    if beAt l o 2 = 0xAEFE then
      let typ := beAt l (o + 3) 1
      let s := if typ < 8 then cnt .radioEcpri p typ 1 s else cnt .radioEcpriOther p 0 1 s
      let s := if beAt l (o + 2) 1 / 16 = 1 then s else cnt .radioBadRev p 0 1 s
      radioWindow p s
    else if beAt l o 2 = 0xFC3D then radioWindow p (cnt .radioRoe p 0 1 s)
    else s

/-! ## The walk of a frame (R113 to R125) -/

/-- A parser record of a pipeline reads bad: found now, or found earlier and not rewritten yet. -/
def parserFind (s : State) (pipe : Nat) (found : List (Nat × Nat × Bool)) (kind i : Nat) : Option Bool :=
  let old (c : Bool) : Bool := s.par.repairs.any (fun r => r.region == 0 && r.who == pipe &&
    r.index == (kind * 1024 + i) * 2 + b2n c)
  match found.find? (fun x => x.1 == kind && x.2.1 == i) with
  | some x => some (x.2.2 && !old false)
  | none => if old false then some false else if old true then some true else none

/-- A parser record error is counted and reported, and its record rewritten at the next boundary (R125). DESIGN CHOICE (log entry
99): a record both of whose copies failed is rewritten then as well. -/
def parserBad (pipe : Nat) (x : Nat × Nat × Bool) (s : State) : State :=
  let s := noteWindow (uIngress pipe) 0x0301 255 [pipe, x.1, x.2.1] 1 (cnt .parParity pipe 0 1 s)
  let s := progEvt (uIngress pipe) 0x03 255 0 1 s
  let r : Repair := { region := 0, who := pipe, index := (x.1 * 1024 + x.2.1) * 2 + b2n x.2.2, ring := s.ran }
  if s.par.repairs.contains r then s else { s with par := { s.par with repairs := s.par.repairs ++ [r] } }

/-- The counters of a walk (R121, R122, R124). -/
def walkCounts (c pipe : Nat) (w : Walk) (s : State) : State :=
  let s := foldS w.found (parserBad pipe) (cnt .parFrames c 0 1 s)
  let s := if w.reason ≠ 0 then progEvt (uIngress pipe) 0x12 c 0 1 (cnt .parMal c (w.reason - 1) 1 s) else s
  if w.horizon then
    progEvt (uIngress pipe) 0x11 c 0 1 (if w.depth then cnt .parHznDepth c 0 1 s else cnt .parHznBytes c 0 1 s)
  else s

/-! ## The stamp and the capture (R26, R364 to R366) -/

/-- Form a stamp. -/
def mkStamp (ring p c handle : Nat) (rot : BitVec 16) (bz hzn mal : Bool) (pipe len : Nat) : BitVec 128 :=
  BitVec.ofNat 128 (ring % 2 ^ 64 + p % 64 * 2 ^ 64 + c % 32 * 2 ^ 70 + handle % 64 * 2 ^ 75 + rot.toNat * 2 ^ 81 +
    b2n bz * 2 ^ 97 + b2n hzn * 2 ^ 98 + b2n mal * 2 ^ 99 + pipe % 8 * 2 ^ 100 + len % 16384 * 2 ^ 103)

/-- The grid time of an FCS verdict in 0.5 ns units (R224). -/
def gridTime (ring clk : Nat) : Nat := 2000 * ring + 5 * clk / 4

/-- A mask of ports. -/
def portMask (l : List Nat) : Nat := (l.map (fun p => 2 ^ p)).foldl (· + ·) 0

/-- Capture a frame at the end of its stage 4, so many clocks after the FCS verdict (R365, R366). -/
def capture (after c pipe : Nat) (stamp : BitVec 128) (ports action cls reason endOff hdrs cause : Nat) (l : List Byte)
    (s : State) : State :=
  let t := tlyOf s c
  let n := min (tlySnap t) l.length
  let body := leBytes 16 stamp.toNat ++ packLE [(8, gridTime s.ring s.clock), (8, 0), (8, ports), (2, action), (1, cls % 8),
    (1, reason), (1, cause), (1, n), (1, 0), (1, endOff), (1, hdrs), (15, 0)] ++ padTo 192 (l.take n)
  let r : TRec := { cid := c, rotation := stRotation stamp, bytes := body }
  { s with cap := { s.cap with due := s.cap.due ++ [{ at_ := nowClk s + after, pipe := pipe, port := stPort stamp, tr := r }] } }

/-! ## A frame that is resolved -/

/-- What a received frame carries on to the later stages: port, group, pool, priority, position, its bytes, its cells and
the clocks that MACsec adds. -/
structure Rx where
  port : Nat
  group : Nat
  pool : Nat
  prio : Nat
  pos : Nat
  bytes : List Byte
  cells : List Nat
  delay : Nat
  ts : Int
  found : RxFrame

/-- The ingress pipeline of a received frame. -/
def Rx.pipe (x : Rx) : Nat := x.group / 2
/-- `FRM.STAMP.LENGTH`. -/
def Rx.len (x : Rx) : Nat := x.bytes.length + 4

/-- The cells of a discarded frame return to the pool (R21). -/
def rxFree (x : Rx) (s : State) : State :=
  ownerSub x.pool x.port x.prio x.cells.length (foldS x.cells (freeCell x.group x.pool) s)

/-- A blaze record of an ingress stage, so many clocks after the FCS verdict. -/
def rxBlaze (x : Rx) (stamp : BitVec 128) (after stage unit detail : Nat) (s : State) : State :=
  atClk (nowClk s + after) (blaze stamp x.pos stage 255 255 unit detail 0 x.pipe) s

/-- A frame discarded after resolution and before parsing (R111, R445, R505): no cut is stamped; a sampled frame is
captured all the same (R364). What the record's fields of the stages it never saw hold is free (log entry 34). -/
def rxUnparsed (x : Rx) (c : Nat) (bz : Bool) (cause : Nat) (ctr : Ctr) (s : State) : State :=
  let (f, s) := freshFree s
  let stamp := mkStamp s.ring x.port c f (cmpOf s c).rotation bz (f / 64 % 2 == 1) (f / 128 % 2 == 1) x.pipe x.len
  let s := rxBlaze x stamp 0 1 (uGroup x.group) x.len s
  let s := rxBlaze x stamp x.delay 11 (uIngress x.pipe) cause (cnt ctr c 0 1 s)
  let s := if bz && bit (tlyOf s c).cfg 1 then
      capture (x.delay + 240) c x.pipe stamp 0 (if cause = 9 then 0 else f / 256 % 65536) (f / 2 ^ 24) (f / 2 ^ 27) (f / 2 ^ 35) (f / 2 ^ 43) 2
        x.bytes s
    else s
  rxFree x s

/-- The frame holds its cut, or lets it go (R151). -/
def cutHold (h : Nat) (f : Nat → Nat) (s : State) : State :=
  { s with cut := { s.cut with cuts := s.cut.cuts.map (fun x => if x.handle = h then { x with live := f x.live } else x) } }

/-- Hand the copies of a frame to the enqueue (R274, R301, R31). -/
def rxForward (x : Rx) (stamp : BitVec 128) (pv : BitVec 1024) (d : Decision) (s : State) : State :=
  let n := d.ports.length
  let id := s.lnd.serial
  let fi : FrameInfo := { stamp := stamp, pv := pv, time := gridTime s.ring s.clock, ts := x.ts, bytes := x.bytes, action := d.action,
                          copies := n, pset := d.pset, serial := id, pos := x.pos, prio := x.prio }
  let fr : Frame := { serial := id, cid := stCid stamp, pool := x.pool, group := x.group, port := x.port, prio := x.prio,
                      cells := x.cells.map (fun c => (c, n)), unsettled := n, onDie := n, pset := d.pset }
  let cs := d.ports.mapIdx (fun i p => ({ fi := fi, port := p, cls := d.cls, ord := i, q := s.ran, ing := x.group } : Copy))
  { s with lnd := { s.lnd with serial := id + 1, frames := s.lnd.frames ++ [fr],
                               pipe := s.lnd.pipe ++ [{ at_ := nowClk s + x.delay + 248, copies := cs }] } }

/-- A pipeline's parser takes one frame per clock, in entry order (R118): a frame that finds the clock taken waits for the next
(log entry 82). -/
def walkTurn (x : Rx) (s : State) : Rx × State :=
  let at_ := max (nowClk s + x.delay) (tget 0 s.lnd.walked (k1 x.pipe))
  ({ x with delay := at_ - nowClk s }, { s with lnd := { s.lnd with walked := tput 0 s.lnd.walked (k1 x.pipe) (at_ + 1) } })

/-- A frame with a cut: stamp, walk, rules, capture, and the hand-over or the discard (R25, R112, R134, R139). -/
def rxParsed (x : Rx) (c : Nat) (cut : Cut) (bz : Bool) (s : State) : State :=
  let (x, s) := walkTurn x s
  let (tagged, vid, _) := outerTag x.bytes
  let w := walkFrame s.par.graph (parserFind s x.pipe x.found.parser) (fld cut.body.parCmp 7 0) x.bytes
  let pv := packPv w tagged vid x.prio
  let stamp := mkStamp s.ring x.port c cut.handle (cmpOf s c).rotation bz (pvHorizon pv) (pvMalformed pv) x.pipe x.len
  let s := progEvt (uIngress x.pipe) 0x10 c (2 ^ x.prio) 1 (cutHold cut.handle (· + 1) s)
  let s := rxBlaze x stamp 0 1 (uGroup x.group) x.len s
  let s := rxBlaze x stamp (x.delay + 64) 2 (uIngress x.pipe) (pvReason pv * 256 + pvHdrCount pv) (walkCounts c x.pipe w s)
  let r : RuleIn := { cid := c, cut := cut, port := x.port, pipe := x.pipe, pos := x.pos, pv := pv, length := x.len,
                      found := x.found }
  let (d, s) := decide4 r s
  let s := if d.parity then s else rxBlaze x stamp (x.delay + 240) 3 (uIngress x.pipe) d.action s
  let mirror := !d.parity && (d.entry.map actTally).getD false
  let sample := bz && bit (tlyOf s c).cfg 1
  let s := if mirror || sample then
      let (f, s) := if d.ports.isEmpty || !d.known then freshFree s else (d.cls, s)
      capture (x.delay + 240) c x.pipe stamp (portMask d.ports) (if d.known then d.action else f / 8) f (pvReason pv) (fld pv 31 24)
        (pvHdrCount pv) (b2n mirror + 2 * b2n sample) x.bytes s
    else s
  if d.ports.isEmpty then
    rxFree x (cutHold cut.handle (· - 1) (rxBlaze x stamp (x.delay + 240) 11 (uIngress x.pipe) 10 s))
  else rxForward x stamp pv d s

/-- A frame that resolves to compartment `c` (R24, R101, R111, R445, R505, R533). -/
def rxResolved (x : Rx) (c : Nat) (secy : Option Nat) (s : State) : State :=
  if (secy.map (fun i => secyCid (secyOf s x.port i) != c)).getD false then
    rxFree x (cnt .rxSecyMismatch x.port 0 1 s)
  else
    let s := cvOffer 0 x.port x.prio c x.bytes s
    let bz := blazed s s.ring x.port x.pos
    let s := if bz then progEvt (uIngress x.pipe) 0x15 c 0 1 (cnt .blzBlazed c 0 1 s) else s
    if (cmpOf s c).frozen || s.md.mode == .frozen || s.md.mode == .staged then rxUnparsed x c bz 2 .lndFrozenDiscard s
    else
      match stampCut s c s.ring with
      | none => rxUnparsed x c bz 9 .parNoCut s
      | some cut => rxParsed x c cut bz s

/-- The clock at which byte `i` of a frame of `n` bytes, whose verdict is now, reached the MAC (log entry 103). -/
def rxByteClk (s : State) (p n i : Nat) : Nat := nowClk s - wireClocks s p (n - i)

/-- The pool of a frame of `n` bytes (R301): that of the port's configuration at the clock of its first byte. -/
def rxPool (s : State) (p n : Nat) : Nat :=
  match (port s p).poolWas.find? (fun w => decide (rxByteClk s p n 0 < 1600 * w.2)) with
  | some w => w.1
  | none => fld (port s p).cfg 42 40

/-- The cells that a frame's bytes take as they arrive, one at the first byte of each run of 256 (R301), and whether the pool had
them all. -/
def rxTake (p : Nat) (rx : RxFrame) (s : State) : List Nat × Bool × State :=
  let n := rx.bytes.length + 4
  allocCells (portGroup s p) (rxPool s p n) ((List.range ((n + 255) / 256)).map (fun i => rxByteClk s p n (256 * i)))
    { s with buf := { s.buf with badPtr := rx.ptr ++ s.buf.badPtr } }

/-- Cells that a frame took return to its pool, where no owner is charged yet (R21, R308). -/
def rxGive (p pool : Nat) (cells : List Nat) (s : State) : State := foldS cells (freeCell (portGroup s p) pool) s

/-- A frame that finds its pool full is refused (R308, R309): its cells are released in the same ring. The refusal is judged with the
row of its last byte (log entry 103). -/
def rxRefuse (p : Nat) (l : List Byte) (cells : List Nat) (s : State) : State :=
  let prio := ingPrio s p l
  let (tagged, vid, _) := outerTag l
  let cid := resolveIn s.cmp.att p tagged vid
  let s := cnt .poolEmpty p prio 1 (rxGive p (rxPool s p (l.length + 4)) cells s)
  { s with buf := { s.buf with empties := tmod (0, 0) s.buf.empties (k3 (cid.getD 0) p prio) (fun e =>
      (e.1 + 1, if e.1 = 0 then rxPool s p (l.length + 4) else e.2)) } }

/-- A frame that passes stage 1, with the cells that it took: its entry ring and position, and its compartment (R23, R24, R301,
R531). Cells that held what MACsec has taken off return. -/
def rxAccept (p : Nat) (rx : RxFrame) (l : List Byte) (secy : Option Nat) (cells : List Nat) (s : State) : State :=
  let g := portGroup s p
  let prio := ingPrio s p l
  let (tagged, vid, _) := outerTag l
  let cid := resolveIn s.cmp.att p tagged vid
  let n := (l.length + 4 + 255) / 256
  let pool := rxPool s p (rx.bytes.length + 4)
  let s := rxGive p pool (cells.drop n) s
  let secure := (List.range 4).any (fun i => !(secyOf s p i).scs.isEmpty && secyEnabled (secyOf s p i))
  let x : Rx := { port := p, group := g, pool := pool, prio := prio, pos := (port s p).pos, bytes := l,
                  cells := cells.take n, delay := if secure then 40 else 0,
                  ts := ingressStamp s p (rx.bytes.length + 4) secure, found := rx }
  let s := modPort p (fun q => { q with pos := q.pos + 1 }) (ownerAdd pool p prio x.cells.length s)
  let s := cnt .rxBytes p 0 (l.length + 4) (cnt .rxFrames p 0 1 s)
  let s := radioCount p l (progEvt (uGroup g) 0x30 (cid.getD 255) (slotBit s p) 1 s)
  match cid with
  | none => rxFree x (cnt .rxUnattached p 0 1 s)
  | some c => rxResolved x c secy s

/-- A MAC control frame ends at the MAC (R81, R84). -/
def macControl (p : Nat) (l : List Byte) (s : State) : State :=
  match beAt l 14 2 with
  | 0x0101 => guardTick p (pfcReceive p (l.getD 17 0) ((List.range 8).map (fun i => BitVec.ofNat 16 (beAt l (18 + 2 * i) 2))) s)
  | 0x0001 => cnt .rxPauseIgnored p 0 1 s
  | _ => cnt .rxMacCtlOther p 0 1 s

/-- Length and FCS of a frame (R21, R81): the counter of the check that it fails. -/
def rxBad (s : State) (p : Nat) (rx : RxFrame) : Option Ctr :=
  let n := rx.bytes.length + 4
  if n < 64 ∨ fld (port s p).cfg 61 48 < n then some .rxLen else if !rx.fcsOk then some .rxFcs else none

/-- The end of stage 1 for a frame that has its cells (R21, R81, R100): one that fails gives them back, counted once. -/
def rxVerdict (p : Nat) (rx : RxFrame) (bad : Option Ctr) (cells : List Nat) (s : State) : State :=
  let pool := rxPool s p (rx.bytes.length + 4)
  match bad with
  | some c => rxGive p pool cells (cnt c p 0 1 s)
  | none =>
    match msecRx p rx.bytes rx.icvOk s with
    | (.bad, s) => rxGive p pool cells s
    | (.clear, s) => rxAccept p rx rx.bytes none cells s
    | (.ok i, s) => rxAccept p rx rx.plain (some i) cells s

/-- FRAME_RECEIVE: MAC control takes no cells (R81); another frame takes its cells, is refused where the pool has none left
(R308), and otherwise meets the checks of stage 1 (R21, R81, R100). -/
def frameReceive (p : Nat) (rx : RxFrame) (s : State) : State :=
  if !(port s p).up then s
  else
    let s := cnt .rxFecUncorr p 0 rx.fecUncorr (cnt .rxFecCorr p 0 rx.fecCorr s)
    let bad := rxBad s p rx
    if beAt rx.bytes 12 2 = 0x8808 then
      match bad with
      | some c => cnt c p 0 1 s
      | none => macControl p rx.bytes s
    else
      match rxTake p rx s with
      | (cells, false, s) => rxRefuse p rx.bytes cells s
      | (cells, true, s) => rxVerdict p rx bad cells s

/-- The frames of an ingress pipeline that is fenced, and of a port group fenced on its own, are discarded where they
stand between verdict and enqueue (R491): those of the pipeline with their learn requests. -/
def fencePipe (pipeFence : Option Nat) (p : InPipe → Bool) (s : State) : State :=
  let gone := s.lnd.pipe.filter p
  let s := { s with lnd := { s.lnd with pipe := s.lnd.pipe.filter (fun x => !p x) } }
  foldS gone (fun e s =>
    match e.copies with
    | [] => s
    | c :: _ =>
      let st := c.fi.stamp
      let f := frameOf s c.fi.serial
      let s := match pipeFence with
        | some u => { cnt .lkoIngressDiscard u 0 1 s with em := { s.em with reqs := s.em.reqs.filter (fun r =>
            !(r.ring == stEntry st && r.port == stPort st && r.ord == c.fi.pos)) } }
        | none => cnt .lndFencedPort (stCid st) 0 e.copies.length s
      let s := blaze st c.fi.pos 11 255 255 (uIngress (stPipe st)) 4 0 (stPipe st) (cutHold (stHandle st) (· - 1) s)
      match f with
      | none => s
      | some f =>
        let s := { s with lnd := { s.lnd with frames := s.lnd.frames.filter (fun y => y.serial != f.serial) } }
        ownerSub f.pool f.port f.prio f.cells.length (foldS (f.cells.map Prod.fst) (freeCell f.group f.pool) s)) s

/-! ## Meanings -/

/-- FRAME_RECEIVE (R23). -/
def execFrameReceive (port : Fin 64) (clk : Fin 1600) (rx : RxFrame) (s : State) : Out :=
  .next (unlessHalted s (frameReceive port.val rx { s with clock := clk.val }))

end Sys2Proof.Machine
end

