-- ==== Sys2Proof/Machine/Lookout.lean ====
section
/-!
DEFINITION. The Lookout (R478 to R502): fences and their sweep, unit resets, lifts, fault reads, factory test mode and
injection; with the changes of mode (R503 to R507) and port-group sleep (R515) that fences and lifts bring about.
-/
namespace Sys2Proof.Machine

/-! ## Modes (R503, R505, R507) -/

/-- MODE_STATE. -/
def modeState (old new cause : Nat) (quiesced : Bool) (s : State) : State :=
  postTo (cid0AndEnabled s) 0x1001 (packLE [(8, s.ring), (1, old), (1, new), (1, cause), (1, b2n quiesced)]) s

/-- The mode changes at the present boundary: XOFF follows it (R505), `RESTART_HOLD` clears with the entry into FORWARDING
(R496), and MODE_STATE is posted. -/
def setMode (m : Mode) (cause : Nat) (s : State) : State :=
  let old := s.md.mode
  let stopping := m == .frozen || m == .staged
  let hold := s.lko.restartHold && m != .forwarding
  let s := { s with md := { s.md with mode := m, since := s.ring, quiesced := !stopping }, lko := { s.lko with restartHold := hold } }
  modeState old.code m.code cause false (foldS allPorts pfcUpdate s)

/-- What a target of FORWARDING brings: DEGRADED while a firebreak stands (R12, R503). -/
def forwardMode (s : State) : Mode := if anyFenced s then .degraded else .forwarding

/-- FORWARDING gives way to DEGRADED when a firebreak is raised (R503). -/
def degrade (s : State) : State := if s.md.mode = .forwarding ∧ anyFenced s then setMode .degraded 2 s else s

/-- DEGRADED gives way to FORWARDING when the last firebreak is lifted (R503). -/
def undegrade (s : State) : State := if s.md.mode = .degraded ∧ anyFenced s = false then setMode .forwarding 3 s else s

/-! ## Port-group sleep (R515, R516) -/

/-- The compartments attached to a port of a group. -/
def groupAttached (s : State) (g : Nat) : List Nat := ((groupPorts s g).flatMap (attachedTo s)).eraseDups

/-- GROUP_POWER. -/
def groupPower (g : Nat) (on : Bool) (cause : Nat) (s : State) : State :=
  postTo (0 :: (groupAttached s g).filter (· ≠ 0)) 0x1002 (packLE [(8, s.ring), (1, g), (1, b2n on), (1, cause)]) s

/-- A pipeline that is gated is ungated, and is ready within 8 rings (R516). -/
def ungate (p : Nat) (s : State) : State :=
  if tget false s.md.gated (k1 p) then
    cycleRun (uIngress p) (cycleRun (uEgress p) { s with md := { s.md with
      gated := tput false s.md.gated (k1 p) false, waking := tput false s.md.waking (k1 p) true } })
  else s

/-- The ports of a group train afresh. -/
def trainPorts (g : Nat) (s : State) : State := foldS (groupPorts s g) (modPort · (fun q => { q with trainFrom := s.ran })) s

/-- The optics of a group's cages. -/
def groupCages (g : Nat) : List Nat := (List.range 52).filter (fun c => groupOfCage c == g)

/-- Put a group to sleep or wake it (R515); `cause` 0 command, 1 night trim. -/
def groupSleep (g : Nat) (on : Bool) (cause : Nat) (s : State) : State :=
  if asleep s g = on then s
  else
    let s := { s with md := { s.md with asleep := tput false s.md.asleep (k1 g) on } }
    let s := if on then
        let s := foldS (groupPorts s g) (fun p s => portSrcLost p (portDown p s)) (cycleStop (uGroup g) s)
        foldS (groupCages g) (modCage · (fun c => { c with highPower := false })) s
      else
        let s := trainPorts g (ungate (g / 2) (cycleRun (uGroup g) s))
        foldS (groupCages g) (fun c s => modCage c (fun x => cagePowerAt s c x.temp x) s) s
    groupPower g on cause s

/-- A group behind a firebreak records the command, and its lift applies it (R515). -/
def groupSleepCmd (g : Nat) (on : Bool) (cause : Nat) (s : State) : State :=
  if groupFenced s g then { s with md := { s.md with sleepRec := tput (false, 0) s.md.sleepRec (k1 g) (on, cause) } } else groupSleep g on cause s

/-- The sleep and wake changes that wait for step 8 of the present boundary (R515, R581). -/
def sleepStep (s : State) : State :=
  foldS s.md.sleepDue (fun x => groupSleepCmd x.1 x.2.1 x.2.2) { s with md := { s.md with sleepDue := [] } }

/-! ## Fences (R478, R490, R491) -/

/-- The units fenced with a unit (R478). -/
def withUnits (s : State) (u : Nat) : List Nat :=
  if u < 8 then [uGroup (2 * u), uGroup (2 * u + 1)]
  else if u < 16 then [uGroup (2 * (u - 8)), uGroup (2 * (u - 8) + 1)]
  else if 36 ≤ u ∧ u < 40 ∧ grvPaired s (u - 36) then [if (u - 36) % 2 = 0 then u + 1 else u - 1]
  else []

/-- The sum of a list of numbers. -/
def sumOf (l : List Nat) : Nat := l.foldl (· + ·) 0

/-- The requests that neighbours have queued toward a unit (R491; log entry 56): toward a port group, the copies that wait in the
VOQs and the scheduler queues of its ports; toward an egress pipeline, the gathered copies that wait to enter its dispatch queue;
toward a plane, the requests of R281. Nothing queues toward an ingress pipeline or a Grove die, and those toward a DRAM
channel are counted as they are discarded (R358). -/
def queuedToward (s : State) (u : Nat) : Nat :=
  if u < 8 then 0
  else if u < 16 then (tget [] s.krf.ready (k1 (u - 8))).length
  else if u < 32 then
    let mine (p : Nat) : Bool := portGroup s p == u - 16
    sumOf (s.lnd.voq.map (fun e => if mine e.1.2.1 then (e.2.head ++ e.2.tail).length else 0)) +
      sumOf (s.sch.queue.map (fun e => if mine e.1.1 then e.2.length else 0))
  else if u < 34 then (requestsOf s (u - 32)).length
  else 0

/-- The programmable counters of a fenced unit are cleared; the selects stay (R538). -/
def clearProg (u : Nat) (s : State) : State :=
  { s with ctr := { s.ctr with prog := tmod {} s.ctr.prog (k1 u) (fun p =>
      { p with val := List.replicate 8 0, ovf := 0, ringOvf := 0, ringSet := false }) } }

/-- What was in flight inside a port group is discarded, and its ports go down (R276, R293, R80). -/
def fenceGroupUnit (g : Nat) (s : State) : State :=
  let s := fencePipe none (fun e => e.copies.any (fun c => c.ing == g)) s
  let s := { s with cap := { s.cap with due := s.cap.due.filter (fun d => portGroup s d.port != g) } }
  let ps := groupPorts s g
  let s := foldS ps (fun p s => fillBuckets p (portDown p s)) (fenceGroup g s)
  { s with md := { s.md with sleepRec := tput (false, 0) s.md.sleepRec (k1 g) (asleep s g, 0) } }

/-- What was in flight inside a unit is discarded (R491). -/
def fenceEffect (u : Nat) (s : State) : State :=
  let s := clearProg u s
  if u < 8 then
    let s := fencePipe (some u) (fun e => e.copies.any (fun c => stPipe c.fi.stamp == u)) s
    { s with cap := { s.cap with staging := tput [] s.cap.staging (k1 u) [], due := s.cap.due.filter (fun d => d.pipe != u) } }
  else if u < 16 then fenceKerf (u - 8) s
  else if u < 32 then fenceGroupUnit (u - 16) s
  else if u < 34 then fencePlane (u - 32) s
  else if u < 48 then s
  else tallyFence (u - 48) (fenceChannel (u - 48) s)

/-- One unit is fenced, with `main` (R407, R491): its epoch rises, and UNIT_FENCED is posted. A fenced unit is not fenced
again (R490). -/
def fenceOne (main u : Nat) (s : State) : State :=
  if isFenced s u then s
  else
    let e := ((unitSt s u).epoch + 1) % 16
    let n := queuedToward s u
    let s := modUnit u (fun _ => { epoch := e, epochRing := s.ring, fenced := true, with_ := main }) s
    let s := { s with lko := { s.lko with fences := (s.lko.fences + 1) % 65536, lastChange := s.ring } }
    let s := fenceEffect u (cnt .lkoSweepTokens u 0 n (cnt .lkoFences u 0 1 s))
    postTo (enabledCids s) 0x0003 (packLE [(1, u), (1, e)]) s

/-- A unit is fenced with those that go with it. -/
def fenceUnit (u : Nat) (s : State) : State :=
  if isFenced s u then s else foldS (u :: withUnits s u) (fenceOne u) s

/-- The fences of units that satisfy `p` are raised at the present boundary, where their causes were found before it
(R490). -/
def fencesDue (p : Nat → Bool) (s : State) : State :=
  let due (e : Nat × Nat) : Bool := p e.1 && decide (e.2 < s.ran)
  let us := (s.lko.pendFence.filter due).map Prod.fst
  degrade (foldS us fenceUnit { s with lko := { s.lko with pendFence := s.lko.pendFence.filter (fun e => !due e) } })

/-- The causes that R482 and R357 give a unit. -/
def fenceCauses (u : Nat) : Nat :=
  if u < 16 then 2 else if u < 34 then 3 else if 36 ≤ u ∧ u < 40 then 3 else if 48 ≤ u ∧ u < 64 then 4 else 0

/-- A cause of R482 or R357 is found on a unit: it is recorded, and the fence falls at the next boundary. -/
def fenceCause (u cause : Nat) (s : State) : State :=
  if unitPresent s.variant u && decide (1 ≤ cause) && decide (cause ≤ fenceCauses u) then
    fenceFault u (if 48 ≤ u then 0x0C02 else 0x0F01) 255 [cause] s
  else s

/-- FENCE_RAISE: at a boundary the fence of a unit whose cause was found before it is raised; otherwise the cause is found
now, and the fence is raised at the next boundary (R490). -/
def fenceRaise (u cause : Nat) (s : State) : State :=
  if atBoundary s && s.lko.pendFence.any (fun e => e.1 == u && decide (e.2 < s.ran)) then fencesDue (fun x => x == u) s
  else fenceCause u cause s

/-- LOSS_OF_LOCK (R357, R482): the cause is the first of a port group, the third of a plane, the fourth of a channel. -/
def lossOfLock (u : Nat) (s : State) : State :=
  if 16 ≤ u ∧ u < 32 then fenceCause u 1 s
  else if 32 ≤ u ∧ u < 34 then fenceCause u 3 s
  else if 48 ≤ u ∧ u < 64 then fenceCause u 4 s
  else s

/-- FIREBREAK_RAISE (R495). -/
def opFirebreakRaise : LOp :=
  { op := .firebreakRaise,
    present := fun s q => !fenceable q.arg1.toNat || unitPresent s.variant q.arg1.toNat,
    args := fun _ q => if fenceable q.arg1.toNat then .ok else .range,
    pre := fun s q =>
      let u := q.arg1.toNat
      let raise (x : Nat) : Bool := s.items.any (fun i => i.op == .firebreakRaise && i.req.arg1.toNat == x)
      let other := if u = 32 then 33 else 32
      if isFenced s u || ((u == 32 || u == 33) && (isFenced s other || fencePending s other || raise other)) then .range
      else .ok }

/-- A commanded fence lands (R495): it is handled as a fault fence is. -/
def landRaise (i : Item) (s : State) : Ans :=
  let u := i.req.arg1.toNat
  if isFenced s u then { st := note u 0x0F03 255 [] s }
  else if bothPlanes s u then { st := restartFault u 0x0F04 255 [0x0F03] s }
  else { st := degrade (fenceUnit u (newRec 1 u 0x0F03 255 (((unitSt s u).epoch + 1) % 16) [] s)) }

/-! ## Resets and lifts (R493, R494) -/

/-- A unit of a gated pipeline is reset on waking (R502): its reset waits while neither group of the pipeline has been woken, and
the wake of a group behind a firebreak is the one it has recorded (log entry 122). -/
def resetWaits (s : State) (u : Nat) : Bool :=
  let p := u % 8
  let down (g : Nat) : Bool := if groupFenced s g then (tget (false, 0) s.md.sleepRec (k1 g)).1 else asleep s g
  decide (u < 16) && tget false s.md.gated (k1 p) && down (2 * p) && down (2 * p + 1)

/-- UNIT_RESET: at the boundary after the fence the unit's reset begins (R493). -/
def unitReset (u : Nat) (s : State) : State :=
  let x := unitSt s u
  if x.fenced && !x.ready && !x.retired && !x.resetting && decide (x.epochRing < s.ring) && !resetWaits s u then
    modUnit u (fun x => { x with resetting := true }) s
  else s

/-- FIREBREAK_READY event: result 0 ready, 1 reset failed, 2 retired. -/
def readyEvent (u result : Nat) (s : State) : State :=
  post 0 0x0F02 (packLE [(8, s.ring), (1, u), (1, (unitSt s u).epoch), (1, result)]) s

/-- What the reload of a unit's reset restores (R493): the records of a pipeline that the Ranger was to rewrite. The entries of a
Grove die are written anew with the bits that they have, and a suppressed one stays suppressed (R212, R216). -/
def reload (u : Nat) (s : State) : State :=
  if u < 16 then
    let mine (r : Repair) : Bool := if u < 8 then r.region == 0 && r.who == u else r.region == 3 && r.who == u - 8
    { s with par := { s.par with repairs := s.par.repairs.filter (fun r => !mine r) } }
  else s

/-- FIREBREAK_READY: the reset ends, well or badly (R493). -/
def firebreakReady (u : Nat) (pass : Bool) (s : State) : State :=
  let x := unitSt s u
  if !x.resetting then s
  else if pass then readyEvent u 0 (reload u (modUnit u (fun x => { x with resetting := false, ready := true }) s))
  else
    let n := x.attempts + 1
    let s := note u 0x0F02 255 [n] (cnt .lkoResetFail u 0 1 s)
    let s := modUnit u (fun x => { x with attempts := n, resetting := decide (n < 3), retired := decide (3 ≤ n) }) s
    readyEvent u (if n < 3 then 1 else 2) s

/-- The units that the lift of `u` lifts: those fenced with it, itself among them. -/
def liftSet (s : State) (u : Nat) : List Nat :=
  (List.range 64).filter (fun x => isFenced s x && (unitSt s x).with_ == u)

/-- FIREBREAK_LIFT (R494). -/
def opFirebreakLift : LOp :=
  { op := .firebreakLift,
    present := fun s q => !fenceable q.arg1.toNat || unitPresent s.variant q.arg1.toNat,
    pre := fun s q =>
      let u := q.arg1.toNat
      firstBad [
        (isFenced s u && (unitSt s u).with_ == u, .range),
        ((liftSet s u).all (fun x => (unitSt s x).ready && !(unitSt s x).retired), .busy)] }

/-- A group that is behind no firebreak any more rejoins: its ports train, and its recorded sleep state takes effect (R494, R515). -/
def liftGroup (g : Nat) (s : State) : State :=
  if groupFenced s g then s
  else
    let r := tget (false, 0) s.md.sleepRec (k1 g)
    groupSleep g r.1 r.2 (trainPorts g s)

/-- One unit rejoins with its epoch unchanged. A group that was lifted before its pipeline rejoins with the pipeline (R478). -/
def liftOne (u : Nat) (s : State) : State :=
  let s := modUnit u (fun x => { epoch := x.epoch, epochRing := x.epochRing }) s
  if u < 16 then liftGroup (2 * (u % 8) + 1) (liftGroup (2 * (u % 8)) s)
  else if u < 32 then liftGroup (u - 16) s
  else if 48 ≤ u then liftChannel (u - 48) s
  else s

/-- FIREBREAK_LIFTED: result 0 lifted, 1 cancelled. -/
def liftedEvent (u result : Nat) (s : State) : State :=
  postTo (enabledCids s) 0x0F03 (packLE [(8, s.ring), (1, u), (1, (unitSt s u).epoch), (1, result)]) s

/-- A lift lands: cancelled where a unit was fenced afresh after its acceptance (R494). -/
def landLift (i : Item) (s : State) : Ans :=
  let u := i.req.arg1.toNat
  let us := liftSet s u
  if us.contains u && us.all (fun x => (unitSt s x).ready && decide ((unitSt s x).epochRing ≤ i.v)) then
    let s := foldS us liftOne { s with lko := { s.lko with lastChange := s.ring } }
    { st := undegrade (liftedEvent u 0 s) }
  else { st := liftedEvent u 1 (foldS us (modUnit · (fun x => { x with ready := false })) s) }

/-! ## FAULT_READ (R484, R487) -/

/-- A record as 64 bytes; `full` is false where the detail words are withheld. -/
def recBytes (full : Bool) (r : FaultRec) : List Byte :=
  packLE [(4, r.seq), (1, r.cls), (1, r.unit), (2, r.code), (8, r.ring), (1, r.cid), (1, r.epoch), (2, r.count), (4, 0)] ++
    padTo 40 (if full then (r.detail.take 5).flatMap (leBytes 8) else [])

/-- A record lies in the scope of compartment `c`. -/
def recScope (c : Nat) (r : FaultRec) : Bool := c == 0 || r.cid == c || (r.cid == 255 && r.cls != 0)

/-- FAULT_READ. -/
def opFaultRead : LOp :=
  { op := .faultRead, snap := true,
    args := fun _ q => firstBad [(q.arg1 != 0, .zeroLen), (decide (q.arg1.toNat ≤ 4096), .range)],
    now := fun s q =>
      let l := ((s.lko.recs.reverse.filter (fun r => decide (q.arg0.toNat ≤ r.seq))).filter (recScope q.c)).take q.arg1.toNat
      let full (r : FaultRec) : Bool := q.c != 0 || r.cid == 255 || r.cid == 0
      { st := s, ring := s.ring, count := l.length, value := ((s.lko.recs.head?).map FaultRec.seq).getD 0,
        data := l.flatMap (fun r => recBytes (full r) r) } }

/-- FAULT events of the records made since the last ring's end (R489). -/
def faultEvents (s : State) : State :=
  let s0 := { s with lko := { s.lko with unposted := 0 } }
  foldS ((s.lko.recs.take s.lko.unposted).reverse.filter (fun r => decide (r.cls < 2))) (fun r s =>
    let body (full : Bool) : List Byte := (recBytes full r).take 20 ++ zeros 4 ++ slice (recBytes full r) 24 24
    let s := post 0 0x0F01 (body (r.cid == 255 || r.cid == 0)) s
    if r.cid = 255 ∨ r.cid = 0 then s else post r.cid 0x0F01 (body true) s) s0

/-! ## Factory test mode (R499, R500) -/

/-- The injections of a token: ring, unit, class, code. -/
def tokenInjects (l : List Byte) (ring : Nat) : List (Nat × Nat × Nat × Nat) :=
  (List.range (leAt l 5 1)).map (fun i => (ring + leAt l (36 + 8 * i) 4, leAt l (32 + 8 * i) 1, leAt l (33 + 8 * i) 1, leAt l (34 + 8 * i) 2))

/-- The token's signature, serial number and sequence (R499). -/
def tokenOk (s : State) (q : Req) : Bool :=
  signedOver q (digest (q.payload.take 96)) && slice q.payload 8 16 == beBytes 16 (Config.fuse 0).toNat && leAt q.payload 24 4 == s.lko.factoryCount + 1

/-- FACTORY_MODE. -/
def opFactoryMode : LOp :=
  { op := .factoryMode,
    args := fun _ q => firstBad [
      (leAt q.payload 0 4 == 0x46544B31, .range), (leAt q.payload 4 1 == 1 || leAt q.payload 4 1 == 2, .range),
      (decide (leAt q.payload 5 1 ≤ 8), .range)],
    pre := fun s q => if tokenOk s q then .ok else .badSig }

/-- The mailbox of a compartment that factory test mode deletes is out of service; its ring bases, `TIMEOUT` and `IRQ_HOLDOFF` stay
(R387, R388). -/
def closeMbx (c : Nat) (s : State) : State :=
  dropItems c (modMbx c (fun m =>
    { cmdBase := m.cmdBase, rspBase := m.rspBase, evtBase := m.evtBase, timeout := m.timeout, holdoff := m.holdoff }) s)

/-- The module enters factory test mode (R500). -/
def landFactory (i : Item) (s : State) : Ans :=
  if tokenOk s i.req then
    let gone := (allCids.drop 1).filter (cmpDefined s)
    let s := foldS gone (fun c s => cmpState c kDeleted (rotNow s c) 0 0 0 (closeMbx c (deleteCmp c s))) s
    let keys := (s.trust.keys.map (fun e => if e.2.owner = some 0 then (e.1, freedSlot e.2) else e)).filter
      (fun e => e.2 ≠ ({} : KeySlot))
    let two := leAt i.req.payload 4 1 == 2
    let s := { s with trust := { s.trust with keys := keys, factorySeen := true, binding := tfilter (fun k => k.1 == 0) s.trust.binding,
                                              ownerKeys := if two then [] else s.trust.ownerKeys,
                                              claimed := s.trust.claimed && !two } }
    { st := { s with lko := { s.lko with factory := true, factoryCount := s.lko.factoryCount + 1,
                                         inject := s.lko.inject ++ tokenInjects i.req.payload s.ring } },
      ring := s.ring }
  else refuse .badSig s

/-- An injected fault is raised (R500). -/
def injectOne (x : Nat × Nat × Nat × Nat) (s : State) : State :=
  let u := x.2.1
  if !unitPresent s.variant u then s
  else
    match x.2.2.1 with
    | 0 => note u 0x0F09 255 [x.2.2.2] s
    | 1 => fenceFault u 0x0F09 255 [x.2.2.2] s
    | 2 => restartFault u 0x0F09 255 [x.2.2.2] s
    | 3 => haltFault u 0x0F09 255 [x.2.2.2] s
    | _ => s

/-- FAULT_INJECT: the injections whose ring has come by ring `n`. -/
def faultInject (n : Nat) (s : State) : State :=
  if s.lko.factory then
    let due := s.lko.inject.filter (fun x => decide (x.1 ≤ n))
    foldS due injectOne { s with lko := { s.lko with inject := s.lko.inject.filter (fun x => decide (n < x.1)) } }
  else s

/-- TAMPER (R476): the finding halts the module. -/
def tamper (finding : Nat) (s : State) : State := haltFault 0x47 0x0E02 255 [finding + 1] s

/-- HALT (R483, R485, R497, R562): a finding of the power supply, or an uncorrectable error in Ranger memory, halts the module; an
uncorrectable error in the cut images restarts it, and a corrected one is noted (log entry 123). -/
def halt (finding : HaltFind) (addr : BitVec 64) (s : State) : State :=
  match finding with
  | .supply k => haltFault 0x48 0x0F08 255 [k.val + 1] s
  | .memUncorr => haltFault 0x46 0x0F07 255 [addr.toNat] s
  | .memCorr => note 0x46 0x0F06 255 [addr.toNat] s
  | .cutImage => restartFault 0x46 0x0F04 255 [0x0F07] s

/-! ## Meanings -/

/-- FENCE_RAISE (R490). -/
def execFenceRaise (unit : Fin 64) (cause : Fin 5) (s : State) : Out := .next (unlessHalted s (fenceRaise unit.val cause.val s))
/-- UNIT_RESET (R493). -/
def execUnitReset (unit : Fin 64) (s : State) : Out := .next (unlessHalted s (unitReset unit.val s))
/-- FIREBREAK_READY (R493). -/
def execFirebreakReady (unit : Fin 64) (pass : Bool) (s : State) : Out := .next (unlessHalted s (firebreakReady unit.val pass s))
/-- LOSS_OF_LOCK (R482). -/
def execLossOfLock (unit : Fin 64) (s : State) : Out := .next (unlessHalted s (lossOfLock unit.val s))
/-- WATCHDOG (R483). -/
def execWatchdog (s : State) : Out := .next (unlessHalted s (restartFault 0x46 0x0F05 255 [] s))
/-- HALT (R497). -/
def execHalt (finding : HaltFind) (addr : BitVec 64) (s : State) : Out := .next (unlessHalted s (halt finding addr s))
/-- TAMPER (R476). -/
def execTamper (finding : Fin 5) (s : State) : Out := .next (unlessHalted s (tamper finding.val s))
/-- FAULT_INJECT (R500). -/
def execFaultInject (s : State) : Out := .next (unlessHalted s (faultInject (dueRing s) s))
/-- FAULT_READ (R487). -/
def execFaultRead (q : Req) (s : State) : Out := .next (runOp opFaultRead q s)
/-- FIREBREAK_LIFT (R494). -/
def execFirebreakLift (q : Req) (s : State) : Out := .next (runOp opFirebreakLift q s)
/-- FIREBREAK_RAISE (R495). -/
def execFirebreakRaise (q : Req) (s : State) : Out := .next (runOp opFirebreakRaise q s)
/-- FACTORY_MODE (R499). -/
def execFactoryMode (q : Req) (s : State) : Out := .next (runOp opFactoryMode q s)

end Sys2Proof.Machine
end

