-- ==== Sys2Proof/Machine/Timing.lean ====
section
/-!
DEFINITION. The ring grid and its sources (R47 to R73): readings and their rejection, qualification and selection, the
timing states, alignment and realignment, the cartridge and the outputs. Offsets are grid minus source in 0.5 ns units.
-/
namespace Sys2Proof.Machine

/-! ## Sources (R54 to R58) -/

/-- Rejections of R57, in the order of their counters: the rejection is counted and reported. -/
def timReject (k : Nat) (s : State) : State := note 0x45 0x0101 255 [k] (cnt .timRej k 0 1 s)
def rejPps : Nat := 0
def rejTod : Nat := 1
def rejStep : Nat := 2
def rejQual : Nat := 3
def rejRate : Nat := 4
def rejQl : Nat := 5
def rejFreq : Nat := 6
def rejCart : Nat := 7
def rejTemp : Nat := 8

/-- `TIM.SRC.ENABLE`, `PRIORITY`, `DOMAIN`, `STEP_LIMIT` and `CLASS_LIMIT` of an entry (R58). -/
def srcEnabled (s : State) (i : Nat) : Bool := bit (srcRec s i) 14
def srcPriority (s : State) (i : Nat) : Nat := fld (srcRec s i) 13 10
def srcDomain (s : State) (i : Nat) : Nat := fld (srcRec s i) 23 16
def srcStep (s : State) (i : Nat) : Nat := fld (srcRec s i) 47 32
def srcClass (s : State) (i : Nat) : Nat := fld (srcRec s i) 55 48

/-- Entry `i` is enabled and of type `t`. -/
def srcIs (s : State) (i t : Nat) : Bool := srcEnabled s i && srcType s i == t

/-- A port that carries PTP or SyncE is up (R73, R515). -/
def srcPortUp (s : State) (i : Nat) : Bool := (port s (srcPort s i)).up

/-- The qualified source of lowest priority number, then lowest index, among those of two types (R58). One held TIME_FAR counts as not
qualified, here and in the rows of R59: R52 has the grid not acquire it, and R58 does not name it (DESIGN CHOICE, log entry 127). -/
def bestSrc (s : State) (a b : Nat) : Option Nat :=
  let c := (List.range 8).filter (fun i =>
    srcEnabled s i && (srcType s i == a || srcType s i == b) && (srcOf s i).qualified && !(srcOf s i).far)
  (sortBy (fun x y => decide (srcPriority s x < srcPriority s y)) c).head?

/-- The phase source that the DPLL follows, and the frequency source. -/
def bestPhase (s : State) : Option Nat := bestSrc s 1 2
def bestFreq (s : State) : Option Nat := bestSrc s 3 4

/-- An accepted reading steers: the filtered offset and frequency are those of the selected source (R58, R71). -/
def steer (i : Nat) (filtered freq : Int) (s : State) : State :=
  let s := modSrc i (fun x => { x with offset := filtered }) s
  if s.tim.source = some i then { s with tim := { s.tim with phaseOffset := filtered, freqOffset := freq, tcxo := some freq } } else s

/-- The TCXO's trim: what the DPLL has learned, and after a power cycle what the calibration page stores (R73). -/
def tcxoTrim (s : State) : Int := s.tim.tcxo.getD (calTcxo s)

/-- A pulse's distance from its expected instant, corrected by the stored delay of the 1PPS input's cable (R69). -/
def ppsFix (s : State) (offset : Int) : Int := offset - calPpsIn s / 32

/-- An expected pulse is missing or rejected (R55): the second in a row loses the source; one that is qualifying starts its
ten pulses afresh (R54). -/
def pulseBad (i : Nat) (s : State) : State :=
  if 2 ≤ (srcOf s i).missed + 1 then srcLost i s
  else modSrc i (fun x =>
    if x.qualified then { x with missed := x.missed + 1 }
    else { x with missed := x.missed + 1, pulses := 0, lastPulse := none, lastTod := none }) s

/-- PPS_PULSE (R55, R69): `offset` is the distance at which the pulse arrives from its expected instant, `filtered` the
filtered offset that the corrected one yields. -/
def ppsPulse (i : Nat) (offset filtered freq : Int) (s : State) : State :=
  if !srcIs s i 2 then s
  else if s.tim.state = .locked ∧ 200 < (ppsFix s offset).natAbs then pulseBad i (timReject rejPps s)
  else
    steer i filtered freq (modSrc i (fun x =>
      { x with missed := 0, lastPulse := some s.ran, pulses := if x.lastPulse.isSome then 0 else x.pulses }) s)

/-- PPS_MISSING (R55). -/
def ppsMissing (i : Nat) (s : State) : State := if srcIs s i 2 then pulseBad i s else s

/-- The TAI−UTC offset: that of a qualified PTP source, else `TIM.CTL.TAI_UTC` (R55). -/
def taiUtc (s : State) : Nat :=
  let ptp := (List.range 8).filter (fun i => srcIs s i 1 && (srcOf s i).qualified && (srcOf s i).utcOffset.isSome)
  match (sortBy (fun x y => decide (srcPriority s x < srcPriority s y)) ptp).head? with
  | some i => (srcOf s i).utcOffset.getD 0
  | none => fld s.tim.ctl 71 64

/-- TOD_SENTENCE (R55): the sentence names the pulse received 10 ms to 900 ms earlier. -/
def todSentence (i utc : Nat) (s : State) : State :=
  if !srcIs s i 2 then s
  else
    match (srcOf s i).lastPulse with
    | none => s
    | some r =>
      if s.ran < r + 10000 ∨ r + 900000 < s.ran then s
      else
        let tai := utc + taiUtc s
        let next := match (srcOf s i).lastTod with | none => true | some t => tai == t + 1
        if next && (s.tim.state != .locked || tai == (s.ring + r - s.ran + 500000) / 1000000) then
          modSrc i (fun x => { x with lastPulse := none, lastTod := some tai, pulses := x.pulses + 1 }) s
        else
          modSrc i (fun x => { x with lastPulse := none, pulses := 0,
                                      lastTod := if x.qualified then x.lastTod else none }) (timReject rejTod s)

/-- A PTP message as the port timestamps it. -/
structure PtpMsg where
  announce : Bool
  domain : Nat
  clockClass : Nat
  steps : Nat
  utc : Nat
  rateOk : Bool
  offset : Int

/-- The check of R56 that a PTP message fails first. R56 gives no order of its checks, and the model's is this one, so a
message that fails several raises one counter: the domain, the Announce's clockClass and stepsRemoved, the rate, and the
step limit (DESIGN CHOICE, log entry 60). -/
def ptpFails (s : State) (i : Nat) (m : PtpMsg) : Option Nat :=
  let x := srcOf s i
  if m.domain ≠ srcDomain s i then some rejQual
  else if m.announce ∧ (srcClass s i < m.clockClass ∨ 255 ≤ m.steps) then some rejQual
  else if !m.rateOk then some rejRate
  else if !m.announce && (x.qualified || x.goodSince.isSome) && decide (2 * srcStep s i < (m.offset - x.offset).natAbs) then some rejStep
  else none

/-- PTP_MESSAGE (R56): the offsets are measured from the timestamps, and the port's `ASYM` is taken off them (R91). R56 does not say
whether Sync messages that arrive and are rejected have stopped: accepted ones alone count here (DESIGN CHOICE, log entry 127). -/
def ptpMessage (i : Nat) (m : PtpMsg) (filtered freq : Int) (s : State) : State :=
  if !srcIs s i 1 || !srcPortUp s i then s
  else
    let asym := portAsym s (srcPort s i)
    let m := { m with offset := m.offset - asym }
    let filtered := filtered - asym
    match ptpFails s i m with
    | some k => modSrc i (fun x => { x with goodSince := if x.qualified then x.goodSince else none }) (timReject k s)
    | none =>
      if m.announce then modSrc i (fun x => { x with lastAnnounce := s.ran, utcOffset := some m.utc, clockClass := m.clockClass }) s
      else
        steer i filtered freq (modSrc i (fun x => { x with lastSync := s.ran, goodSince := some (x.goodSince.getD s.ran) }) s)

/-- PTP_SYNC_TIMEOUT: no Sync for 3 s loses the source (R56). -/
def ptpSyncTimeout (i : Nat) (s : State) : State :=
  if srcIs s i 1 && decide ((srcOf s i).lastSync + 3000000 ≤ s.ran) then srcLost i s else s

/-- PTP_ANNOUNCE_TIMEOUT: no Announce for three intervals loses the source (R56). -/
def ptpAnnounceTimeout (i : Nat) (s : State) : State := if srcIs s i 1 then srcLost i s else s

/-- ESMC_MESSAGE (R54, R57): a quality level below the floor is rejected, and the source with it. -/
def esmcMessage (i ql : Nat) (s : State) : State :=
  if !srcIs s i 3 || !srcPortUp s i then s
  else
    let s := modSrc i (fun x => { x with ql := ql, lastEsmc := s.ran }) s
    if srcClass s i < ql then srcLost i (timReject rejQl s)
    else modSrc i (fun x => { x with goodSince := some (x.goodSince.getD s.ran) }) s

/-- ESMC_TIMEOUT: no ESMC message for 5 s (R57). -/
def esmcTimeout (i : Nat) (s : State) : State :=
  if srcIs s i 3 && decide ((srcOf s i).lastEsmc + 5000000 ≤ s.ran) then srcLost i (timReject rejQl s) else s

/-- FREQ_RANGE: a frequency input lies outside ±4.6 ppm (R57). -/
def freqRange (i : Nat) (s : State) : State :=
  if srcIs s i 3 || srcIs s i 4 then
    modSrc i (fun x => { x with goodSince := if srcType s i = 4 then some s.ran else none }) (srcLost i (timReject rejFreq s))
  else s

/-- The record of a source that qualifies afresh: its time of being good, where it needs no message, begins now. -/
def newSrc (typ : Nat) (s : State) : SrcSt :=
  { lastSync := s.ran, lastEsmc := s.ran, lastAnnounce := s.ran, goodSince := if typ = 4 then some s.ran else none }

/-- Every source qualifies afresh, after a restart or a power cycle (R73). -/
def freshSrcs (s : State) : State :=
  foldS (List.range 8) (fun i s => if srcType s i = 0 then s else modSrc i (fun _ => newSrc (srcType s i) s) s)
    { s with tim := { s.tim with srcs := [], source := none } }

/-- The source has been good for its qualification time (R54). -/
def goodLong (s : State) (i : Nat) : Bool :=
  let x := srcOf s i
  match srcType s i with
  | 1 => x.goodSince.any (fun g => decide (g + 30000000 ≤ s.ran))
  | 2 => decide (10 ≤ x.pulses)
  | 3 | 4 => x.goodSince.any (fun g => decide (g + 10000000 ≤ s.ran))
  | _ => false

/-- A source is found too far from the grid: TIME_FAR (R52). -/
def timeFarAt (i : Nat) (s : State) : State :=
  post 0 0x0302 (packLE [(8, s.ring), (1, i)]) (modSrc i (fun x => { x with far := true }) { s with tim := { s.tim with timeFar := true } })

/-- The module is in service, where the grid acquires no source that lies too far (R52). -/
def inService (s : State) : Bool := s.md.mode == .forwarding || s.md.mode == .frozen || s.md.mode == .degraded

/-- The grid may be set by an initial alignment (R50): SEALED or STAGED, FREE or ACQUIRING. -/
def mayAlign (s : State) : Bool :=
  (s.md.mode == .sealed || s.md.mode == .staged) && (s.tim.state == .free || s.tim.state == .acquiring)

/-- A phase source that qualifies (R50, R52): one too far from the grid is not acquired while the module is in service;
the first since the power cycle aligns the grid. -/
def phaseQualifies (i : Nat) (offset : Int) (s : State) : State :=
  let first := !s.tim.aligned
  let s := { s with tim := { s.tim with aligned := true } }
  if inService s && decide (2000000 < offset.natAbs) then timeFarAt i s
  else if first && mayAlign s then { s with tim := { s.tim with alignDue := some i } }
  else s

/-- SOURCE_QUALIFY (R54): `offset` is the filtered offset at that moment. -/
def sourceQualify (i : Nat) (offset : Int) (s : State) : State :=
  if srcEnabled s i && !(srcOf s i).qualified && goodLong s i then
    let s := modSrc i (fun x => { x with qualified := true, offset := offset, missed := 0, far := false }) s
    if srcType s i = 1 ∨ srcType s i = 2 then phaseQualifies i offset s else s
  else s

/-! ## Setting the grid (R50, R53) -/

/-- The grid is set from phase source `i`: the ring becomes the one that the source names and every source's offset shifts
with it; no phase correction is left under way, the ±50 ns of R59 are counted afresh, and so are learned entries' ages and, in another
window of 1,000,000 rings, what is counted by window (R482); the present blaze record governs the frames of the new ring numbers. Spans of time run on (`State.ran`). Scheduled actions that the step passes over wait for the next boundary (R53). -/
def alignGrid (i : Nat) (s : State) : State :=
  let off := (srcOf s i).offset
  let r := ((2000 * (s.ring : Int) - off + 1000) / 2000).toNat
  let l := (s.tim.srcs.map (fun e => (e.1, { e.2 with offset := e.2.offset - off }))).filter (fun e => e.2 ≠ {})
  let same := s.ring / 1000000 == r / 1000000
  { s with
    ring := r,
    tim := { s.tim with srcs := l, phaseOffset := 0, slewEnd := 0, okSince := none, stepped := true, evalRing := r },
    lko := { s.lko with win := if same then s.lko.win else [],
                        units := s.lko.units.map (fun e => (e.1, { e.2 with epochRing := min e.2.epochRing r })) },
    dram := { s.dram with errWin := if same then s.dram.errWin else [] },
    ctr := { s.ctr with blzWas := [] },
    em := { s.em with floor := r, ents := s.em.ents.map (fun e => if e.learned then { e with act := r } else e) } }

/-- The initial alignment, at the boundary after the first phase source qualified, to that source (R50). Where the module has entered
service by then, the source is judged as one that qualifies in service (R52). One that is lost before the boundary aligns nothing: the
grid aligns to another that has qualified, or to the next that does (log entry 86). -/
def initialAlign (s : State) : State :=
  match s.tim.alignDue with
  | none => s
  | some i =>
    let s := { s with tim := { s.tim with alignDue := none } }
    let held (i : Nat) : Bool := srcEnabled s i && (srcOf s i).qualified && (srcType s i == 1 || srcType s i == 2)
    match if held i then some i else bestPhase s with
    | some i =>
      if mayAlign s then alignGrid i s
      else if inService s && decide (2000000 < (srcOf s i).offset.natAbs) then timeFarAt i s
      else s
    | none => { s with tim := { s.tim with aligned := false } }

/-- Qualified phase sources, those too far among them. -/
def anyPhase (s : State) : Option Nat :=
  let c := (List.range 8).filter (fun i => srcEnabled s i && (srcType s i == 1 || srcType s i == 2) && (srcOf s i).qualified)
  (sortBy (fun x y => decide (srcPriority s x < srcPriority s y)) c).head?

/-- The conditions of a realignment (R50). -/
def realignOk (s : State) : Status :=
  firstBad [
    (s.md.mode == .staged && s.cut.cuts.all (fun x => x.state != 0 || x.discarded) && quiet s, .busy),
    ((anyPhase s).isSome, .range)]

/-- TIM_REALIGN. -/
def opTimRealign : LOp := { op := .timRealign, pre := fun s _ => realignOk s }

/-- A realignment lands (R50, R52). -/
def landRealign (_ : Item) (s : State) : Ans :=
  match realignOk s, anyPhase s with
  | .ok, some i =>
    let s := alignGrid i s
    let l := (s.tim.srcs.map (fun e => (e.1, { e.2 with far := false }))).filter (fun e => e.2 ≠ {})
    let s := { s with tim := { s.tim with timeFar := false, srcs := l } }
    { st := s, ring := s.ring }
  | .ok, none => refuse .range s
  | st, _ => refuse st s

/-! ## Timing states (R59 to R61, R66) -/

/-- The timing state changes at the present boundary; TIMING_STATE is posted (R61). -/
def setTim (t : TimState) (s : State) : State :=
  let old := s.tim.state
  let off := s.tim.phaseOffset
  let toHold := t == .holdoverCart || t == .holdoverTcxo
  let fromHold := old == .holdoverCart || old == .holdoverTcxo
  let lim := if t == .holdoverTcxo then 1200 else if 28800 ≤ s.tim.cart.learn then 43200 else 14400
  let tim : TimSt := { s.tim with state := t, stateSince := s.ring, stateRan := s.ran, okSince := none, holdExpired := false, slewEnd := 0 }
  let tim : TimSt := if t == .locked || t == .acquiring then
      { tim with slewStart := s.ring, slewRan := s.ran, slewEnd := s.ran + 50 * off.natAbs, detExcl := true } else tim
  let tim : TimSt := if toHold && !fromHold then { tim with holdStart := s.ran, holdLimit := lim } else tim
  let tim : TimSt := if old == .holdoverCart && decide (61320 ≤ tim.cart.hours) then
      { tim with cart := { tim.cart with inUse := false, lifeEnd := true } } else tim
  let s := { s with tim := tim, pwr := if t == .locked then { s.pwr with lockedOnce := true } else s.pwr }
  postTo (0 :: (allCids.drop 1).filter (fun c => !(cmpOf s c).frozen)) 0x0301
    (packLE [(8, s.ring), (1, old.code), (1, t.code)]) s

/-- The seconds of the holdover limit (R66, R72). -/
def holdSeconds (s : State) : Nat := if fld s.tim.ctl 63 32 = 0 then s.tim.holdLimit else fld s.tim.ctl 63 32

/-- What holdover follows a LOCKED module that has lost its phase sources (R59). -/
def lossState (s : State) : TimState :=
  if s.ran < s.tim.stateRan + 600000000 then .free else if s.tim.cart.inUse then .holdoverCart else .holdoverTcxo

/-- The state that the table of R59 gives; `old` is the phase source selected before. -/
def timNext (old : Option Nat) (s : State) : TimState :=
  let p := bestPhase s
  let near (b : Nat) : Bool := p.any (fun i => decide ((srcOf s i).offset.natAbs ≤ b))
  let hold (stay : TimState) : TimState :=
    if near 3000 then .locked else if near 2000000 then .acquiring else if s.tim.holdExpired then .free else stay
  match s.tim.state with
  | .free => if p.isSome then .acquiring else .free
  | .acquiring =>
    if old.any (fun i => !((srcType s i == 1 || srcType s i == 2) && (srcOf s i).qualified && srcEnabled s i)) then .free
    else if s.tim.okSince.any (fun r => decide (r + 16000000 ≤ s.ran)) then .locked else .acquiring
  | .locked => if p.isNone then lossState s else if 3000 < s.tim.phaseOffset.natAbs then .acquiring else .locked
  | .holdoverCart => hold (if s.tim.cart.inUse then .holdoverCart else .holdoverTcxo)
  | .holdoverTcxo => hold .holdoverTcxo

/-- The conditions of use of a cartridge (R62, R72). -/
def mayUse (s : State) : Bool :=
  let c := s.tim.cart
  bit s.tim.ctl 1 && c.present && c.idValid && c.lifeValid && c.warm && !c.rejected && decide (c.hours < 61320) &&
    decide (7200000000 ≤ c.lockedRings)

/-- At a boundary the cartridge enters use where it has been found to meet R62, and leaves use where R62, R64 or R67 takes it
out. -/
def cartLeaves (s : State) : State :=
  let c := s.tim.cart
  let out := !c.present || c.rejected || c.lifeEnd || !c.warm || decide (c.lockedRings < 7200000000)
  { s with tim := { s.tim with cart := { c with inUse := (c.inUse && !out) || (c.useDue && mayUse s), useDue := false } } }

/-- The selected source and the filtered phase offset follow the qualified sources (R58). -/
def selectSrc (s : State) : State :=
  let sel := (bestPhase s).orElse (fun _ => bestFreq s)
  let off : Int := match bestPhase s with | some i => (srcOf s i).offset | none => 0
  let tim : TimSt := { s.tim with source := sel, phaseSel := (bestPhase s).isSome, phaseOffset := off }
  let ok := if tim.state = .acquiring ∧ (bestPhase s).isSome ∧ off.natAbs ≤ 100 then some (tim.okSince.getD s.ran) else none
  { s with tim := { tim with okSince := ok } }

/-- The DPLL has turned from `old` to another phase source, whose offset is slewed away (R49, R58). -/
def turnSlew (old : Option Nat) (s : State) : State :=
  if (s.tim.state == .locked || s.tim.state == .acquiring) && s.tim.phaseSel && s.tim.source != old then
    { s with tim := { s.tim with slewEnd := s.ran + 50 * s.tim.phaseOffset.natAbs } }
  else s

/-- The timing state at a boundary (R59). -/
def timEval (s : State) : State :=
  let old := if s.tim.phaseSel then s.tim.source else none
  let s := initialAlign s
  let s := selectSrc (cartLeaves { s with tim := { s.tim with evalRing := s.ring } })
  let t := timNext old s
  if t = s.tim.state then turnSlew old s else setTim t s

/-- TIMING_STATE_CHANGE: the evaluation of a boundary, where it has not been made yet (R59, R581). -/
def timingChange (s : State) : State := if s.tim.evalRing = s.ring then s else onBoundary timEval s

/-- The cartridge learns, and runs towards use, while it is warm and the module LOCKED (R62, R65): one ring. -/
def cartRing (s : State) : State :=
  let c := s.tim.cart
  if c.present && c.warm && !c.rejected && s.tim.state == .locked then
    let n := c.lockedRings + 1
    { s with tim := { s.tim with cart := { c with lockedRings := n, learn := if n % 1000000 = 0 then c.learn + 1 else c.learn } } }
  else s

/-- HOLDOVER_LIMIT_EXPIRE (R66). -/
def holdExpire (s : State) : State :=
  if (s.tim.state == .holdoverCart || s.tim.state == .holdoverTcxo) && decide (s.tim.holdStart + holdSeconds s * 1000000 ≤ s.ran) then
    { s with tim := { s.tim with holdExpired := true } }
  else s

/-- DET_EXCLUDED_CLEAR (R60). -/
def detClear (s : State) : State :=
  if s.tim.slewRan + 1000000 ≤ s.ran then { s with tim := { s.tim with detExcl := false } } else s

/-- TIME_HINT_WRITE (R51): once every 1,000,000 rings. R51 does not say when the hint is written next after the grid has
stepped backward; the model writes it at once, where the ring lies below the hint (DESIGN CHOICE, log entry 87). -/
def timeHint (s : State) : State :=
  if s.tim.hint + 1000000 ≤ s.ring ∨ s.ring < s.tim.hint then { s with tim := { s.tim with hint := s.ring } } else s

/-- The 1PPS and 10 MHz outputs are driven (R70, R497). -/
def outDriven (s : State) : Bool :=
  !s.link.squelched && ((s.tim.state != .free && s.tim.state != .acquiring) || bit s.tim.ctl 0)

/-- The quality level of the selected source (R54, R70): that of a SyncE source is the one its ESMC carries; the manual
gives none to another source, so it is a free value of the source's type and clockClass. -/
def sourceQl (s : State) : BitVec 8 :=
  match s.tim.source with
  | some i =>
    if srcType s i = 3 then BitVec.ofNat 8 (srcOf s i).ql else Config.sourceQl (srcType s i) (srcOf s i).clockClass
  | none => 0x0F#8

/-- The quality level in the ESMC that every SyncE output port sends (R70): that of the selected source in LOCKED, QL-SEC
(0xB) in holdover, QL-DNU (0xF) in FREE and ACQUIRING (the option 1 codes of G.8264, log entry 88). -/
def esmcQl (s : State) : BitVec 8 :=
  match s.tim.state with
  | .locked => sourceQl s
  | .holdoverCart | .holdoverTcxo => 0x0B#8
  | .free | .acquiring => 0x0F#8

/-- The ESMC that port `p` sends: the level, on a port that is up at 10 GbE or faster (R54, R70); a port of the selected
source's own carries it like every other. -/
def esmcOut (s : State) (p : Nat) : Option (BitVec 8) :=
  if (port s p).up && portSpeed s p != 0 && !s.link.squelched && s.pwr.fallAt.isNone then some (esmcQl s) else none

/-- Port `p` is the time receiver of the boundary clock: the port of the PTP source that is followed. Every other port that is
up is a time transmitter (R54, log entry 89). -/
def ptpReceiver (s : State) (p : Nat) : Bool := s.tim.source.any (fun i => srcType s i == 1 && srcPort s i == p)
def ptpTransmitter (s : State) (p : Nat) : Bool := (port s p).up && !ptpReceiver s p

/-- PPS_OUT (R69): a rising edge, ahead of the ring's boundary by the stored delay of the output's cable. -/
def ppsOutput (s : State) : State :=
  if s.ring % 1000000 = 0 ∧ outDriven s then
    { s with tim := { s.tim with ppsOut := s.tim.ppsOut + 1, ppsEdge := 64000 * (s.ring : Int) - calPpsOut s } }
  else s

/-! ## The cartridge (R62 to R68) -/

/-- Change the cartridge record. -/
def modCart (f : CartSt → CartSt) (s : State) : State := { s with tim := { s.tim with cart := f s.tim.cart } }

/-- The cartridge is rejected. -/
def cartReject (reason : Nat) (s : State) : State := modCart (fun c => { c with rejected := true, reason := reason }) s

/-- The last life counter seen for a serial number. -/
def seenLife (serial hours : Nat) (s : State) : State :=
  { s with tim := { s.tim with lastLife := tput 0 s.tim.lastLife (k1 serial) hours } }

/-- CART_INSERT (R63, R67): the checks, and the warm-up. -/
def cartInsert (serial : Nat) (idOk lifeOk : Bool) (hours learn : Nat) (s : State) : State :=
  if s.tim.cart.present then s
  else
    let c : CartSt := { present := true, idValid := idOk, lifeValid := idOk && lifeOk, serial := if idOk then serial else 0,
                        hours := if idOk && lifeOk then hours else 0, learn := learn, warmStart := s.ran, inUse := s.tim.cart.inUse }
    let last := tget 0 s.tim.lastLife (k1 serial)
    let s := modCart (fun _ => c) s
    if !idOk then timReject rejCart (cartReject 1 s)
    else if !lifeOk then timReject rejCart (cartReject 2 s)
    else if hours < last then timReject rejCart (cartReject 3 s)
    else if 61320 ≤ hours then
      seenLife serial hours (modCart (fun c => { c with lifeEnd := true }) (timReject rejCart (cartReject 4 s)))
    else seenLife serial hours s

/-- CART_WARM_DONE (R63). -/
def cartWarm (s : State) : State :=
  let c := s.tim.cart
  if c.present && c.idValid && !c.rejected && !c.warm then modCart (fun c => { c with warm := true, lockedRings := 0 }) s else s

/-- WARM_FAIL (R63): 120 min without the end of the warm-up. -/
def warmFail (s : State) : State :=
  let c := s.tim.cart
  if c.present && !c.rejected && !c.warm && decide (c.warmStart + 7200000000 ≤ s.ran) then cartReject 5 s else s

/-- CART_IN_USE (R62): the conditions are found to hold, and the cartridge enters use at the next boundary. -/
def cartInUse (s : State) : State := if mayUse s then modCart (fun c => { c with useDue := true }) s else s

/-- CART_LIFE_TICK (R64). -/
def cartLife (sigOk : Bool) (count : Nat) (s : State) : State :=
  let c := s.tim.cart
  if !c.present || c.rejected then s
  else if !sigOk then timReject rejCart (cartReject 2 s)
  else if count ≠ c.hours + 1 then timReject rejCart (cartReject 3 s)
  else
    let carrying := s.tim.state == .holdoverCart && c.inUse
    seenLife c.serial count (modCart (fun c => { c with hours := count, lifeEnd := decide (61320 ≤ count) && !carrying }) s)

/-- CART_REMOVE (R67). -/
def cartRemove (noResponse : Bool) (s : State) : State :=
  if !s.tim.cart.present then s
  else if noResponse then cartReject 6 s
  else modCart (fun c => { inUse := c.inUse }) s

/-- CART_TEMP_READ (R68), in 1/16 °C. After a discarded reading the previous one is the last that was accepted (DESIGN CHOICE, log
entry 95). -/
def cartTemp (t : Int) (s : State) : State :=
  let c := s.tim.cart
  if !c.present then s
  else if t < -720 ∨ 1520 < t ∨ (c.tempSeen ∧ 32 < (t - c.temp).natAbs) then timReject rejTemp s
  else modCart (fun c => { c with temp := t, tempSeen := true }) s

/-! ## Commands (R425, R58, R72) -/

/-- The checks of a source record (R58): those of one field in the order of their bits, then the profile's range of domains (R417); a
limit of zero is refused (R418). -/
def timSrcCheck (x : BitVec 64) : Status :=
  let domLo := if bit x 24 then 44 else 24
  let domHi := if bit x 24 then 63 else 43
  firstBad [
    (decide (fld x 3 0 ≤ 4), .range), (decide (1 ≤ fld x 13 10) && decide (fld x 13 10 ≤ 8), .range),
    (fld x 47 32 != 0, .zeroLen), (decide (100 ≤ fld x 47 32), .range), (fld x 55 48 != 0, .zeroLen),
    (fld x 3 0 != 1 || (decide (domLo ≤ fld x 23 16) && decide (fld x 23 16 ≤ domHi)), .range)]

/-- TIM_SRC_WRITE. -/
def opTimSrcWrite : LOp :=
  { op := .timSrcWrite,
    args := fun _ q => if 8 ≤ q.arg1.toNat then .range else timSrcCheck (rec64 q.payload) }

/-- A source record with its reserved bits at zero. -/
def srcMask (x : BitVec 64) : BitVec 64 := setFld (setFld (setFld x 15 15 0) 31 25 0) 63 56 0

/-- A source entry takes effect: one that is disabled, or names another source, qualifies afresh. -/
def landTimSrc (i : Item) (s : State) : Ans :=
  let n := i.req.arg1.toNat
  let x := srcMask (rec64 i.req.payload)
  let old := srcRec s n
  let same := bit x 14 && fld x 9 0 == fld old 9 0 && fld x 24 16 == fld old 24 16 && bit old 14
  let s := if same then s else modSrc n (fun _ => newSrc (fld x 3 0) s) s
  { st := { s with tim := { s.tim with src := tput 0x703e800000000#64 s.tim.src (k1 n) x } }, ring := s.ring }

/-- TIM_CTL_WRITE. -/
def opTimCtlWrite : LOp :=
  { op := .timCtlWrite,
    args := fun _ q =>
      let x := rec128 q.payload
      -- BANDWIDTH 0: R72 and R425 name ZERO_LEN for HOLD_LIMIT alone; the model answers it here too (log entry 90).
      firstBad [(fld x 31 16 != 0, .zeroLen), (decide (10 ≤ fld x 31 16) && decide (fld x 31 16 ≤ 1000), .range),
        (fld x 63 32 != 0, .zeroLen), (decide (fld x 63 32 ≤ 86400), .range)] }

/-- The control record takes effect. -/
def landTimCtl (i : Item) (s : State) : Ans :=
  { st := { s with tim := { s.tim with ctl := setFld (setFld (rec128 i.req.payload) 15 2 0) 127 72 0 } }, ring := s.ring }

/-- TIM_SRC_READ. -/
def opTimSrcRead : LOp :=
  { op := .timSrcRead, snap := true,
    now := fun s _ => { st := s, ring := s.ring, count := 8, data := (List.range 8).flatMap (fun i => leBytes 8 (srcRec s i).toNat) } }

/-! ## Meanings -/

/-- PPS_PULSE (R55). -/
def execPpsPulse (src : Fin 8) (offset filtered freq : Int) (s : State) : Out :=
  .next (unlessHalted s (ppsPulse src.val offset filtered freq s))
/-- PPS_MISSING (R55). -/
def execPpsMissing (src : Fin 8) (s : State) : Out := .next (unlessHalted s (ppsMissing src.val s))
/-- TOD_SENTENCE (R55). -/
def execTodSentence (src : Fin 8) (utc : Nat) (s : State) : Out := .next (unlessHalted s (todSentence src.val utc s))
/-- PTP_MESSAGE (R56). -/
def execPtpMessage (src : Fin 8) (announce : Bool) (domain clockClass : BitVec 8) (steps : BitVec 16) (utc : Nat)
    (rateOk : Bool) (offset filtered freq : Int) (s : State) : Out :=
  .next (unlessHalted s (ptpMessage src.val
    { announce := announce, domain := domain.toNat, clockClass := clockClass.toNat, steps := steps.toNat, utc := utc,
      rateOk := rateOk, offset := offset } filtered freq s))
/-- PTP_SYNC_TIMEOUT (R56). -/
def execPtpSyncTimeout (src : Fin 8) (s : State) : Out := .next (unlessHalted s (ptpSyncTimeout src.val s))
/-- PTP_ANNOUNCE_TIMEOUT (R56). -/
def execPtpAnnounceTimeout (src : Fin 8) (s : State) : Out := .next (unlessHalted s (ptpAnnounceTimeout src.val s))
/-- ESMC_MESSAGE (R54). -/
def execEsmcMessage (src : Fin 8) (ql : BitVec 8) (s : State) : Out := .next (unlessHalted s (esmcMessage src.val ql.toNat s))
/-- ESMC_TIMEOUT (R57). -/
def execEsmcTimeout (src : Fin 8) (s : State) : Out := .next (unlessHalted s (esmcTimeout src.val s))
/-- FREQ_RANGE (R57). -/
def execFreqRange (src : Fin 8) (s : State) : Out := .next (unlessHalted s (freqRange src.val s))
/-- SOURCE_QUALIFY (R54). -/
def execSourceQualify (src : Fin 8) (offset : Int) (s : State) : Out := .next (unlessHalted s (sourceQualify src.val offset s))
/-- TIMING_STATE_CHANGE (R59). -/
def execTimingStateChange (s : State) : Out := .next (unlessHalted s (timingChange s))
/-- HOLDOVER_LIMIT_EXPIRE (R66). -/
def execHoldoverLimitExpire (s : State) : Out := .next (unlessHalted s (holdExpire s))
/-- DET_EXCLUDED_CLEAR (R60). -/
def execDetExcludedClear (s : State) : Out := .next (unlessHalted s (detClear s))
/-- TIME_HINT_WRITE (R51). -/
def execTimeHintWrite (s : State) : Out := .next (unlessHalted s (timeHint s))
/-- PPS_OUT (R69). -/
def execPpsOut (s : State) : Out := .next (unlessHalted s (ppsOutput s))
/-- CART_INSERT (R63). -/
def execCartInsert (serial : BitVec 32) (idOk lifeOk : Bool) (hours learn : BitVec 32) (s : State) : Out :=
  .next (unlessHalted s (cartInsert serial.toNat idOk lifeOk hours.toNat learn.toNat s))
/-- CART_WARM_DONE (R63). -/
def execCartWarmDone (s : State) : Out := .next (unlessHalted s (cartWarm s))
/-- WARM_FAIL (R63). -/
def execWarmFail (s : State) : Out := .next (unlessHalted s (warmFail s))
/-- CART_IN_USE (R62). -/
def execCartInUse (s : State) : Out := .next (unlessHalted s (cartInUse s))
/-- CART_LIFE_TICK (R64). -/
def execCartLifeTick (sigOk : Bool) (count : BitVec 32) (s : State) : Out := .next (unlessHalted s (cartLife sigOk count.toNat s))
/-- CART_REMOVE (R67). -/
def execCartRemove (noResponse : Bool) (s : State) : Out := .next (unlessHalted s (cartRemove noResponse s))
/-- CART_TEMP_READ (R68). -/
def execCartTempRead (temp : Int) (s : State) : Out := .next (unlessHalted s (cartTemp temp s))
/-- TIM_SRC_WRITE (R58). -/
def execTimSrcWrite (q : Req) (s : State) : Out := .next (runOp opTimSrcWrite q s)
/-- TIM_CTL_WRITE (R72). -/
def execTimCtlWrite (q : Req) (s : State) : Out := .next (runOp opTimCtlWrite q s)
/-- TIM_REALIGN (R50). -/
def execTimRealign (q : Req) (s : State) : Out := .next (runOp opTimRealign q s)
/-- TIM_SRC_READ (R425). -/
def execTimSrcRead (q : Req) (s : State) : Out := .next (runOp opTimSrcRead q s)

end Sys2Proof.Machine
end

