-- ==== Sys2Proof/Machine/Modes.lean ====
section
/-!
DEFINITION. Modes, resets and bring-up (R503 to R514), the saved configuration (R512), and the low-power measures (R515 to
R519).
-/
namespace Sys2Proof.Machine

/-! ## What a reset loses (R511, R513) -/

/-- The boot ROM's choice of a firmware slot (R459, R460). -/
def bootSlot (s : State) : State :=
  let ok (x : FwSlot) : Bool := x.valid && decide (s.trust.rollback ≤ x.secVersion)
  { s with trust := { s.trust with runB := !ok s.trust.fwA && ok s.trust.fwB, recovery := !ok s.trust.fwA && !ok s.trust.fwB,
                                   pasidNext := none } }

/-- Frames, cuts, tables, DRAM contents and every queue are lost; configuration records stay (R127, R154, R178, R216, R248,
R272, R296, R319, R340, R363, R384, R538). -/
def losePath (s : State) : State :=
  { s with
    par := { base := s.par.base, imgs := s.par.imgs },
    cut := { uid := s.cut.uid },
    em := {},
    grv := { pair := s.grv.pair },
    lnd := { cfg := s.lnd.cfg },
    buf := { pool := tkeep {} (fun p => { cfg := p.cfg }) s.buf.pool, spill := s.buf.spill },
    krf := {},
    sch := { bank := s.sch.bank, active := s.sch.active, shape := s.sch.shape, share := s.sch.share },
    dram := { cfg := s.dram.cfg, since := s.ran },
    cap := { tly := tkeep {} (fun t => { cfg := setFld t.cfg 4 0 0, base := t.base }) s.cap.tly,
             cv := tkeep {} (fun c => { owner := c.owner }) s.cap.cv } }

/-- Ports go down, and the owners' link security is lost (R104). -/
def loseLink (s : State) : State :=
  let ports := tkeep {} (fun p : Port =>
    { cfg := p.cfg, win := p.win, changed := if p.up then s.ring else p.changed, trainFrom := s.ran }) s.link.port
  { s with link := { port := ports, secy := tkeep {} loseSecy s.link.secy } }

/-- The Lookout after a restart (R502). -/
def loseLko (s : State) : State :=
  { s with lko := { recs := s.lko.log, log := s.lko.log, seq := s.lko.seq, factory := s.lko.factory,
                    factoryCount := s.lko.factoryCount, inject := s.lko.inject, restartHold := s.lko.restartHold } }

/-- Mailboxes return to their reset values and every vector is armed (R412). -/
def loseHost (s : State) : State :=
  { s with host := { vec := tkeep {} (fun v => { v with armed := true, holdUntil := 0 }) s.host.vec, rspSlots := s.host.rspSlots,
                     evtSlots := s.host.evtSlots, pcieRate := s.host.pcieRate, pcieWidth := s.host.pcieWidth,
                     devCtl := s.host.devCtl, aer := s.host.aer } }

/-- What every device restart and power cycle loses: the mode is SEALED (R511, R514). -/
def lose (s : State) : State :=
  let s := loseHost (loseLko (loseLink (losePath (clearAllCtrs (zeroiseKeys s)))))
  bootSlot { s with
    items := [],
    md := { since := s.ring, ntrim := s.md.ntrim, trimDone := s.ring },
    cmp := { s.cmp with cmp := tkeep {} (fun c => { c with frozen := false, emptyPosted := false }) s.cmp.cmp },
    pwr := { s.pwr with reading := [], bulkHigh := none, pin := 0 } }

/-- The pair after a device restart (R541, R547, R556): STANDBY while a pair record is in force. -/
def losePair (s : State) : State :=
  { s with pair := { cfg := s.pair.cfg, cert := s.pair.cert, peerId := s.pair.peerId, role := !bit s.pair.cfg 0, roleRing := s.ring } }

/-- A device restart leaves LOCKED for what the loss of its sources gives, and keeps every other state (R73). -/
def loseSources (s : State) : State :=
  let s := freshSrcs s
  if s.tim.state = .locked then setTim (lossState s) s else s

/-- The device restart (R511). -/
def deviceRestart (s : State) : State := loseSources (losePair (lose s))

/-- A restart is due at the present boundary (R496, R511). -/
def restartNow (s : State) : Bool := s.lko.restartAt.any (fun r => decide (r ≤ s.ran))

/-- A restart that is due at the present boundary. -/
def restartDue (s : State) : State := if restartNow s then takeSnap (deviceRestart s) else s

/-! ## Saved configuration (R512) -/

/-- The records that CONFIG_SAVE copies. -/
def savedOf (s : State) : SavedCfg :=
  { src := s.tim.src, ctl := s.tim.ctl,
    port := tkeep (({} : Port).cfg) (fun x => x) (s.link.port.map (fun e => (e.1, e.2.cfg))),
    win := tkeep 0 (fun x => x) (s.link.port.map (fun e => (e.1, e.2.win))),
    secy := tkeep 0 (fun x => x) (s.link.secy.map (fun e => (e.1, (loseSecy e.2).rec_))), grvPair := s.grv.pair,
    pool := tkeep (({} : Pool).cfg) (fun x => x) (s.buf.pool.map (fun e => (e.1, e.2.cfg))), spill := s.buf.spill,
    lnd := s.lnd.cfg, dram := s.dram.cfg, bank := s.sch.bank, active := s.sch.active, shape := s.sch.shape, share := s.sch.share,
    att := s.cmp.att, cvOwner := tkeep 0 (fun x => x) (s.cap.cv.map (fun e => (e.1, e.2.owner))), ntrim := s.md.ntrim }

/-- The saved records return (R512). -/
def restoreSaved (s : State) : State :=
  let v := s.saved
  let pools := v.pool.map (fun e => (e.1, ({ cfg := e.2 } : Pool)))
  let secys := v.secy.map (fun e => (e.1, ({ rec_ := e.2 } : SecY)))
  let cvs := v.cvOwner.map (fun e => (e.1, ({ owner := e.2 } : Cv)))
  let ports := allPorts.foldl (fun t p => tmod {} t (k1 p) (fun q : Port =>
    { q with cfg := tget (({} : Port).cfg) v.port (k1 p), win := tget 0 v.win (k1 p) })) s.link.port
  { s with
    tim := { s.tim with src := v.src, ctl := v.ctl },
    link := { s.link with port := ports, secy := secys },
    grv := { s.grv with pair := v.grvPair },
    buf := { s.buf with pool := pools, spill := v.spill },
    lnd := { s.lnd with cfg := v.lnd },
    dram := { s.dram with cfg := v.dram },
    sch := { s.sch with bank := v.bank, active := v.active, shape := v.shape, share := v.share },
    cmp := { s.cmp with att := v.att },
    cap := { s.cap with cv := cvs },
    md := { s.md with ntrim := v.ntrim } }

/-- The bytes that a saved set takes in MRAM: those of its records (R512; log entry 130). -/
def savedLen (v : SavedCfg) : Nat :=
  144 + 16 * (v.port.length + v.secy.length + v.pool.length) + 8 * v.shape.length + 4 * (v.win.length + v.share.length) +
    ((v.bank.map (fun e => 8 + 4 * e.2.ents.length)).foldl (· + ·) 0) + 8 * v.att.length + v.cvOwner.length + v.active.length +
    v.ntrim.length

/-- CONFIG_SAVE (R512): the new set stands beside the old one until it is complete, and both beside the bundles. -/
def opConfigSave : LOp :=
  { op := .configSave,
    pre := fun s _ => if mramBundles s 1 32 + savedLen s.saved + savedLen (savedOf s) ≤ 64000000 then .ok else .noSpace,
    now := fun s _ => { st := { s with saved := savedOf s }, ring := s.ring } }

/-! ## Night trim (R517, R518) -/

/-- The fields of a schedule. -/
def ntEnabled (l : List Byte) : Bool := leAt l 0 1 % 2 == 1
def ntCount (l : List Byte) : Nat := leAt l 1 1
def ntCycle (l : List Byte) : Nat := leAt l 8 8
def ntPhase (l : List Byte) : Nat := leAt l 16 8
/-- The entries of a schedule. -/
def ntEntries (l : List Byte) : List (List Byte) := recordsOf 16 (l.drop 24)

/-- The checks of a schedule (R517). -/
def ntCheck (l : List Byte) : Status :=
  let c := ntCycle l
  let entry (e : List Byte) : List (Bool × Status) :=
    [(decide (leAt e 10 1 < 2) && leAt e 11 1 == 0, .range), (leAt e 10 1 == 0 || leAt e 12 4 != 0, .zeroLen),
     (leAt e 10 1 == 0 || decide (leAt e 12 4 ≤ 1000000), .range)]
  let offs := (ntEntries l).map (fun e => leAt e 0 8)
  firstBad ([(decide (24 ≤ l.length) && l.length == 24 + 16 * ntCount l, .range), (decide (leAt l 0 1 < 2), .range),
      (ntCount l != 0, .zeroLen), (decide (ntCount l ≤ 16), .range), (allZero (slice l 2 6), .range), (c != 0, .zeroLen),
      (decide (1000000 ≤ c) && decide (c ≤ 604800000000), .range)] ++ (ntEntries l).flatMap entry ++
    [(rising offs, .range), (offs.all (fun o => decide (o < c)) && decide (ntPhase l < c), .range)])

/-- The step in force at the present ring: the latest at or before the position in the cycle, else the last. -/
def ntInForce (l : List Byte) (ring : Nat) : Option (List Byte) :=
  let c := ntCycle l
  let pos := (ring + c - ntPhase l % c) % c
  let past := (ntEntries l).filter (fun e => decide (leAt e 0 8 ≤ pos))
  if past.isEmpty then (ntEntries l).getLast? else past.getLast?

/-- Some step's ring lies after ring `a` and not after ring `b`. -/
def ntPassed (l : List Byte) (a b : Nat) : Bool :=
  let c : Int := ntCycle l
  (ntEntries l).any (fun e =>
    let x : Int := (ntPhase l : Int) + leAt e 0 8
    decide (((a : Int) - x) / c < ((b : Int) - x) / c))

/-- A step sets every group, at step 8 of the boundary (R581), and `DRAM.CFG.IDLE_RINGS` or its restoration (R518). -/
def ntApply (e : List Byte) (s : State) : State :=
  { s with md := { s.md with sleepDue := s.md.sleepDue ++ (List.range 16).map (fun g => (g, (leAt e 8 2).testBit g, 1)),
                             idleOverride := if leAt e 10 1 = 1 then some (leAt e 12 4) else none } }

/-- The step in force at ring `n` applies. -/
def ntAt (n : Nat) (s : State) : State :=
  match ntInForce s.md.ntrim n with
  | some e => ntApply e s
  | none => s

/-- The step in force applies, and later ones are due in their turn. -/
def ntNow (s : State) : State :=
  let s := { s with md := { s.md with trimDone := s.ring } }
  if ntEnabled s.md.ntrim then ntAt s.ring s else s

/-- The night-trim step of the boundary of ring `n`: one whose ring has come since the last, those that the grid stepped over
among them, applies; what a backward step leaves ahead waits for its ring (R53, R518). -/
def nightStep (n : Nat) (s : State) : State :=
  let due := ntEnabled s.md.ntrim && ntPassed s.md.ntrim s.md.trimDone n
  let s := { s with md := { s.md with trimDone := if s.ring < n then s.ring - 1 else n } }
  if due then ntAt n s else s

/-- NIGHT_TRIM_WRITE. -/
def opNightTrim : LOp := { op := .nightTrimWrite, args := fun _ q => ntCheck q.payload }

/-- A schedule takes effect. -/
def landNightTrim (i : Item) (s : State) : Ans :=
  { st := ntNow { s with md := { s.md with ntrim := i.req.payload } }, ring := s.ring }

/-- GROUP_SLEEP. -/
def opGroupSleep : LOp := { op := .groupSleep }

/-- A GROUP_SLEEP lands. -/
def landGroupSleep (i : Item) (s : State) : Ans :=
  { st := groupSleepCmd (i.req.a1 3 0) (i.req.arg1.getLsbD 8) 0 s, ring := s.ring }

/-! ## Pipeline gating (R516) -/

/-- The engines of pipeline `p` are idle, and it holds no frame or copy. -/
def pipeEmpty (s : State) (p : Nat) : Bool :=
  (tget [] s.krf.queue (k1 p)).isEmpty && (tget [] s.krf.ready (k1 p)).isEmpty && (tget [] s.krf.order (k1 p)).isEmpty &&
    (List.range 32).all (fun e => !engBusy s p e) &&
    s.lnd.pipe.all (fun x => x.copies.all (fun c => stPipe c.fi.stamp != p))

/-- PIPELINE_GATE. -/
def pipelineGate (p : Nat) (s : State) : State :=
  if asleep s (2 * p) && asleep s (2 * p + 1) && pipeEmpty s p && !tget false s.md.gated (k1 p) then
    cycleStop (uIngress p) (cycleStop (uEgress p) { s with md := { s.md with
      gated := tput false s.md.gated (k1 p) true, waking := tput false s.md.waking (k1 p) false } })
  else s

/-- PIPELINE_READY. -/
def pipelineReady (p : Nat) (s : State) : State := { s with md := { s.md with waking := tput false s.md.waking (k1 p) false } }

/-! ## Bring-up (R508, R509) -/

/-- Four or more RESTART records lie within the last 3,600,000,000 rings (R496). -/
def restartsMany (s : State) : Bool :=
  decide (4 ≤ (s.lko.log.filter (fun r => r.cls == 2 && decide (s.ring ≤ r.ring + 3600000000))).length)

/-- A unit that fails its self-test (R508): one that can be fenced is fenced and retried; another, and the second plane (R483), stops
bring-up with a record of the code that could not be contained (log entry 124). -/
def selfTestFail (u : Nat) (s : State) : State :=
  if !unitPresent s.variant u then s
  else if fenceable u && !bothPlanes s u then
    let s := fenceUnit u s
    cnt .lkoResetFail u 0 1 (note u 0x0F02 255 [1] (modUnit u (fun x => { x with attempts := 1, resetting := true }) s))
  else { newRec 2 u 0x0F04 255 (unitSt s u).epoch [0x0F02] s with md := { s.md with upStop := true } }

/-- Step 6: the module enters STAGED from SEALED (R443, R459, R508). -/
def enterStaged (cause : Nat) (s : State) : State :=
  let s := foldS (allCids.filter (cmpDefined s)) (fun c => cmpRotate c none) s
  let s := setMode .staged cause s
  let s := foldS allPorts (fun p s => if portSpeed s p = 0 then s else modPort p (fun q => { q with trainFrom := s.ran }) s) s
  { s with trust := { s.trust with rollback := max s.trust.rollback (fwRunning s).secVersion } }

/-- Bring-up completes: the stores are loaded, night trim applies, and a claimed module enters STAGED. -/
def bringUp (failed : List Nat) (s : State) : State :=
  if s.md.mode != .sealed || s.md.upDone || s.md.upStop || s.trust.recovery || s.lko.restartAt.isSome then s
  else
    let s := foldS failed selfTestFail s
    if s.md.upStop then s
    else
      let s := sleepStep (ntNow (loadStores s))
      let s := { s with md := { s.md with upDone := true } }
      if s.trust.claimed then
        let hold := s.lko.restartHold || restartsMany s
        let s := { s with lko := { s.lko with restartHold := hold } }
        let s := enterStaged (if hold then 4 else 1) s
        { s with md := { s.md with upStaged := if s.par.base.isSome then some s.ran else none } }
      else s

/-- A base-bundle load is accepted and not yet applied. -/
def basePending (s : State) : Bool := s.krf.wait.isSome || s.items.any (fun i => i.op == .baseBundleLoad)

/-- A MODE_SET is pending. -/
def modePending (s : State) : Bool := s.items.any (fun i => i.op == .modeSet)

/-- AUTO_FORWARDING: sixteen rings after bring-up entered STAGED with a base bundle loaded, the module enters forwarding if it may
(R503, R509). -/
def autoForwarding (s : State) : State :=
  match s.md.upStaged with
  | some r =>
    if r + 16 ≤ s.ran then
      let s := { s with md := { s.md with upStaged := none } }
      if s.md.mode == .staged && s.par.base.isSome && !basePending s && !s.lko.restartHold && !modePending s then setMode (forwardMode s) 1 s else s
    else s
  | none => s

/-! ## MODE_SET and RESTART (R503, R504, R433) -/

/-- The transition to a target mode is in the table of R503, and its precondition holds. -/
def modeAllowed (s : State) (target : Nat) : Bool :=
  match s.md.mode with
  | .sealed => target == 1 && s.trust.claimed && s.md.upDone
  | .staged => target == 2 && s.par.base.isSome && !basePending s
  | .forwarding => target == 3 || target == 1
  | .degraded => target == 3 || target == 1
  | .frozen => target == 1 || (target == 2 && !basePending s)
  | .halted => false

/-- MODE_SET. -/
def opModeSet : LOp :=
  { op := .modeSet,
    args := fun _ q => if q.arg1.toNat < 6 then .ok else .range,
    pre := fun s q =>
      let t := q.arg1.toNat
      firstBad [
        (!modePending s, .busy), (!(s.md.mode == .frozen && t == 3), .frozen), (s.md.mode.code != t, .busy),
        (modeAllowed s t, .busy)] }

/-- The transition of a MODE_SET still starts from a mode that has it. -/
def modeFrom (m : Mode) (target : Nat) : Bool :=
  match m with
  | .sealed => target == 1
  | .staged => target == 2
  | .forwarding => target == 3 || target == 1
  | .degraded => target == 3 || target == 1
  | .frozen => target == 1 || target == 2
  | .halted => false

/-- A MODE_SET lands (R503, R504). -/
def landModeSet (i : Item) (s : State) : Ans :=
  let t := i.req.arg1.toNat
  if !modeFrom s.md.mode t then { st := s }
  else
    let s := { s with md := { s.md with upStaged := none } }
    { st := if t = 1 then (if s.md.mode = .sealed then enterStaged 0 s else setMode .staged 0 s)
            else if t = 2 then setMode (forwardMode s) 0 s else setMode .frozen 0 s,
      ring := s.ring }

/-- RESTART: commands read from now on receive no response. The device restart is due 16 rings after the response is written; where
none can be written, the rings count from now (R433; log entry 64). -/
def opRestart : LOp :=
  { op := .restart,
    now := fun s q =>
      let s := { s with host := { s.host with closing := true } }
      { st := if rspOpen s q.c then s else restartBy (restartRing s) s, ring := s.ring } }

/-- QUIESCED: posted once after an entry into FROZEN or STAGED (R506). -/
def quiesce (s : State) : State :=
  if !s.md.quiesced && (s.md.mode == .frozen || s.md.mode == .staged) && quiet s then
    modeState s.md.mode.code s.md.mode.code 0 true { s with md := { s.md with quiesced := true } }
  else s

/-- The PCIe link comes up (R385, R410): it trains to one of the rates 1 to 5 and the widths 1, 2, 4 and 8, a free value (log entry 117). -/
def linkTrained (s : State) : State :=
  let (rate, s) := freshFree s
  let (width, s) := freshFree s
  { s with host := { s.host with pcieRate := rate % 5 + 1, pcieWidth := 2 ^ (width % 4) } }

/-- FUNCTION_LEVEL_RESET: a device restart at the next boundary; the MSI-X structures are cleared, and the PCIe link retrains
(R412, R510). -/
def functionReset (s : State) : State :=
  let s := restartBy (s.ran + 1) (linkTrained s)
  { s with host := { s.host with vec := [], stopped := true, devCtl := 0x2810#16, aer := 0 } }

/-! ## Meanings -/

/-- QUIESCED (R506). -/
def execQuiesced (s : State) : Out := .next (unlessHalted s (onBoundary quiesce s))
/-- AUTO_FORWARDING (R509). -/
def execAutoForwarding (s : State) : Out := .next (unlessHalted s (onBoundary autoForwarding s))
/-- NIGHT_TRIM_STEP (R518). -/
def execNightTrimStep (s : State) : Out := .next (unlessHalted s (onBoundary (fun s => sleepStep (nightStep s.ring s)) s))
/-- PIPELINE_GATE (R516). -/
def execPipelineGate (pipe : Fin 8) (s : State) : Out := .next (unlessHalted s (onBoundary (pipelineGate pipe.val) s))
/-- PIPELINE_READY (R516). -/
def execPipelineReady (pipe : Fin 8) (s : State) : Out := .next (unlessHalted s (pipelineReady pipe.val s))
/-- DEVICE_RESTART (R511): a restart whose ring has come. -/
def execDeviceRestart (s : State) : Out := .next (unlessHalted s (onBoundary restartDue s))
/-- FUNCTION_LEVEL_RESET (R510). -/
def execFunctionLevelReset (s : State) : Out := .next (unlessHalted s (functionReset s))
/-- MODE_SET (R503). -/
def execModeSet (q : Req) (s : State) : Out := .next (runOp opModeSet q s)
/-- RESTART (R433). -/
def execRestart (q : Req) (s : State) : Out := .next (runOp opRestart q s)
/-- CONFIG_SAVE (R512). -/
def execConfigSave (q : Req) (s : State) : Out := .next (runOp opConfigSave q s)
/-- GROUP_SLEEP (R515). -/
def execGroupSleep (q : Req) (s : State) : Out := .next (runOp opGroupSleep q s)
/-- NIGHT_TRIM_WRITE (R517). -/
def execNightTrimWrite (q : Req) (s : State) : Out := .next (runOp opNightTrim q s)

end Sys2Proof.Machine
end

