-- ==== Sys2Proof/Machine/Power.lean ====
section
/-!
DEFINITION. Power entry and supervision (R557 to R571) and the calibration page (R574 to R577). Voltages are in mV and
temperatures in 1/16 °C.
-/
namespace Sys2Proof.Machine

/-! ## The power cycle (R510, R559, R561, R567) -/

/-- POWER_ALERT (R566). -/
def powerAlert (kind zone value : Nat) (s : State) : State :=
  post 0 0x1003 (packLE [(8, s.ring), (1, kind), (1, zone), (2, 0), (4, value)]) s

/-- The rails fall: what a power cycle loses is lost, and the saved records return (R510, R512, R513, R514). -/
def railsFall (s : State) : State :=
  let s := lose s
  let s := restoreSaved { s with
    tim := { lastLife := s.tim.lastLife, hint := s.tim.hint },
    host := { rspSlots := s.host.rspSlots, evtSlots := s.host.evtSlots },
    lko := { s.lko with factory := false, inject := [] },
    ctr := { s.ctr with blz := 0x10000000000000000#128 },
    pair := {} }
  { s with pwr := { s.pwr with on := false, rising := false, fallAt := none, dipStart := none, lockedOnce := false, warn := [], din := [], pin := 0 } }

/-- POWER_ON (R559, R565): the rails rise; after a thermal shutdown, not before its zone reads below the restart threshold.
`temp` is that zone's reading. -/
def restartBelow : Nat → Int
  | 0 => 1440 | 1 => 1360 | 2 => 1120 | _ => 1120

/-- POWER_ON. -/
def powerOn (temp : Int) (s : State) : State :=
  if s.pwr.on || s.pwr.offZone.any (fun z => decide (restartBelow z ≤ temp)) then s
  else { s with pwr := { s.pwr with rising := true, offZone := none } }

/-- POWER_GOOD (R51, R508): the grid starts from the time hint, and bring-up begins in SEALED. -/
def powerGood (s : State) : State :=
  if s.pwr.on || !s.pwr.rising then s
  else
    let r := s.tim.hint + 1
    let s := { s with ran := s.ran + 1 }
    takeSnap <| linkTrained <| freshSrcs { s with
      ring := r, clock := 0,
      pwr := { s.pwr with on := true, rising := false, pageUp := s.pwr.page },
      md := { s.md with since := r, trimDone := r },
      tim := { s.tim with stateSince := r, stateRan := s.ran, evalRing := r },
      link := { s.link with port := tkeep {} (fun p => { p with trainFrom := s.ran, changed := 0 }) s.link.port },
      ctr := { s.ctr with cycBase := clkOf s 0 } }

/-- DIP_START (R560). -/
def dipStart (s : State) : State :=
  if s.pwr.dipStart.isSome then s
  else powerAlert 1 255 0 (cnt .pwrDips 0 0 1 { s with pwr := { s.pwr with dipStart := some s.ran } })

/-- DIP_END (R560, R566). -/
def dipEnd (s : State) : State :=
  match s.pwr.dipStart with
  | some r => powerAlert 2 255 (s.ran - r) { s with pwr := { s.pwr with dipStart := none } }
  | none => s

/-- The rails are to fall (R561): they are held for 2 ms, no port begins a frame any more, and every optic goes to low power, as it stands
in HALTED (log entry 133). -/
def powerDown (s : State) : State :=
  let s := { s with pwr := { s.pwr with fallAt := some (s.pwr.fallAt.getD (if s.clock = 0 then s.ran + 2000 else s.ran + 2001)) } }
  if halted s then s else { s with link := { s.link with cage := tkeep {} (fun g => { g with highPower := false }) s.link.cage } }

/-- The rails fall at the present boundary (R561). -/
def railsDue (s : State) : Bool := s.pwr.fallAt.any (fun r => decide (r ≤ s.ran))

/-- POWER_FAIL (R561): the warning is posted, and the rails are to fall. -/
def powerFail (s : State) : State :=
  if s.pwr.on && s.pwr.fallAt.isNone then powerDown (powerAlert 3 255 0 (cnt .pwrFails 0 0 1 s)) else s

/-! ## Readings (R562, R563) -/

/-- The last accepted reading. -/
def readingOf (s : State) (k i : Nat) : Option Int := tget none s.pwr.reading (k2 k i)

/-- A reading is accepted. -/
def keepReading (k i : Nat) (v : Int) (s : State) : State :=
  { s with pwr := { s.pwr with reading := tput none s.pwr.reading (k2 k i) (some v) } }

/-- The reading lies in its range and near the reading before it (R563). -/
def readingOk (s : State) (k i : Nat) (lo hi : Int) (step : Option Nat) (v : Int) : Bool :=
  decide (lo ≤ v) && decide (v ≤ hi) &&
    (match step, readingOf s k i with | some d, some old => decide ((v - old).natAbs ≤ d) | _, _ => true)

/-- A supply reading: what is read. `rail` numbers the DC rails, whose nominal voltage goes with the reading. -/
inductive Supply where
  | input | bulk | rail (n nominal : Nat)
  deriving DecidableEq, Repr

/-- The place of a supply reading: kind and number. -/
def Supply.place : Supply → Nat × Nat
  | .input => (0, 0) | .bulk => (1, 0) | .rail n _ => (2, n)

/-- The check of R563. -/
def supplyOk (s : State) (x : Supply) (v : Int) : Bool :=
  match x with
  | .input => readingOk s 0 0 0 320000 none v
  | .bulk => readingOk s 1 0 0 480000 (some 20000) v
  | .rail n nom => readingOk s 2 n 0 (13 * nom / 10 : Nat) (some (nom / 10)) v

/-- The findings of R562 that readings show: the bulk voltage above 450 V for more than 1 ms, and a rail above 110 %. -/
def overstress (x : Supply) (v : Int) (s : State) : State :=
  match x with
  | .input => s
  | .bulk =>
    if v ≤ 450000 then { s with pwr := { s.pwr with bulkHigh := none } }
    else
      match s.pwr.bulkHigh with
      | none => { s with pwr := { s.pwr with bulkHigh := some s.ran } }
      | some r => if r + 1000 < s.ran then haltFault 0x48 0x0F08 255 [1] s else s
  | .rail _ nom => if (11 * nom : Nat) < 10 * v then haltFault 0x48 0x0F08 255 [4] s else s

/-- A negative number in a detail word. -/
def detailWord (v : Int) : Nat := (v % 2 ^ 64).toNat

/-- SUPPLY_READING (R563). -/
def supplyReading (x : Supply) (v : Int) (s : State) : State :=
  let (k, i) := x.place
  if supplyOk s x v then overstress x v (keepReading k i v s)
  else note 0x48 0x1001 255 [if k = 2 then 2 + i else k, detailWord v] s

/-! ## Temperatures (R563, R565) -/

/-- Warning and shutdown thresholds of a zone of R565. -/
def warnAt : Nat → Int
  | 0 => 1600 | 1 => 1520 | 2 => 1200 | _ => 1280
def shutAt : Nat → Int
  | 0 => 2000 | 1 => 1840 | 2 => 1440 | _ => 1520

/-- An accepted reading of a sensor of zone row `z`, number `i` in it, drives warnings, the shutdown, and the fence of a
Grove die. -/
def thermal (z i : Nat) (v : Int) (s : State) : State :=
  let on := tget false s.pwr.warn (k2 z i)
  let val := (v % 2 ^ 32).toNat
  let set (b : Bool) (s : State) : State := { s with pwr := { s.pwr with warn := tput false s.pwr.warn (k2 z i) b } }
  let s := if !on && decide (warnAt z ≤ v) then powerAlert 4 z val (set true s)
    else if on && decide (v ≤ warnAt z - 80) then powerAlert 5 z val (set false s)
    else s
  let s := if z = 1 ∧ 1680 < v then fenceCause (uGrove i) 3 s else s
  if shutAt z ≤ v ∧ s.pwr.offZone = none then
    let s := powerDown (powerAlert 6 z val (cnt .pwrThermalOff 0 0 1 s))
    { s with pwr := { s.pwr with offZone := some z } }
  else s

/-- TEMP_READING (R563). -/
def tempReading (sensor z i : Nat) (v : Int) (s : State) : State :=
  if readingOk s 3 sensor (-880) 2400 (some 80) v then thermal z i v (keepReading 3 sensor v s)
  else note 0x48 0x1002 255 [sensor, detailWord v] s

/-- ALARM_INPUT (R571): an accepted change is posted. -/
def alarmInput (n : Nat) (closed : Bool) (s : State) : State :=
  if tget false s.pwr.din (k1 n) = closed then s
  else
    post 0 0x1004 (packLE [(8, s.ring), (1, n), (1, b2n closed)])
      { s with pwr := { s.pwr with din := tput false s.pwr.din (k1 n) closed } }

/-! ## The calibration page (R574 to R576) -/

/-- Another write of the page is accepted and not yet applied, or the module is not STAGED (R575). -/
def calBusy (s : State) : Bool := s.md.mode != .staged || s.items.any (fun i => i.op == .calWrite || i.op == .calImport)

/-- A page's magic, version, serial number, reserved bytes and CRC are right. -/
def calPageOk (l : List Byte) : Bool :=
  leAt l 0 4 == 0x4C414331 && leAt l 4 2 == 1 && slice l 7 1 == zeros 1 && slice l 8 16 == beBytes 16 (Config.fuse 0).toNat &&
    allZero (slice l 0x1C 36) && allZero (slice l 0x1AD0 8) && allZero (slice l 0x1BD8 9252) &&
    leAt l 0x3FFC 4 == (crc32c (l.take 0x3FFC)).toNat

/-- CAL_WRITE. -/
def opCalWrite : LOp :=
  { op := .calWrite, ownOrder := true,
    pre := fun s q =>
      orElseSt (argForm .calWrite q) (firstBad
        [(!calBusy s, .busy), (q.payload.length == 16384, .range), (calPageOk q.payload, .range)]) }

/-- CAL_IMPORT. -/
def opCalImport : LOp :=
  { op := .calImport,
    args := fun _ q => if q.payload.length = 16544 then .ok else .range,
    pre := fun s q => firstBad
      [(!calBusy s, .busy), (signedOver q (digest (q.payload.take 16448)) && slice q.payload 8 16 == beBytes 16 (Config.fuse 0).toNat, .badSig)] }

/-- The new page replaces the old: the module sets its source, its count of writes and its CRC. -/
def putPage (source : Nat) (l : List Byte) (s : State) : State :=
  let n := s.pwr.calWrites + 1
  let b := l.take 6 ++ leBytes 1 source ++ slice l 7 0x11 ++ leBytes 4 n ++ slice l 0x1C (0x3FFC - 0x1C)
  { s with pwr := { s.pwr with page := calSeal b, calWrites := n, calSource := source } }

/-- A new page lands, while the module is still STAGED. -/
def landCal (source : Nat) (page : List Byte) (s : State) : Ans :=
  if s.md.mode = .staged then { st := putPage source page s, ring := s.ring } else refuse .busy s

/-- CAL_WRITE lands. -/
def landCalWrite (i : Item) (s : State) : Ans := landCal 1 i.req.payload s

/-- CAL_IMPORT lands. -/
def landCalImport (i : Item) (s : State) : Ans := landCal 2 (slice i.req.payload 64 16384) s

/-- The calibration blob (R576). -/
def calBlob (s : State) : List Byte :=
  let b := packLE [(4, 0x42434C41), (2, 1), (2, 0)] ++ beBytes 16 (Config.fuse 0).toNat ++ leBytes 8 s.ring ++ zeros 32 ++ calPage s
  b ++ padTo 96 (Config.crypto 32 [Config.fusedKey 0, digest b])

/-- CAL_EXPORT. -/
def opCalExport : LOp := { op := .calExport, snap := true, now := fun s _ => { st := s, ring := s.ring, data := calBlob s } }

/-! ## Meanings -/

/-- A row of the power entry, which acts in HALTED as well. -/
def execPowerOn (temp : Int) (s : State) : Out := .next (powerOn temp s)
/-- POWER_GOOD (R508). -/
def execPowerGood (s : State) : Out := .next (powerGood s)
/-- DIP_START (R560). -/
def execDipStart (s : State) : Out := .next (if s.pwr.on then dipStart s else s)
/-- DIP_END (R560). -/
def execDipEnd (s : State) : Out := .next (if s.pwr.on then dipEnd s else s)
/-- POWER_FAIL (R561). -/
def execPowerFail (s : State) : Out := .next (powerFail s)
/-- SUPPLY_READING (R563): kind 0 the input, 1 the bulk capacitor, 2 a rail. -/
def execSupplyReading (kind : Fin 3) (rail : Fin 16) (nominal : Nat) (value : Int) (pin : Nat) (s : State) : Out :=
  let x : Supply := if kind.val = 0 then .input else if kind.val = 1 then .bulk else .rail rail.val nominal
  .next (unlessHalted s (supplyReading x value { s with pwr := { s.pwr with pin := pin } }))
/-- TEMP_READING (R563). -/
def execTempReading (sensor : Fin 64) (zone index : Fin 4) (value : Int) (s : State) : Out :=
  .next (if s.pwr.on then tempReading sensor.val zone.val index.val value s else s)
/-- ALARM_INPUT (R571). -/
def execAlarmInput (input : Fin 2) (closed : Bool) (s : State) : Out := .next (unlessHalted s (alarmInput input.val closed s))
/-- CAL_EXPORT (R576). -/
def execCalExport (q : Req) (s : State) : Out := .next (runOp opCalExport q s)
/-- CAL_IMPORT (R576). -/
def execCalImport (q : Req) (s : State) : Out := .next (runOp opCalImport q s)
/-- CAL_WRITE (R575). -/
def execCalWrite (q : Req) (s : State) : Out := .next (runOp opCalWrite q s)

end Sys2Proof.Machine
end

