-- ==== Sys2Proof/Machine/Pair.lean ====
section
/-!
DEFINITION. The redundant pair over the Isal link (R539 to R556): HELLO, heartbeats and the grid comparison, roles and
switchovers, learn notices, and the pair record.
-/
namespace Sys2Proof.Machine

/-! ## The link and its messages (R539 to R541) -/

/-- The pair link exists on the variant (R3). -/
def pairPresent (s : State) : Bool := s.variant != .e
/-- `PAIR.CFG` fields (R542). -/
def pairEn (s : State) : Bool := bit s.pair.cfg 0
def pairPrefer (s : State) : Bool := bit s.pair.cfg 1
def pairAuto (s : State) : Bool := bit s.pair.cfg 2
def pairMirror (s : State) (c : Nat) : Bool := bit s.pair.cfg (32 + c)
/-- This module's wrap-key identifier. -/
def ownId : Nat := (Config.fuse 2).toNat

/-- The link key is formed: each side has received the other's HELLO (R541). -/
def pairKeyed (s : State) : Bool := pairEn s && s.pair.linkUp && s.pair.sentHello && s.pair.hello.any (fun h => h.1 == s.pair.peerId)

/-- This module's wrap-key identifier is the lower of the two (R540, R541, R547). -/
def ownLower (s : State) : Bool := decide (ownId < s.pair.peerId)

/-- The two values of a pair, that of the module with the lower identifier first (R541). -/
def inOrder (s : State) (own peer : List Byte) : List Byte := if ownLower s then own ++ peer else peer ++ own

/-- The link key (R541): HKDF over the ECDH value of the own wrap key and the peer's, with the two boot nonces as salt. -/
def linkKey (s : State) : List Byte :=
  Config.hkdf (inOrder s (beBytes 16 s.pair.nonce) (beBytes 16 ((s.pair.hello.map Prod.snd).getD 0)))
    (Config.ecdh (Config.fusedKey 1) (certKey s.pair.cert))
    (ascii "fis64 pair" ++ inOrder s (beBytes 16 ownId) (beBytes 16 s.pair.peerId)) 32

/-- The frame of a message under the next `SEQ` (R540): a HELLO in the clear, every other type encrypted, with bytes 14 to 29 as
additional data and the direction word and `SEQ` as nonce. The order of a field's bytes: log entry 132. -/
def pairFrame (type : Nat) (body : List Byte) (s : State) : List Byte :=
  let addr := beBytes 6 0x020000000000
  let h := leBytes 1 type ++ leBytes 1 1 ++ zeros 6 ++ beBytes 8 s.pair.txSeq
  let nonce := beBytes 4 (b2n (!ownLower s)) ++ beBytes 8 s.pair.txSeq
  addr ++ addr ++ beBytes 2 0x88B5 ++ h ++
    if type = 1 then body
    else
      let text := padTo body.length (Config.gcmText (linkKey s) nonce body)
      text ++ padTo 16 (Config.gcmTag (linkKey s) nonce h text)

/-- A message goes out: its type and body, and the frame that carries it, under the next `SEQ` (R540). -/
def pairSend (type : Nat) (body : List Byte) (s : State) : State :=
  { s with pair := { s.pair with sent := ((type, body) :: s.pair.sent).take 64, frames := (pairFrame type body s :: s.pair.frames).take 64,
                                 txSeq := s.pair.txSeq + 1 } }

/-- A HELLO with a fresh boot nonce goes out, and the count of messages starts with it (R541). -/
def sendHello (s : State) : State :=
  let (n, s) := freshFree s
  let n := n % 2 ^ 128
  let s := { s with pair := { s.pair with txSeq := 0, txLog := [], sentHello := true, nonce := n } }
  pairSend 1 (beBytes 16 n ++ beBytes 16 ownId) s

/-- The pair link comes up (R539, R541). -/
def pairUp (s : State) : State :=
  if s.pair.linkUp then s
  else
    let s := { s with pair := { s.pair with linkUp := true } }
    if pairEn s then sendHello s else s

/-- The link may run: present, its optic not denied power, and the module not silenced. -/
def pairMayRun (s : State) : Bool :=
  pairPresent s && s.md.mode != .sealed && !(cageOf s 52).denied && !s.link.squelched

/-- HELLO (R541): it can only arrive on a link that is up. -/
def pairHello (nonce id : Nat) (s : State) : State :=
  if !pairMayRun s then s
  else
    let s := pairUp s
    if pairEn s && id != s.pair.peerId then cnt .pairMsgReject 0 0 1 s
    else { s with pair := { s.pair with hello := some (id, nonce), rxSeq := 0 } }

/-- A message of the peer is accepted (R540): keyed, its tag right, its `SEQ` greater than the last. -/
def pairTake (seq : Nat) (tagOk : Bool) (f : State → State) (s : State) : State :=
  if !s.pair.linkUp then s
  else if pairKeyed s && tagOk && decide (s.pair.rxSeq < seq) then f { s with pair := { s.pair with rxSeq := seq } }
  else cnt .pairMsgReject 0 0 1 s

/-! ## Heartbeats (R544, R545, R551) -/

/-- The summary of a compartment's cuts (R551). -/
def cutSummary (s : State) (c : Nat) : List Byte :=
  match currentCut s c with
  | none => zeros 8
  | some x =>
    if x.restored then List.replicate 8 255
    else
      let img := ((imgOfCmp s c).map (fun k => leBytes 8 k.imageId)).getD (zeros 8)
      let pend := match (liveCuts s c).find? (fun y => y.state == 0) with
        | some y => padTo 48 y.digest ++ leBytes 8 y.target
        | none => zeros 56
      (digest (padTo 48 x.digest ++ leBytes 8 x.target ++ img ++ pend)).take 8

/-- `TIM.STATUS.DET_EXCLUDED` (R71). -/
def detExcluded (s : State) : Bool := s.tim.detExcl || s.tim.state == .free || s.tim.state == .acquiring

/-- The leading bytes of the base bundle's digest and of that of `BLZ.CFG` (R544). -/
def bundleDigest (s : State) : List Byte := (s.par.base.map (fun b => (digest b.bytes).take 16)).getD (zeros 16)
def blazeDigest (s : State) : List Byte := (digest (leBytes 16 s.ctr.blz.toNat)).take 8

/-- The body of a heartbeat (R544). -/
def hbBody (s : State) : List Byte :=
  let flags := b2n s.pair.role + 2 * b2n (pairPrefer s) + 4 * b2n (pairAuto s) + 8 * b2n (detExcluded s) + 16 * b2n s.pair.pend.isSome
  packLE [(8, s.ring), (1, s.md.mode.code), (1, s.tim.state.code), (1, flags), (5, 0), (8, ((s.pair.txLog.head?).map Prod.snd).getD 0),
      (8, s.pair.tRx), (8, s.pair.rxHbSeq)] ++ bundleDigest s ++ blazeDigest s ++ allCids.flatMap (cutSummary s)

/-- A heartbeat's time at the cage (R544), from the grid time at its MAC in 0.5 ns: the transmit delay of the first pair lane is
added, or its receive delay subtracted (log entry 132). -/
def hbTime (s : State) (tx : Bool) (time : Nat) : Nat :=
  let d := if tx then laneDelay s 128 1 else -laneDelay s 128 0
  (((time : Int) + d / 32) % 2 ^ 64).toNat

/-- HEARTBEAT_SEND (R544), once in a ring: `time` is its transmit time at the MAC. -/
def hbSend (time : Nat) (s : State) : State :=
  if pairKeyed s && s.ring % 1000 == 0 && s.pair.hbRan != s.ran + 1 then
    let seq := s.pair.txSeq
    let s := pairSend 2 (hbBody s) (cnt .pairHbTx 0 0 1 s)
    { s with pair := { s.pair with txLog := ((seq, hbTime s true time) :: s.pair.txLog).take 64, hbRan := s.ran + 1 } }
  else s

/-- The peer's grid offset (R545): from the heartbeat h of ours that the peer last received, and its heartbeat g before this
one, when that is the last one accepted here. -/
def gridOffset (s : State) (body : List Byte) : Option Int :=
  match s.pair.txLog.find? (fun e => e.1 == leAt body 32 8) with
  | some (_, ta) =>
    if s.pair.peer ≠ [] ∧ hbAt s 0 8 + 1000 = leAt body 0 8 then
      let tb : Int := leAt body 24 8
      let tc : Int := leAt body 16 8
      some (((tb - ta) - (s.pair.tRx - tc)) / 2)
    else none
  | none => none

/-- A heartbeat is accepted (R544, R545). -/
def hbTake (seq : Nat) (body : List Byte) (time : Nat) (s : State) : State :=
  let off := (gridOffset s body).getD s.pair.offset
  let was := s.pair.live
  let s := cnt .pairHbRx 0 0 1 { s with pair := { s.pair with
    offset := off, peer := body, tRx := hbTime s false time, rxHbSeq := seq, lastHb := s.ran, lastHbRing := s.ring, live := true } }
  if was then s else pairState s.pair.role 5 s

/-- HEARTBEAT_LOST (R544): at a boundary, 10,000 rings without one; or the link found lost, which goes down at the next. -/
def hbLoss (linkDown : Bool) (s : State) : State :=
  if linkDown then pairFound s
  else if atBoundary s && s.pair.live && decide (s.pair.lastHb + 10000 ≤ s.ran) then hbLost s else s

/-! ## Roles (R546 to R548) -/

/-- This module, and the peer, can forward (R547). -/
def ableMode (m : Nat) : Bool := m == 2 || m == 4
def ownAble (s : State) : Bool := ableMode s.md.mode.code
def peerAble (s : State) : Bool := s.pair.live && ableMode (hbAt s 8 1)
/-- The peer's role and `PREFER` bit, from its last heartbeat. -/
def peerRole (s : State) : Bool := hbAt s 10 1 % 2 == 1
def peerPrefer (s : State) : Bool := hbAt s 10 1 / 2 % 2 == 1
/-- This module is preferred (R547). -/
def preferred (s : State) : Bool :=
  if pairPrefer s = peerPrefer s then ownLower s else pairPrefer s

/-- The role changes at the present boundary. -/
def setRole (r : Bool) (cause : Nat) (s : State) : State :=
  let old := s.pair.role
  pairState old cause { s with pair := { s.pair with role := r, roleRing := s.ring } }

/-- The last heartbeat was sent after our last change of role, so a conflict that it shows is one (R547). -/
def hbFresh (s : State) : Bool := decide (s.pair.roleRing ≤ hbAt s 0 8)

/-- A pending switchover lands by ring `n` (R548): acknowledged, or sent by the peer. -/
def swapDue (n : Nat) (s : State) : Option Bool :=
  match s.pair.pend with
  | some (t, ours, ack) => if t ≤ n then some (!ours || ack) else none
  | none => none

/-- ROLE_SWAP (R548): what is due by ring `n`. -/
def roleSwap (n : Nat) (s : State) : State :=
  match swapDue n s with
  | some true => setRole (!s.pair.role) 0 { s with pair := { s.pair with pend := none } }
  | some false => pairCancel s
  | none => s

/-- The role at the boundary of ring `n`: the first row of R547 that holds. -/
def roleEval (n : Nat) (s : State) : State :=
  if !pairEn s then s
  else if swapDue n s = some true then roleSwap n s
  else
    let s := roleSwap n s
    let both := ownAble s && peerAble s && hbFresh s
    if !s.pair.role && ownAble s && pairAuto s && !peerAble s then setRole true 1 s
    else if both && s.pair.role && peerRole s && !preferred s then setRole false 2 s
    else if both && !s.pair.role && !peerRole s && preferred s then setRole true 2 s
    else s

/-- SWITCH of the peer (R548). -/
def switchTake (t : Nat) (s : State) : State :=
  if s.pair.pend.all (fun p => p.1 == t) then
    let s := pairSend 4 (leBytes 8 t) s
    if s.pair.pend.isSome then s else { s with pair := { s.pair with pend := some (t, false, true) } }
  else pairCancel (pairSend 5 (leBytes 8 t) s)

/-- SWITCH_ACK of the peer. -/
def ackTake (t : Nat) (s : State) : State :=
  match s.pair.pend with
  | some (t', ours, _) => if t' = t then { s with pair := { s.pair with pend := some (t', ours, true) } } else s
  | none => s

/-- SWITCH_CANCEL of the peer. -/
def cancelTake (t : Nat) (s : State) : State := if s.pair.pend.any (fun p => p.1 == t) then pairCancel s else s

/-- SWITCH_ACK_TIMEOUT: no acknowledgement by the boundary of T − 1 (R548). -/
def ackTimeout (s : State) : State :=
  match s.pair.pend with
  | some (t, true, false) => if t ≤ s.ring + 1 then pairSend 5 (leBytes 8 t) (pairCancel s) else s
  | _ => s

/-! ## Learn notices (R549) -/

/-- NOTICE_SEND: one NOTICE of up to 24 notices, at most 8,192 in a ring. -/
def noticeSend (s : State) : State :=
  let n := min 24 (8192 - s.pair.ringNotices)
  let l := s.pair.queue.take n
  if !pairKeyed s || l.isEmpty then s
  else
    let s := pairSend 6 (l.flatMap (fun e => e.2.2)) (cnt .pairNoticeTx 0 0 l.length s)
    { s with pair := { s.pair with queue := s.pair.queue.drop l.length, ringNotices := s.pair.ringNotices + l.length } }

/-- One notice of the peer is posted as PEER_LEARN, or dropped. -/
def noticeOne (n : List Byte) (s : State) : State :=
  let c := leAt n 0 1
  if c < 32 ∧ pairMirror s c ∧ (mbxOf s c).enabled then post c 0x1102 (n.drop 1) s else cnt .pairNoticeDropped 0 0 1 s

/-- The notices of a message. -/
def noticeTake (body : List Byte) (s : State) : State := foldS (recordsOf 49 body) noticeOne s

/-! ## Commands (R542, R543, R548, R553) -/

/-- PAIR_CFG_WRITE's checks in the order of R543. -/
def pairCfgCheck (s : State) (q : Req) : Status :=
  let x := rec128 q.payload
  let n := q.payload.length
  let cert := q.payload.drop 16
  firstBad [
    (decide (16 ≤ n) && fld x 31 4 == 0, .range),
    (if bit x 0 then decide (n ≤ 16 + 4096) else n == 16, .range),
    (!bit x 0 || decide (16 < n), .zeroLen),
    (tCheck (vOf s q .pairCfgWrite) q.t == .ok, tCheck (vOf s q .pairCfgWrite) q.t),
    (!bit x 0 || q.auth, .badSig),
    (!bit x 0 || beNat (certKeyId cert) != ownId, .range)]

/-- PAIR_CFG_WRITE. -/
def opPairCfg : LOp :=
  { op := .pairCfgWrite, present := fun s _ => pairPresent s, ownOrder := true,
    pre := fun s q => orElseSt (argForm .pairCfgWrite q) (pairCfgCheck s q) }

/-- The pair record takes effect (R541, R542). -/
def landPairCfg (i : Item) (s : State) : Ans :=
  let x := rec128 i.req.payload
  let old := s.pair.role
  let was := pairEn s
  let en := bit x 0
  let peer := if en then beNat (certKeyId (i.req.payload.drop 16)) else 0
  let role := if !en then true else if was then old else bit x 3
  let live := s.pair.live && en && peer == s.pair.peerId
  let s := { s with pair := { s.pair with
    cfg := x, cert := if en then i.req.payload.drop 16 else [], peerId := peer, role := role, live := live, roleRing := if role = old then s.pair.roleRing else s.ring,
    pend := if en then s.pair.pend else none } }
  let s := if en && s.pair.linkUp then sendHello s else s
  { st := pairState old 6 s, ring := s.ring }

/-- A switchover may be started (R548). -/
def switchOk (s : State) : Bool :=
  pairEn s && s.pair.live && ownAble s && peerAble s && s.pair.role != peerRole s && s.pair.pend.isNone

/-- PAIR_SWITCHOVER: on acceptance SWITCH goes out. -/
def opPairSwitch : LOp :=
  { op := .pairSwitchover, present := fun s _ => pairPresent s,
    pre := fun s _ => if switchOk s then .ok else .busy,
    now := fun s q =>
      { st := pairSend 3 (leBytes 8 q.t) { s with pair := { s.pair with pend := some (q.t, true, false) } } } }

/-- `PAIR.STATUS.CUT_MATCH` (R551). -/
def cutMatch (s : State) : Nat :=
  (allCids.map (fun c =>
    let mine := cutSummary s c
    let theirs := slice s.pair.peer (64 + 8 * c) 8
    if mine = theirs ∧ mine ≠ List.replicate 8 255 then 2 ^ c else 0)).foldl (· + ·) 0

/-- `PAIR.STATUS` (R553). -/
def pairStatus (s : State) : List Byte :=
  let known := !s.pair.peer.isEmpty
  let low := b2n (pairEn s) + 2 * b2n s.pair.linkUp + 4 * b2n (pairKeyed s) + 8 * b2n s.pair.live + 16 * b2n s.pair.role +
    32 * b2n (known && peerRole s) + 64 * b2n (pairAligned s) + 128 * b2n (known && slice s.pair.peer 40 16 == bundleDigest s) +
    256 * b2n (known && slice s.pair.peer 56 8 == blazeDigest s) + 512 * b2n s.pair.pend.isSome +
    1024 * b2n (pairEn s && preferred s)
  packLE [(2, low), (2, hbAt s 8 1 % 8 + 8 * (hbAt s 9 1 % 8)), (4, if known then cutMatch s else 0),
    (4, (s.pair.offset % 2 ^ 32).toNat), (4, 0), (8, s.pair.lastHbRing), (8, (s.pair.pend.map (fun p => p.1)).getD 0)]

/-- PAIR_STATUS_READ. -/
def opPairStatus : LOp :=
  { op := .pairStatusRead, snap := true, present := fun s _ => pairPresent s,
    now := fun s _ => { st := s, ring := s.ring, data := pairStatus s } }

/-! ## Meanings -/

/-- HELLO (R541). -/
def execHello (nonce id : BitVec 128) (s : State) : Out := .next (unlessHalted s (pairHello nonce.toNat id.toNat s))
/-- HEARTBEAT_SEND (R544). -/
def execHeartbeatSend (time : Nat) (s : State) : Out := .next (unlessHalted s (hbSend time s))
/-- HEARTBEAT (R545). -/
def execHeartbeat (seq : BitVec 64) (tagOk : Bool) (body : List Byte) (time : Nat) (s : State) : Out :=
  .next (unlessHalted s (pairTake seq.toNat tagOk (hbTake seq.toNat body time) s))
/-- HEARTBEAT_LOST (R544). -/
def execHeartbeatLost (linkDown : Bool) (s : State) : Out := .next (unlessHalted s (hbLoss linkDown s))
/-- SWITCH (R548). -/
def execSwitch (seq : BitVec 64) (tagOk : Bool) (t : BitVec 64) (s : State) : Out :=
  .next (unlessHalted s (pairTake seq.toNat tagOk (switchTake t.toNat) s))
/-- SWITCH_ACK (R548). -/
def execSwitchAck (seq : BitVec 64) (tagOk : Bool) (t : BitVec 64) (s : State) : Out :=
  .next (unlessHalted s (pairTake seq.toNat tagOk (ackTake t.toNat) s))
/-- SWITCH_CANCEL (R548). -/
def execSwitchCancel (seq : BitVec 64) (tagOk : Bool) (t : BitVec 64) (s : State) : Out :=
  .next (unlessHalted s (pairTake seq.toNat tagOk (cancelTake t.toNat) s))
/-- SWITCH_ACK_TIMEOUT (R548). -/
def execSwitchAckTimeout (s : State) : Out := .next (unlessHalted s (onBoundary ackTimeout s))
/-- ROLE_SWAP (R548). -/
def execRoleSwap (s : State) : Out := .next (unlessHalted s (onBoundary (fun s => roleSwap s.ring s) s))
/-- NOTICE_SEND (R549). -/
def execNoticeSend (s : State) : Out := .next (unlessHalted s (noticeSend s))
/-- NOTICE (R549). -/
def execNotice (seq : BitVec 64) (tagOk : Bool) (body : List Byte) (s : State) : Out :=
  .next (unlessHalted s (pairTake seq.toNat tagOk (noticeTake body) s))
/-- PAIR_CFG_WRITE (R543). -/
def execPairCfgWrite (q : Req) (s : State) : Out := .next (runOp opPairCfg q s)
/-- PAIR_SWITCHOVER (R548). -/
def execPairSwitchover (q : Req) (s : State) : Out := .next (runOp opPairSwitch q s)
/-- PAIR_STATUS_READ (R553). -/
def execPairStatusRead (q : Req) (s : State) : Out := .next (runOp opPairStatus q s)

end Sys2Proof.Machine
end

