-- ==== Sys2Proof/Machine/Boundary.lean ====
section
/-!
DEFINITION. The ring boundary (R416, R422, R581): the landing of every command that waits, the order of the changes of one
boundary, what a finished ring posts and counts, and the single changes that have rows of their own; MGMT_LAENT (R469).
-/
namespace Sys2Proof.Machine

/-! ## Landing one command (R416, R422) -/

/-- The effect of a waiting command at its boundary. Opcodes that leave no item have none; PAIR_SWITCHOVER acts through the
pending switchover it set (R548). -/
def landItem (i : Item) (s : State) : Ans :=
  match i.op with
  | .portCfgWrite => landPortCfg i s
  | .radioWinWrite => landRadioWin i s
  | .portReset => landPortReset i s
  | .timSrcWrite => landTimSrc i s
  | .timCtlWrite => landTimCtl i s
  | .timRealign => landRealign i s
  | .baseBundleLoad => landBaseBundle i s
  | .cmpBundleLoad => landCmpBundle i s
  | .cutCommit | .cutCommitSigned => landCut i s
  | .emFlush => landEmFlush i s
  | .emLookup => landEmLookup i s
  | .trieLookup => landTrieLookup i s
  | .grvPairWrite => landGrvPair i s
  | .poolCfgWrite => landPoolCfg i s
  | .lndCfgWrite => landLndCfg i s
  | .gateSwitch => landGateSwitch i s
  | .shapeWrite => landShape i s
  | .shareWrite => landShare i s
  | .spillCfgWrite => landSpillCfg i s
  | .dramCfgWrite => landDramCfg i s
  | .tallyCfgWrite => landTallyCfg i s
  | .tallyPagesWrite => landTallyPages i s
  | .cvAssign => landCvAssign i s
  | .cvArm => landCvArm i s
  | .counterProgram => landCounterProgram i s
  | .blazeCfgWrite => landBlazeCfg i s
  | .cmpDefine => landCmpDefine i s
  | .cmpQuotaWrite => landCmpQuota i s
  | .cmpDelete => landCmpDelete i s
  | .cmpAttach => landAttach i s
  | .cmpDetach => landDetach i s
  | .krfRegionWrite => landKrfRegion i s
  | .cmpReset => landCmpReset i s
  | .freeze => landFreeze i s
  | .thaw => landThaw i s
  | .save => landSave i s
  | .restore => landRestore i s
  | .ownerEnrol => landOwnerEnrol i s
  | .cutKeySet => landCutKeySet i s
  | .secyAlloc => landSecyAlloc i s
  | .secyWrite => landSecyWrite i s
  | .rxScWrite => landRxSc i s
  | .saInstall => landSaInstall i s
  | .saSwitch => landSaSwitch i s
  | .firebreakLift => landLift i s
  | .firebreakRaise => landRaise i s
  | .factoryMode => landFactory i s
  | .modeSet => landModeSet i s
  | .groupSleep => landGroupSleep i s
  | .nightTrimWrite => landNightTrim i s
  | .calImport => landCalImport i s
  | .calWrite => landCalWrite i s
  | .pairCfgWrite => landPairCfg i s
  | _ => { st := s, ring := s.ring }

/-- The units whose epochs a waiting command recorded (R407): those of a "next" command, whose commit point is its
boundary. -/
def itemUnits (s : State) (i : Item) : List Nat :=
  match i.op with
  | .secyAlloc | .rxScWrite | .saInstall => secyUnits s i.req
  | _ => []

/-- What a waiting command answers: its effect, unless an epoch moved under it (R407) or its data does not fit (R420). -/
def landAns (i : Item) (s : State) : Ans :=
  match epochMoved (itemUnits s i) i.v s with
  | some x => { st := s, status := .fenced, aux := x }
  | none =>
    let a := landItem i s
    if i.rsp && decide (i.req.outLen.toNat < a.data.length) then refuse .noSpace s else a

/-- Land one command, if it still waits: a rotation change of the same boundary may have discarded it (R423). -/
def landOne (i : Item) (s : State) : State :=
  if s.items.contains i then
    let s := { s with items := s.items.erase i }
    let a := landAns i s
    if i.rsp then answerLater i.op i.req i.v i.sec s a else a.st
  else s

/-- The step of R581 to which a command's effect belongs. -/
def landStep : Op → Nat
  | .firebreakRaise => 1
  | .cmpReset | .save | .restore => 2
  | .modeSet | .cmpDefine | .freeze | .thaw | .cmpDelete => 3
  | .timRealign => 4
  | .cutCommit | .cutCommitSigned => 5
  | .emFlush => 6
  | .groupSleep => 8
  | .firebreakLift => 9
  | _ => 7

/-- The order of R422: validation ring, then CID; equal ones stay in the order in which they stand. -/
def itemLt (a b : Item) : Bool := decide (a.v < b.v) || (a.v == b.v && decide (a.req.c < b.req.c))

/-- The commands whose effect is due, in the order of R422. A waiting BARRIER has no effect. -/
def dueItems (s : State) : List Item :=
  sortBy itemLt (s.items.filter (fun i => decide (i.due ≤ s.ring) && i.op != .barrier))

/-- Land the due commands that satisfy `p`. -/
def landSome (p : Item → Bool) (l : List Item) (s : State) : State := foldS (l.filter p) landOne s

/-- Land the due commands of one step. -/
def landAt (n : Nat) (l : List Item) (s : State) : State := landSome (fun i => landStep i.op == n) l s

/-! ## The steps of a boundary (R581) -/

/-- Step 2: rotation changes, those that come with a definition that will land among them (R581). -/
def stepRotations (l : List Item) (s : State) : State :=
  let defs := definesLand (l.filter (fun i => i.op == .cmpDefine)) s
  foldS (l.filter (fun i => landStep i.op == 2 || defs.contains i))
    (fun i => if i.op == .cmpDefine then cmpRotate i.req.arg1.toNat none else landOne i) s

/-- Step 3: the module's own entry into forwarding (R509), then the mode changes, definitions, freezes, thaws and deletions. -/
def stepModes (l : List Item) (s : State) : State := landAt 3 l (autoForwarding s)

/-- Step 5: cut landings, then retirements. -/
def stepCuts (l : List Item) (s : State) : State := agingTicks (retireCuts (landAt 5 l s))

/-- Step 6: what is due by ring `n` of the age-outs, flushes, parity removals and learns (R167). -/
def stepLearned (n : Nat) (l : List Item) (s : State) : State :=
  learnApply n (parityRemove n (fun _ => true) (portFlushes n (fun _ => true) (landAt 6 l (ageOuts n s))))

/-- What the module tests by itself before the roles are judged: commands held for their `NOT_BEFORE` (R398), a heartbeat and an
acknowledgement that are late (R544, R548). Rows of their own name the same tests. -/
def ownTests (s : State) : State := ackTimeout (hbLoss false (foldS allCids notBeforeRelease s))

/-- Step 7: the night-trim step of ring `n`, other commands, a common image whose engines are empty, and the roles of a pair, as they
stand once the module's own tests are made. -/
def stepOther (n : Nat) (l : List Item) (s : State) : State :=
  roleEval n (ownTests (imageWrite (landAt 7 l (nightStep n s))))

/-- Step 8 without the link-state causes of the ring: the ports that the boundary's changes reset, the sleep states of a
night-trim step, then GROUP_SLEEP, whose value stands for its group (R518). -/
def stepPorts (l : List Item) (s : State) : State := landAt 8 l (sleepStep (downStep s))


/-! ## The ring that ends -/

/-- A rank was in self-refresh in the ring in progress: it is, or it woke after the ring's first clock (R352). -/
def inSelfRefresh (s : State) (ch r : Nat) : Bool :=
  (rankOf s ch r).state == 1 || decide (clkOf s 480 < (rankOf s ch r).wakeAt)

/-- The ranks of a channel that were in self-refresh in the ring in progress, as a mask. -/
def srMask (s : State) (ch : Nat) : Nat := b2n (inSelfRefresh s ch 0) + 2 * b2n (inSelfRefresh s ch 1)

/-- Per-ring counts of a DRAM channel: its ranks in self-refresh (R527). -/
def dramRing (s : State) : State :=
  foldS ((List.range 16).filter (chPresent s.variant)) (fun ch s =>
    let m := srMask s ch
    if m = 0 then s else progEvt (uChannel ch) 0x63 255 m 1 s) s

/-- BUSY and STALLED clocks of a ring, where a unit's counters select them (R527): the manual does not say in which clocks a
unit works, so both are free values. -/
def busyRing (s : State) : State :=
  foldS s.ctr.prog (fun e s =>
    if e.2.sel.all (· == 0) then s
    else
      let (a, s) := freshFree s
      let (b, s) := freshFree s
      progEvt e.1.1 0x02 255 0 (b % 1601) (progEvt e.1.1 0x01 255 0 (a % 1601) s)) s

/-- Paused clocks up to the end of the ring, of every port that has a pause (R527). -/
def pausedRing (s : State) : State :=
  foldS ((s.link.pause.map (fun e => e.1.1)).eraseDups) (fun p => accPaused p (clkOf s 1600)) s

/-- The end of the ring in progress: what is under way at its last clock is done, and what it counted is posted. -/
def finishRing (s : State) : State :=
  let r := s.ring
  let s := txRingEnd (cellCredits (clkOf s 1600) (drainPipe (clkOf s 1599) (stageDue (clkOf s 1599) s)))
  let s := noteIdle (kerfOverrun s)
  let s := busyRing (dramRing (pausedRing (spillWaits s)))
  faultEvents (ovfEvents r (tallyEvents r (poolEvents r (kerfEvents s))))

/-- What every ring begins with: the counts and pointers of one ring start afresh. -/
def freshRing (s : State) : State :=
  let window := s.ring % 1000000 == 0
  { s with
    host := { s.host with readsInRing := 0, turn := 0, mbx := tkeep {} (fun m => { m with readsInRing := 0 }) s.host.mbx },
    link := { s.link with port := tkeep {} (fun p => { p with pos := 0 }) s.link.port },
    lnd := { s.lnd with ptr := [], path := tkeep {} (fun x => { x with slotPtr := 0 }) s.lnd.path },
    sch := { s.sch with held := [], deficit := [], ptr := [] },
    buf := { s.buf with turn := [] },
    dram := { s.dram with served := [], turns := [], errWin := if window then [] else s.dram.errWin },
    lko := { s.lko with win := if window then [] else s.lko.win },
    ctr := { s.ctr with blzRing := [] },
    pair := { s.pair with ringNotices := 0 },
    par := { s.par with old := s.par.old.filter (fun x => decide (s.ring < x.1 + 2)) } }

/-- A class that is paused across the boundary is paused in the new ring too (R339). -/
def pauseRings (s : State) : State :=
  foldS (s.link.pause.filter (fun e => decide (clkOf s 0 < e.2))) (fun e => countPause e.1.1 e.1.2.1) s

/-- What the finished ring left to be done at the boundary, outside the table of R581: repaired records are back (R125),
dispatch resumes (R271), discarded cuts go, mailboxes enter service (R389), the management port's PASID applies (R469), the
resets of fenced units begin (R493), and pipelines are gated whose groups the ring before found asleep (R516). -/
def openRing (s : State) : State :=
  let s := reapCuts (dispatchResume (rangerRepair s))
  let s := pasidApply (foldS allCids mbxEnabling s)
  foldS (List.range 8) pipelineGate (cartRing (foldS (List.range 64) unitReset s))

/-- Answer the BARRIERs whose wait is over (R425). -/
def barriers (s : State) : State :=
  foldS (sortBy itemLt (s.items.filter (fun i => i.op == .barrier))) (fun i s =>
    if barrierDone { s with host := (withSec i s).host } i.req i.v && s.items.contains i then
      let s := { s with items := s.items.erase i }
      answerLater .barrier i.req i.v i.sec s { st := s, ring := i.v }
    else s) s
where
  /-- The state in which the SECURED command that carries an item stands in its mailbox. -/
  withSec (i : Item) (s : State) : State :=
    if i.req.inner then modMbx i.req.c (fun m => { m with secOpen := i.sec }) s else s

/-- Mailboxes that have answered every command read leave service at the boundary (R389). -/
def mbxTurn (s : State) : State := foldS allCids mbxDrained s

/-- What the module tests once the changes of steps 1 to 8 are made: empty frozen compartments (R446) and an empty module (R506); what
then follows from it: BARRIERs are answered (R425), and mailboxes leave service (R389). -/
def closingTests (s : State) : State := mbxTurn (barriers (quiesce (foldS allCids cmpEmpty s)))

/-- The changes of a boundary in the order of R581, fences before every other one and lifts after (R490): `l` holds the commands that
were fixed before the boundary, and its ring is that before a setting of the grid (R53). -/
def boundarySteps (l : List Item) (s : State) : State :=
  let n := s.ring
  let s := openRing (landAt 1 l (fencesDue (fun _ => true) s))
  let s := stepModes l (stepRotations l s)
  let s := landAt 4 l (timEval s)
  let s := stepLearned n l (stepCuts l s)
  let s := stepPorts l (pairStep (linkStep (stepOther n l s)))
  landAt 9 l (closingTests s)

/-- What the new ring begins with, once its boundary's changes are made: the pauses and gates that stand (R339), what the check units
see (R379), the work of the DRAM controller, and faults that factory test mode injects by ring `n` (R500). -/
def beginRing (n : Nat) (s : State) : State :=
  faultInject n (dramTurn (cvOffersDue (guardTicks (pauseRings s))))

/-- The boundary at which a ring begins. -/
def enterRing (s : State) : State := beginRing s.ring (boundarySteps (dueItems s) (freshRing s))

/-- The grid counts on to the next ring. -/
def nextRing (s : State) : State :=
  { s with ring := s.ring + 1, ran := s.ran + 1, clock := 0, tim := { s.tim with stepped := false } }

/-- RING_BOUNDARY: the next ring begins, and reads take its values (R420). A HALTED module keeps the grid alone; without power nothing
runs, and the rails fall at the boundary to which they were held (R561). -/
def ringBoundary (s : State) : State :=
  if !s.pwr.on then s
  else if railsDue (nextRing s) then takeSnap (railsFall (nextRing s))
  else if s.md.mode = .halted then takeSnap (nextRing s)
  else
    let s := nextRing (finishRing s)
    takeSnap (if restartNow s then deviceRestart (freshRing s) else enterRing s)

/-! ## Single changes that are due at the present boundary -/

/-- Land what is due of some opcodes for one compartment. -/
def landFor (ops : List Op) (c : Nat) (s : State) : State :=
  landSome (fun i => ops.contains i.op && i.req.who == c) (dueItems s) s

/-- CUT_LAND: the commits of a compartment. -/
def cutLand (c : Nat) (s : State) : State :=
  landSome (fun i => (i.op == .cutCommit || i.op == .cutCommitSigned) && i.req.c == c) (dueItems s) s

/-- COMMAND_LANDING: every due command, in the order of the steps. -/
def commandLanding (s : State) : State :=
  let l := dueItems s
  let s := stepRotations l (landAt 1 l s)
  let s := foldS [3, 4, 5, 6, 7] (fun n => landAt n l) s
  landAt 9 l (stepPorts l s)

/-- MODE_CHANGE: what is due towards a mode. Bring-up enters STAGED with the units that failed their self-tests (R508); a
fence leaves forwarding for DEGRADED and a lift leaves DEGRADED (R503). -/
def modeChange (target : Mode) (failed : List Nat) (s : State) : State :=
  let s := landSome (fun i => i.op == .modeSet && i.req.arg1.toNat == target.code) (dueItems s) s
  match target with
  | .staged => bringUp failed s
  | .degraded => degrade s
  | .forwarding => undegrade s
  | _ => s

/-! ## MGMT_LAENT (R469) -/

/-- The commands that the management port carries. -/
def mgmtOps : List Op := [.identityRead, .faultRead, .modeSet, .restart, .calExport]

/-- The command of R469 for an opcode that the port carries. -/
def mgmtOp : Op → LOp
  | .identityRead => opIdentityRead
  | .faultRead => opFaultRead
  | .modeSet => opModeSet
  | .restart => opRestart
  | _ => opCalExport

/-- The request as CID 0 makes it over the port: it names no buffer in host memory, and its data returns in the reply. -/
def mgmtReq (o : Op) (q : Req) : Req :=
  { q with cid := 0, inner := false, outAddr := 0, outLen := if (opInfo o).out then 0xFFFFFFFF#32 else 0 }

/-- MGMT_LAENT: a command of CID 0 inside an owner session of the management port; the Laent response is the reply, and with that of RESTART
the 16 rings to the restart begin (R433). -/
def mgmtLaent (o : Op) (q : Req) (s : State) : State :=
  if halted s then s
  else if (session s 32).isNone || s.trust.recovery || !mgmtOps.contains o then mgmtDeny s
  else
    let s := sessMsg 32 s
    let q := mgmtReq o q
    let (a, it) := evalOp (mgmtOp o) q s.ring s
    let t := { a.st with items := a.st.items ++ it.toList }
    let t := if o == .restart && a.status == .ok then restartBy (restartRing t) t else t
    { t with host := { t.host with mgmtReply := some { rsp := { rspOf o q s.ring a with rotation := (cmpOf t 0).rotation } } } }

/-! ## Meanings -/

/-- RING_BOUNDARY (R581). -/
def execRingBoundary (s : State) : Out := .next (ringBoundary s)
/-- GATE_BANK_SWITCH (R326). -/
def execGateBankSwitch (port : Fin 64) (s : State) : Out :=
  .next (unlessHalted s (onBoundary (fun s => landSome (fun i => i.op == .gateSwitch && i.req.arg1.toNat == port.val) (dueItems s) s) s))
/-- LEARNED_FLUSH (R173). -/
def execLearnedFlush (s : State) : Out := .next (unlessHalted s (onBoundary (fun s => landSome (fun i => i.op == .emFlush) (dueItems s) s) s))
/-- CUT_LAND (R148). -/
def execCutLand (cid : Fin 32) (s : State) : Out := .next (unlessHalted s (onBoundary (fun s => cutLand cid.val s) s))
/-- IMAGE_WRITE (R271). -/
def execImageWrite (s : State) : Out := .next (unlessHalted s (onBoundary imageWrite s))
/-- GRAPH_SWAP (R126). -/
def execGraphSwap (s : State) : Out := .next (unlessHalted s (onBoundary (fun s => landSome (fun i => i.op == .baseBundleLoad) (dueItems s) s) s))
/-- COMMAND_LANDING (R422). -/
def execCommandLanding (s : State) : Out := .next (unlessHalted s (onBoundary (fun s => commandLanding s) s))
/-- ROTATION_CHANGE (R444). -/
def execRotationChange (cid : Fin 32) (s : State) : Out :=
  .next (unlessHalted s (onBoundary (fun s => landFor [.cmpReset, .save, .restore, .cmpDefine] cid.val s) s))
/-- FREEZE_LAND (R445). -/
def execFreezeLand (cid : Fin 32) (s : State) : Out := .next (unlessHalted s (onBoundary (fun s => landFor [.freeze] cid.val s) s))
/-- THAW_LAND (R447). -/
def execThawLand (cid : Fin 32) (s : State) : Out := .next (unlessHalted s (onBoundary (fun s => landFor [.thaw] cid.val s) s))
/-- MODE_CHANGE (R503). -/
def execModeChange (target : Mode) (failed : List (Fin 75)) (s : State) : Out :=
  .next (unlessHalted s (onBoundary (fun s => modeChange target (failed.map Fin.val) s) s))
/-- FIREBREAK_LIFTED (R494). -/
def execFirebreakLifted (unit : Fin 64) (s : State) : Out :=
  .next (unlessHalted s (onBoundary (fun s => landSome (fun i => i.op == .firebreakLift && i.req.arg1.toNat == unit.val) (dueItems s) s) s))
/-- MGMT_LAENT (R469). -/
def execMgmtLaent (op : Op) (q : Req) (s : State) : Out := .next (mgmtLaent op q s)

end Sys2Proof.Machine
end

