-- ==== Sys2Proof/Machine/Dispatch.lean ====
section
/-!
DEFINITION. The dispatch: one arm per command.
-/
namespace Sys2Proof.Machine

def exec (i : Instr) (s : State) : Host.Outcome State Fault Refusal :=
  match i with
  | .ringBoundary => Sys2Proof.Machine.execRingBoundary s
  | .frameReceive port clk rx => Sys2Proof.Machine.execFrameReceive port clk rx s
  | .pfcReceive port clk cev timers => Sys2Proof.Machine.execPfcReceive port clk cev timers s
  | .pauseExpire port cls clk => Sys2Proof.Machine.execPauseExpire port cls clk s
  | .pfcRefreshExpire port => Sys2Proof.Machine.execPfcRefreshExpire port s
  | .cellSlot slot errs => Sys2Proof.Machine.execCellSlot slot errs s
  | .cellArrive plane src dst seq clk beats => Sys2Proof.Machine.execCellArrive plane src dst seq clk beats s
  | .reseqTimeout src dst clk => Sys2Proof.Machine.execReseqTimeout src dst clk s
  | .mcHoldExpire => Sys2Proof.Machine.execMcHoldExpire s
  | .kerfDispatch pipe clk errs => Sys2Proof.Machine.execKerfDispatch pipe clk errs s
  | .microcycle pipe eng clk microBad nanoBad actBad => Sys2Proof.Machine.execMicrocycle pipe eng clk microBad nanoBad actBad s
  | .windowFetchDone pipe eng clk => Sys2Proof.Machine.execWindowFetchDone pipe eng clk s
  | .copyToScheduler pipe port cls clk => Sys2Proof.Machine.execCopyToScheduler pipe port cls clk s
  | .schedStart port clk => Sys2Proof.Machine.execSchedStart port clk s
  | .transmitDone port clk errs => Sys2Proof.Machine.execTransmitDone port clk errs s
  | .shaperRefill notch => Sys2Proof.Machine.execShaperRefill notch s
  | .gateEntryStart port notch => Sys2Proof.Machine.execGateEntryStart port notch s
  | .gateBankSwitch port => Sys2Proof.Machine.execGateBankSwitch port s
  | .spillWrite group port cls errs => Sys2Proof.Machine.execSpillWrite group port cls errs s
  | .spillReadback group => Sys2Proof.Machine.execSpillReadback group s
  | .spillPageWalk group port cls => Sys2Proof.Machine.execSpillPageWalk group port cls s
  | .dramPageDone ch clk errs => Sys2Proof.Machine.execDramPageDone ch clk errs s
  | .dramRefresh ch rank => Sys2Proof.Machine.execDramRefresh ch rank s
  | .dramTempRead ch rank temp => Sys2Proof.Machine.execDramTempRead ch rank temp s
  | .dramRetrain ch ok => Sys2Proof.Machine.execDramRetrain ch ok s
  | .rankSelfRefresh ch rank => Sys2Proof.Machine.execRankSelfRefresh ch rank s
  | .rankWake ch rank clk => Sys2Proof.Machine.execRankWake ch rank clk s
  | .hammerWindow => Sys2Proof.Machine.execHammerWindow s
  | .dramScrub => Sys2Proof.Machine.execDramScrub s
  | .rangerChainWalk => Sys2Proof.Machine.execRangerChainWalk s
  | .tallyWrite cid => Sys2Proof.Machine.execTallyWrite cid s
  | .cvWindowEnd unit => Sys2Proof.Machine.execCvWindowEnd unit s
  | .learnApply => Sys2Proof.Machine.execLearnApply s
  | .agingTick cid table => Sys2Proof.Machine.execAgingTick cid table s
  | .ageOut => Sys2Proof.Machine.execAgeOut s
  | .portDownFlush port => Sys2Proof.Machine.execPortDownFlush port s
  | .learnedFlush => Sys2Proof.Machine.execLearnedFlush s
  | .sweeperVisit bank index bad => Sys2Proof.Machine.execSweeperVisit bank index bad s
  | .parityEntryRemove uid => Sys2Proof.Machine.execParityEntryRemove uid s
  | .cutLand cid => Sys2Proof.Machine.execCutLand cid s
  | .cutRetire cid handle => Sys2Proof.Machine.execCutRetire cid handle s
  | .rangerRepair => Sys2Proof.Machine.execRangerRepair s
  | .groveMove bad => Sys2Proof.Machine.execGroveMove bad s
  | .groveScrub arr index word => Sys2Proof.Machine.execGroveScrub arr index word s
  | .imageWrite => Sys2Proof.Machine.execImageWrite s
  | .graphSwap => Sys2Proof.Machine.execGraphSwap s
  | .commandLanding => Sys2Proof.Machine.execCommandLanding s
  | .rotationChange cid => Sys2Proof.Machine.execRotationChange cid s
  | .freezeLand cid => Sys2Proof.Machine.execFreezeLand cid s
  | .thawLand cid => Sys2Proof.Machine.execThawLand cid s
  | .cmpEmpty cid => Sys2Proof.Machine.execCmpEmpty cid s
  | .modeChange target failed => Sys2Proof.Machine.execModeChange target failed s
  | .quiesced => Sys2Proof.Machine.execQuiesced s
  | .autoForwarding => Sys2Proof.Machine.execAutoForwarding s
  | .nightTrimStep => Sys2Proof.Machine.execNightTrimStep s
  | .pipelineGate pipe => Sys2Proof.Machine.execPipelineGate pipe s
  | .pipelineReady pipe => Sys2Proof.Machine.execPipelineReady pipe s
  | .linkDown port => Sys2Proof.Machine.execLinkDown port s
  | .linkUp port => Sys2Proof.Machine.execLinkUp port s
  | .preemptVerifySend port => Sys2Proof.Machine.execPreemptVerifySend port s
  | .preemptRespond port => Sys2Proof.Machine.execPreemptRespond port s
  | .opticInsert cage id cls powerMw temp minTemp => Sys2Proof.Machine.execOpticInsert cage id cls powerMw temp minTemp s
  | .opticRemove cage => Sys2Proof.Machine.execOpticRemove cage s
  | .opticPoll cage temp volt bias power flags => Sys2Proof.Machine.execOpticPoll cage temp volt bias power flags s
  | .mgmtTimeout cage => Sys2Proof.Machine.execMgmtTimeout cage s
  | .cageRetry cage ok => Sys2Proof.Machine.execCageRetry cage ok s
  | .ppsPulse src offset filtered freq => Sys2Proof.Machine.execPpsPulse src offset filtered freq s
  | .ppsMissing src => Sys2Proof.Machine.execPpsMissing src s
  | .todSentence src utc => Sys2Proof.Machine.execTodSentence src utc s
  | .ptpMessage src announce domain clockClass steps utc rateOk offset filtered freq => Sys2Proof.Machine.execPtpMessage src announce domain clockClass steps utc rateOk offset filtered freq s
  | .ptpSyncTimeout src => Sys2Proof.Machine.execPtpSyncTimeout src s
  | .ptpAnnounceTimeout src => Sys2Proof.Machine.execPtpAnnounceTimeout src s
  | .esmcMessage src ql => Sys2Proof.Machine.execEsmcMessage src ql s
  | .esmcTimeout src => Sys2Proof.Machine.execEsmcTimeout src s
  | .sourceQualify src offset => Sys2Proof.Machine.execSourceQualify src offset s
  | .timingStateChange => Sys2Proof.Machine.execTimingStateChange s
  | .holdoverLimitExpire => Sys2Proof.Machine.execHoldoverLimitExpire s
  | .detExcludedClear => Sys2Proof.Machine.execDetExcludedClear s
  | .timeHintWrite => Sys2Proof.Machine.execTimeHintWrite s
  | .ppsOut => Sys2Proof.Machine.execPpsOut s
  | .cartInsert serial idOk lifeOk hours learn => Sys2Proof.Machine.execCartInsert serial idOk lifeOk hours learn s
  | .cartWarmDone => Sys2Proof.Machine.execCartWarmDone s
  | .warmFail => Sys2Proof.Machine.execWarmFail s
  | .cartInUse => Sys2Proof.Machine.execCartInUse s
  | .cartLifeTick sigOk count => Sys2Proof.Machine.execCartLifeTick sigOk count s
  | .cartRemove noResponse => Sys2Proof.Machine.execCartRemove noResponse s
  | .cartTempRead temp => Sys2Proof.Machine.execCartTempRead temp s
  | .powerOn temp => Sys2Proof.Machine.execPowerOn temp s
  | .powerGood => Sys2Proof.Machine.execPowerGood s
  | .dipStart => Sys2Proof.Machine.execDipStart s
  | .dipEnd => Sys2Proof.Machine.execDipEnd s
  | .powerFail => Sys2Proof.Machine.execPowerFail s
  | .supplyReading kind rail nominal value pin => Sys2Proof.Machine.execSupplyReading kind rail nominal value pin s
  | .tempReading sensor zone index value => Sys2Proof.Machine.execTempReading sensor zone index value s
  | .alarmInput input closed => Sys2Proof.Machine.execAlarmInput input closed s
  | .tamper finding => Sys2Proof.Machine.execTamper finding s
  | .watchdog => Sys2Proof.Machine.execWatchdog s
  | .fenceRaise unit cause => Sys2Proof.Machine.execFenceRaise unit cause s
  | .unitReset unit => Sys2Proof.Machine.execUnitReset unit s
  | .firebreakReady unit pass => Sys2Proof.Machine.execFirebreakReady unit pass s
  | .firebreakLifted unit => Sys2Proof.Machine.execFirebreakLifted unit s
  | .deviceRestart => Sys2Proof.Machine.execDeviceRestart s
  | .halt finding addr => Sys2Proof.Machine.execHalt finding addr s
  | .faultInject => Sys2Proof.Machine.execFaultInject s
  | .functionLevelReset => Sys2Proof.Machine.execFunctionLevelReset s
  | .cmdTailWrite cid v => Sys2Proof.Machine.execCmdTailWrite cid v s
  | .rspHeadWrite cid v => Sys2Proof.Machine.execRspHeadWrite cid v s
  | .evtHeadWrite cid v => Sys2Proof.Machine.execEvtHeadWrite cid v s
  | .fetch cid => Sys2Proof.Machine.execFetch cid s
  | .armRsp cid => Sys2Proof.Machine.execArmRsp cid s
  | .armEvt cid => Sys2Proof.Machine.execArmEvt cid s
  | .mbxEnable cid => Sys2Proof.Machine.execMbxEnable cid s
  | .mbxDisable cid => Sys2Proof.Machine.execMbxDisable cid s
  | .mbxDrained cid => Sys2Proof.Machine.execMbxDrained cid s
  | .ringNowLowRead rd => Sys2Proof.Machine.execRingNowLowRead rd s
  | .registerWrite page off size v => Sys2Proof.Machine.execRegisterWrite page off size v s
  | .commandFetch cid hdr payload dmaOk => Sys2Proof.Machine.execCommandFetch cid hdr payload dmaOk s
  | .notBeforeRelease cid => Sys2Proof.Machine.execNotBeforeRelease cid s
  | .commandTimeout cid tag => Sys2Proof.Machine.execCommandTimeout cid tag s
  | .evtLost cid => Sys2Proof.Machine.execEvtLost cid s
  | .irqHoldoffExpire cid k => Sys2Proof.Machine.execIrqHoldoffExpire cid k s
  | .mbxDma cid which pcie => Sys2Proof.Machine.execMbxDma cid which pcie s
  | .identityRead q => Sys2Proof.Machine.execIdentityRead q s
  | .barrier q => Sys2Proof.Machine.execBarrier q s
  | .portCfgWrite q => Sys2Proof.Machine.execPortCfgWrite q s
  | .radioWinWrite q => Sys2Proof.Machine.execRadioWinWrite q s
  | .portReset q => Sys2Proof.Machine.execPortReset q s
  | .portRead q => Sys2Proof.Machine.execPortRead q s
  | .cageRead q => Sys2Proof.Machine.execCageRead q s
  | .timSrcWrite q => Sys2Proof.Machine.execTimSrcWrite q s
  | .timCtlWrite q => Sys2Proof.Machine.execTimCtlWrite q s
  | .timRealign q => Sys2Proof.Machine.execTimRealign q s
  | .timSrcRead q => Sys2Proof.Machine.execTimSrcRead q s
  | .baseBundleLoad q => Sys2Proof.Machine.execBaseBundleLoad q s
  | .cmpBundleLoad q => Sys2Proof.Machine.execCmpBundleLoad q s
  | .bundleList q => Sys2Proof.Machine.execBundleList q s
  | .abortFrameRead q => Sys2Proof.Machine.execAbortFrameRead q s
  | .stageOpen q => Sys2Proof.Machine.execStageOpen q s
  | .stageAbort q => Sys2Proof.Machine.execStageAbort q s
  | .cutCommit q => Sys2Proof.Machine.execCutCommit q s
  | .cutCommitSigned q => Sys2Proof.Machine.execCutCommitSigned q s
  | .listWrite q => Sys2Proof.Machine.execListWrite q s
  | .actionWrite q => Sys2Proof.Machine.execActionWrite q s
  | .actdataWrite q => Sys2Proof.Machine.execActdataWrite q s
  | .psetWrite q => Sys2Proof.Machine.execPsetWrite q s
  | .cutHdrWrite q => Sys2Proof.Machine.execCutHdrWrite q s
  | .parseWrite q => Sys2Proof.Machine.execParseWrite q s
  | .cutRead q => Sys2Proof.Machine.execCutRead q s
  | .emTblWrite q => Sys2Proof.Machine.execEmTblWrite q s
  | .emStaticWrite q => Sys2Proof.Machine.execEmStaticWrite q s
  | .emLearnWrite q => Sys2Proof.Machine.execEmLearnWrite q s
  | .emFlush q => Sys2Proof.Machine.execEmFlush q s
  | .emLookup q => Sys2Proof.Machine.execEmLookup q s
  | .trieTblWrite q => Sys2Proof.Machine.execTrieTblWrite q s
  | .trieAdd q => Sys2Proof.Machine.execTrieAdd q s
  | .trieDelete q => Sys2Proof.Machine.execTrieDelete q s
  | .trieLookup q => Sys2Proof.Machine.execTrieLookup q s
  | .grvPairWrite q => Sys2Proof.Machine.execGrvPairWrite q s
  | .grvTblWrite q => Sys2Proof.Machine.execGrvTblWrite q s
  | .grvWrite q => Sys2Proof.Machine.execGrvWrite q s
  | .grvGmaskWrite q => Sys2Proof.Machine.execGrvGmaskWrite q s
  | .grvRead q => Sys2Proof.Machine.execGrvRead q s
  | .poolCfgWrite q => Sys2Proof.Machine.execPoolCfgWrite q s
  | .lndCfgWrite q => Sys2Proof.Machine.execLndCfgWrite q s
  | .glistWrite q => Sys2Proof.Machine.execGlistWrite q s
  | .gateSwitch q => Sys2Proof.Machine.execGateSwitch q s
  | .shapeWrite q => Sys2Proof.Machine.execShapeWrite q s
  | .shareWrite q => Sys2Proof.Machine.execShareWrite q s
  | .schedRead q => Sys2Proof.Machine.execSchedRead q s
  | .spillCfgWrite q => Sys2Proof.Machine.execSpillCfgWrite q s
  | .dramCfgWrite q => Sys2Proof.Machine.execDramCfgWrite q s
  | .tallyCfgWrite q => Sys2Proof.Machine.execTallyCfgWrite q s
  | .tallyPagesWrite q => Sys2Proof.Machine.execTallyPagesWrite q s
  | .tallyRead q clk => Sys2Proof.Machine.execTallyRead q clk s
  | .cvAssign q => Sys2Proof.Machine.execCvAssign q s
  | .cvCfgWrite q => Sys2Proof.Machine.execCvCfgWrite q s
  | .cvArm q => Sys2Proof.Machine.execCvArm q s
  | .cvDisarm q => Sys2Proof.Machine.execCvDisarm q s
  | .cvRead q => Sys2Proof.Machine.execCvRead q s
  | .counterRead q => Sys2Proof.Machine.execCounterRead q s
  | .counterProgram q => Sys2Proof.Machine.execCounterProgram q s
  | .blazeCfgWrite q => Sys2Proof.Machine.execBlazeCfgWrite q s
  | .cmpDefine q => Sys2Proof.Machine.execCmpDefine q s
  | .cmpQuotaWrite q => Sys2Proof.Machine.execCmpQuotaWrite q s
  | .cmpDelete q => Sys2Proof.Machine.execCmpDelete q s
  | .cmpAttach q => Sys2Proof.Machine.execCmpAttach q s
  | .cmpDetach q => Sys2Proof.Machine.execCmpDetach q s
  | .krfRegionWrite q => Sys2Proof.Machine.execKrfRegionWrite q s
  | .cmpReset q => Sys2Proof.Machine.execCmpReset q s
  | .freeze q => Sys2Proof.Machine.execFreeze q s
  | .thaw q => Sys2Proof.Machine.execThaw q s
  | .save q => Sys2Proof.Machine.execSave q s
  | .restore q blob => Sys2Proof.Machine.execRestore q blob s
  | .cmpRead q => Sys2Proof.Machine.execCmpRead q s
  | .spdm q m => Sys2Proof.Machine.execSpdm q m s
  | .secured q => Sys2Proof.Machine.execSecured q s
  | .ownerEnrol q => Sys2Proof.Machine.execOwnerEnrol q s
  | .cutKeySet q => Sys2Proof.Machine.execCutKeySet q s
  | .keyInstall q => Sys2Proof.Machine.execKeyInstall q s
  | .keyDelete q => Sys2Proof.Machine.execKeyDelete q s
  | .keyExport q => Sys2Proof.Machine.execKeyExport q s
  | .secyAlloc q => Sys2Proof.Machine.execSecyAlloc q s
  | .secyWrite q => Sys2Proof.Machine.execSecyWrite q s
  | .rxScWrite q => Sys2Proof.Machine.execRxScWrite q s
  | .saInstall q => Sys2Proof.Machine.execSaInstall q s
  | .saSwitch q => Sys2Proof.Machine.execSaSwitch q s
  | .saDelete q => Sys2Proof.Machine.execSaDelete q s
  | .faultRead q => Sys2Proof.Machine.execFaultRead q s
  | .firebreakLift q => Sys2Proof.Machine.execFirebreakLift q s
  | .firebreakRaise q => Sys2Proof.Machine.execFirebreakRaise q s
  | .factoryMode q => Sys2Proof.Machine.execFactoryMode q s
  | .modeSet q => Sys2Proof.Machine.execModeSet q s
  | .restart q => Sys2Proof.Machine.execRestart q s
  | .configSave q => Sys2Proof.Machine.execConfigSave q s
  | .groupSleep q => Sys2Proof.Machine.execGroupSleep q s
  | .nightTrimWrite q => Sys2Proof.Machine.execNightTrimWrite q s
  | .calExport q => Sys2Proof.Machine.execCalExport q s
  | .calImport q => Sys2Proof.Machine.execCalImport q s
  | .calWrite q => Sys2Proof.Machine.execCalWrite q s
  | .pairCfgWrite q => Sys2Proof.Machine.execPairCfgWrite q s
  | .pairSwitchover q => Sys2Proof.Machine.execPairSwitchover q s
  | .pairStatusRead q => Sys2Proof.Machine.execPairStatusRead q s
  | .keyOffer via key => Sys2Proof.Machine.execKeyOffer via key s
  | .keyExchange tr => Sys2Proof.Machine.execKeyExchange tr s
  | .finish tr ok => Sys2Proof.Machine.execFinish tr ok s
  | .endSession tr => Sys2Proof.Machine.execEndSession tr s
  | .sessionTimeout tr => Sys2Proof.Machine.execSessionTimeout tr s
  | .getMeasurements tr index => Sys2Proof.Machine.execGetMeasurements tr index s
  | .getCertificate tr slot => Sys2Proof.Machine.execGetCertificate tr slot s
  | .getVersion tr => Sys2Proof.Machine.execGetVersion tr s
  | .getCapabilities tr => Sys2Proof.Machine.execGetCapabilities tr s
  | .negotiateAlgorithms tr => Sys2Proof.Machine.execNegotiateAlgorithms tr s
  | .getDigests tr => Sys2Proof.Machine.execGetDigests tr s
  | .fwLoad tr valid secVersion image => Sys2Proof.Machine.execFwLoad tr valid secVersion image s
  | .cid0PasidSet pasid => Sys2Proof.Machine.execCid0PasidSet pasid s
  | .mgmtLaent op q => Sys2Proof.Machine.execMgmtLaent op q s
  | .hello nonce id => Sys2Proof.Machine.execHello nonce id s
  | .heartbeatSend time => Sys2Proof.Machine.execHeartbeatSend time s
  | .heartbeat seq tagOk body time => Sys2Proof.Machine.execHeartbeat seq tagOk body time s
  | .heartbeatLost linkDown => Sys2Proof.Machine.execHeartbeatLost linkDown s
  | .switch seq tagOk t => Sys2Proof.Machine.execSwitch seq tagOk t s
  | .switchAck seq tagOk t => Sys2Proof.Machine.execSwitchAck seq tagOk t s
  | .switchCancel seq tagOk t => Sys2Proof.Machine.execSwitchCancel seq tagOk t s
  | .switchAckTimeout => Sys2Proof.Machine.execSwitchAckTimeout s
  | .roleSwap => Sys2Proof.Machine.execRoleSwap s
  | .noticeSend => Sys2Proof.Machine.execNoticeSend s
  | .notice seq tagOk body => Sys2Proof.Machine.execNotice seq tagOk body s
  | .freqRange src => Sys2Proof.Machine.execFreqRange src s
  | .lossOfLock unit => Sys2Proof.Machine.execLossOfLock unit s

end Sys2Proof.Machine
end

