-- ==== Sys2Proof/Machine/Views.lean ====
section
/-!
DEFINITION. What the outside can read without a command: the mailbox registers (R387 to R389), the BAR2 status window (R71,
R361, R408 to R411, R488) and the alarm contacts (R570). Each is a function of the state.
-/
namespace Sys2Proof.Machine

/-- Bit `i` set where `p i` holds, for `i` below `n`. -/
def maskOf (p : Nat → Bool) (n : Nat) : Nat := (List.range n).foldl (fun m i => m + b2n (p i) * 2 ^ i) 0

/-! ## Mailbox registers (R387 to R389) -/

/-- `STATUS.DEFINED` (R389): defined, with a PASID bound. -/
def statusDefined (s : State) (c : Nat) : Bool := (cmpOf s c).defined

/-- `STATUS` of a mailbox (R389); FAULT reads HALTED in HALTED (R405). -/
def mbxStatus (s : State) (c : Nat) : BitVec 64 :=
  let m := mbxOf s c
  let fault := if s.md.mode = .halted then 7 else m.fault
  BitVec.ofNat 64 (b2n m.enabled + 2 * b2n (session s c).isSome + 4 * b2n (cmpOf s c).frozen +
    8 * b2n (statusDefined s c) + 16 * fault)

/-- A register of a mailbox page (R387); a reserved or write-only offset reads as zero (R19). -/
def mbxRegister (s : State) (c off : Nat) : BitVec 64 :=
  let m := mbxOf s c
  match off / 8 with
  | 0 => m.cmdTail.setWidth 64
  | 1 => m.rspHead.setWidth 64
  | 2 => mbxStatus s c
  | 3 => (cmpOf s c).rotation.setWidth 64
  | 4 => BitVec.ofNat 64 s.ring
  | 5 => m.evtHead.setWidth 64
  | 7 => m.cmdHead.setWidth 64
  | 8 => m.rspTail.setWidth 64
  | 9 => m.evtTail.setWidth 64
  | 10 => m.cmdBase
  | 11 => m.rspBase
  | 12 => m.evtBase
  | 13 => mbxCfg m
  | _ => 0

/-- What a read of a mailbox page returns (R387): all ones for a malformed access; the high half of `RING_NOW` as it was
latched. -/
def mbxRead (s : State) (c off size : Nat) : BitVec 64 :=
  if (size ≠ 4 ∧ size ≠ 8) ∨ off % size ≠ 0 then BitVec.allOnes 64
  else if size = 8 then mbxRegister s c off
  else if off = 0x24 then (mbxOf s c).latch.setWidth 64
  else BitVec.ofNat 64 ((mbxRegister s c off).toNat / (if off % 8 = 4 then 2 ^ 32 else 1) % 2 ^ 32)

/-! ## BAR4: the MSI-X structures (R385, R404) -/

/-- The entry of a vector in the MSI-X table: address, data, and the mask in bit 0 of the last double word (log entry 4). -/
def msixEntry (x : Vec) : List Byte := packLE [(8, x.addr.toNat), (4, x.data.toNat), (4, b2n x.masked)]

/-- A byte of BAR4: the table from 0x0000 on, the pending bits from 0x8000 on. -/
def bar4Byte (s : State) (off : Nat) : Byte :=
  let vec (n : Nat) : Vec := vecOf s (n / 64) (n % 64)
  if off < 0x8000 then (msixEntry (vec (off / 16))).getD (off % 16) 0
  else if off < 0x8100 then BitVec.ofNat 8 (maskOf (fun i => (vec (8 * (off - 0x8000) + i)).pend) 8)
  else 0

/-! ## The BAR2 status window (R408) -/

/-- `TIMING_VALID` (R409). -/
def timingValid (s : State) : Bool := s.md.mode != .halted

/-- `MOD.STATUS` (R409). -/
def modStatus (s : State) : List Byte :=
  packLE [(8, s.md.mode.code + 8 * b2n (timingValid s) + 16 * b2n (anyFenced s)), (8, s.md.since)]

/-- The module is in a holdover state. -/
def inHoldover (s : State) : Bool := s.tim.state == .holdoverCart || s.tim.state == .holdoverTcxo

/-- `TIM.STATUS.HOLDOVER_LEFT` (R71): whole seconds left before the holdover limit. -/
def holdoverLeft (s : State) : Nat :=
  if inHoldover s then (s.tim.holdStart + holdSeconds s * 1000000 - s.ran) / 1000000 else 0

/-- A signed number in a field of `n` bytes. -/
def signedLE (n : Nat) (x : Int) : List Byte := leBytes n (BitVec.ofInt (8 * n) x).toNat

/-- `TIM.STATUS` (R71). -/
def timStatus (s : State) : List Byte :=
  let t := s.tim
  let full := t.cart.inUse && decide (28800 ≤ t.cart.learn)
  let excl := t.detExcl || t.state == .free || t.state == .acquiring
  if !timingValid s then zeros 32
  else packLE [(4, t.state.code + 8 * t.source.getD 15 + 128 * b2n (decide (s.ran < t.slewEnd)) + 256 * b2n excl +
      512 * b2n t.timeFar + 1024 * b2n full)] ++ signedLE 4 t.phaseOffset ++ packLE [(8, t.stateSince), (8, t.slewStart)] ++
    signedLE 4 t.freqOffset ++ leBytes 4 (holdoverLeft s)

/-- `TIM.CART` (R71). -/
def timCart (s : State) : List Byte :=
  let c := s.tim.cart
  if !timingValid s then zeros 16
  else packLE [(1, b2n c.present + 2 * b2n c.idValid + 4 * b2n c.warm + 8 * b2n c.inUse +
      16 * b2n (decide (55188 ≤ c.hours)) + 32 * b2n c.lifeEnd + 64 * b2n c.rejected), (1, c.reason)] ++
    signedLE 2 c.temp ++ packLE [(4, c.hours), (4, c.learn), (4, c.serial)]

/-- `DRAM.STATUS` of a channel, as the last ring boundary wrote it (R361). -/
def dramStatus (s : State) (ch : Nat) : Nat :=
  if chPresent s.variant ch then tget 0 s.dram.status (k1 ch) else 15

/-- `CAP.VARIANT` (R410). -/
def variantCode : Variant → Nat
  | .f => 0 | .m => 1 | .e => 2

/-- `CAP` (R410). -/
def capRec (s : State) : List Byte :=
  let v := s.variant
  packLE [
    (4, variantCode v + 4 * maskOf (grovePresent v) 4 + 64 * b2n (cagePresent v 52) + 128 * b2n (v != .e) +
      256 * maskOf (chPresent v) 16 + 2 ^ 24 * b2n (v != .e)),
    (2, fwVersion s), (1, 1), (1, 0), (8, maskOf (macsecPresent v) 52),
    (1, s.host.pcieRate + 16 * s.host.pcieWidth), (15, 0)]

/-- The unit epochs (R408): one byte per unit number. -/
def epochBytes (s : State) : List Byte := (List.range 256).map (fun u => BitVec.ofNat 8 (unitSt s u).epoch)

/-- `CMP.STATUS` of a compartment (R411). -/
def cmpStatus (s : State) (c : Nat) : List Byte :=
  packLE [(2, (cmpOf s c).rotation.toNat),
    (1, b2n (statusDefined s c) + 2 * b2n (cmpOf s c).frozen + 4 * b2n (mbxOf s c).enabled + 8 * b2n (session s c).isSome +
      16 * (liveCuts s c).length), (13, 0)]

/-- A record of the fault summary: detail words are zero but for a record of no compartment (R488). -/
def sumRec (r : FaultRec) : List Byte := recBytes (r.cid == 255) r

/-- The recent records: the newest record with `SEQ` modulo 62 equal to the slot (R488). -/
def sumSlot (s : State) (i : Nat) : List Byte :=
  match (s.lko.recs.take 62).find? (fun r => r.seq % 62 == i) with
  | some r => sumRec r
  | none => zeros 64

/-- The fault summary (R488). -/
def faultSummary (s : State) : List Byte :=
  let bits (p : UnitSt → Bool) : Nat := maskOf (fun u => p (unitSt s u)) 64
  packLE [(4, ((s.lko.recs.head?).map FaultRec.seq).getD 0), (4, s.lko.notes), (2, s.lko.fences),
    (2, (s.lko.log.filter (fun r => r.cls == 2)).length), (1, b2n s.lko.restartHold + 2 * b2n s.lko.factory), (3, 0),
    (8, s.lko.lastChange), (8, 0), (32, bits UnitSt.fenced), (32, bits UnitSt.ready), (32, bits UnitSt.retired)] ++
    (List.range 62).flatMap (sumSlot s)

/-- The whole window but the fault summary, as (offset, record) pairs (R408). -/
def bar2Records (s : State) : List (Nat × List Byte) :=
  [(0x0000, modStatus s), (0x0020, timStatus s), (0x0040, timCart s),
   (0x0080, (List.range 16).flatMap (fun ch => leBytes 4 (dramStatus s ch))), (0x0100, capRec s), (0x0200, epochBytes s),
   (0x0400, (List.range 32).flatMap (cmpStatus s))]

/-- A byte of the BAR2 window, as the last ring boundary wrote it; bytes not listed read as zero (R408). -/
def bar2Byte (now : State) (off : Nat) : Byte :=
  let s := atSnap now
  if 0x1000 ≤ off then (faultSummary s).getD (off - 0x1000) 0
  else
    match (bar2Records s).find? (fun r => decide (r.1 ≤ off) && decide (off < r.1 + r.2.length)) with
    | some r => r.2.getD (off - r.1) 0
    | none => 0

/-! ## Alarm contacts (R570) -/

/-- ALM0, major: open while it holds. -/
def alarmMajor (s : State) : Bool := s.md.mode == .halted || !s.pwr.on || s.lko.restartHold

/-- ALM1, minor. A HALTED or unpowered module opens every contact. -/
def alarmMinor (s : State) : Bool :=
  s.md.mode == .halted || !s.pwr.on || s.md.mode == .degraded || s.pwr.warn.any (fun e => e.2) ||
    s.link.cage.any (fun e => e.2.mgmtLost)

/-- ALM2, timing. -/
def alarmTiming (s : State) : Bool :=
  s.md.mode == .halted || !s.pwr.on || (s.pwr.lockedOnce && (s.tim.state == .free || s.tim.state == .acquiring)) ||
    s.tim.state == .holdoverTcxo || (inHoldover s && decide (holdoverLeft s < 600))

end Sys2Proof.Machine
end

