-- ==== Sys2Proof/Safety.lean ====
section
/-!
DEFINITION. What a safe state and a safe step of the block are, and the terms in which the claims speak of commands.
-/
namespace Sys2Proof

/-- A step that answers a next state. -/
def runs (s : Machine.State) : Bool :=
  match Machine.step s with
  | .next _ => true
  | _ => false

/-- The core clock lies within its ring (R22). -/
def clockOk (s : Machine.State) : Bool := decide (s.clock < 1600)

/-- A HALTED module stays HALTED until a power cycle (R498, R503). -/
def haltedStays (s t : Machine.State) : Bool := s.md.mode != .halted || !s.pwr.on || !t.pwr.on || t.md.mode == .halted

/-! ## Laent commands by opcode -/

/-- What the rows RESTORE, SPDM and TALLY_READ carry beside their request. -/
structure Extra where
  blob : Saved
  msg : Spdm
  clk : Fin 1600
  deriving DecidableEq, Repr

/-- The command of an opcode. -/
def opInstr (o : Op) (q : Req) (x : Extra) : Instr :=
  match o with
  | .identityRead => .identityRead q
  | .barrier => .barrier q
  | .portCfgWrite => .portCfgWrite q
  | .radioWinWrite => .radioWinWrite q
  | .portReset => .portReset q
  | .portRead => .portRead q
  | .cageRead => .cageRead q
  | .timSrcWrite => .timSrcWrite q
  | .timCtlWrite => .timCtlWrite q
  | .timRealign => .timRealign q
  | .timSrcRead => .timSrcRead q
  | .baseBundleLoad => .baseBundleLoad q
  | .cmpBundleLoad => .cmpBundleLoad q
  | .bundleList => .bundleList q
  | .abortFrameRead => .abortFrameRead q
  | .stageOpen => .stageOpen q
  | .stageAbort => .stageAbort q
  | .cutCommit => .cutCommit q
  | .cutCommitSigned => .cutCommitSigned q
  | .listWrite => .listWrite q
  | .actionWrite => .actionWrite q
  | .actdataWrite => .actdataWrite q
  | .psetWrite => .psetWrite q
  | .cutHdrWrite => .cutHdrWrite q
  | .parseWrite => .parseWrite q
  | .cutRead => .cutRead q
  | .emTblWrite => .emTblWrite q
  | .emStaticWrite => .emStaticWrite q
  | .emLearnWrite => .emLearnWrite q
  | .emFlush => .emFlush q
  | .emLookup => .emLookup q
  | .trieTblWrite => .trieTblWrite q
  | .trieAdd => .trieAdd q
  | .trieDelete => .trieDelete q
  | .trieLookup => .trieLookup q
  | .grvPairWrite => .grvPairWrite q
  | .grvTblWrite => .grvTblWrite q
  | .grvWrite => .grvWrite q
  | .grvGmaskWrite => .grvGmaskWrite q
  | .grvRead => .grvRead q
  | .poolCfgWrite => .poolCfgWrite q
  | .lndCfgWrite => .lndCfgWrite q
  | .glistWrite => .glistWrite q
  | .gateSwitch => .gateSwitch q
  | .shapeWrite => .shapeWrite q
  | .shareWrite => .shareWrite q
  | .schedRead => .schedRead q
  | .spillCfgWrite => .spillCfgWrite q
  | .dramCfgWrite => .dramCfgWrite q
  | .tallyCfgWrite => .tallyCfgWrite q
  | .tallyPagesWrite => .tallyPagesWrite q
  | .tallyRead => .tallyRead q x.clk
  | .cvAssign => .cvAssign q
  | .cvCfgWrite => .cvCfgWrite q
  | .cvArm => .cvArm q
  | .cvDisarm => .cvDisarm q
  | .cvRead => .cvRead q
  | .counterRead => .counterRead q
  | .counterProgram => .counterProgram q
  | .blazeCfgWrite => .blazeCfgWrite q
  | .cmpDefine => .cmpDefine q
  | .cmpQuotaWrite => .cmpQuotaWrite q
  | .cmpDelete => .cmpDelete q
  | .cmpAttach => .cmpAttach q
  | .cmpDetach => .cmpDetach q
  | .krfRegionWrite => .krfRegionWrite q
  | .cmpReset => .cmpReset q
  | .freeze => .freeze q
  | .thaw => .thaw q
  | .save => .save q
  | .restore => .restore q x.blob
  | .cmpRead => .cmpRead q
  | .spdm => .spdm q x.msg
  | .secured => .secured q
  | .ownerEnrol => .ownerEnrol q
  | .cutKeySet => .cutKeySet q
  | .keyInstall => .keyInstall q
  | .keyDelete => .keyDelete q
  | .keyExport => .keyExport q
  | .secyAlloc => .secyAlloc q
  | .secyWrite => .secyWrite q
  | .rxScWrite => .rxScWrite q
  | .saInstall => .saInstall q
  | .saSwitch => .saSwitch q
  | .saDelete => .saDelete q
  | .faultRead => .faultRead q
  | .firebreakLift => .firebreakLift q
  | .firebreakRaise => .firebreakRaise q
  | .factoryMode => .factoryMode q
  | .modeSet => .modeSet q
  | .restart => .restart q
  | .configSave => .configSave q
  | .groupSleep => .groupSleep q
  | .nightTrimWrite => .nightTrimWrite q
  | .calExport => .calExport q
  | .calImport => .calImport q
  | .calWrite => .calWrite q
  | .pairCfgWrite => .pairCfgWrite q
  | .pairSwitchover => .pairSwitchover q
  | .pairStatusRead => .pairStatusRead q

/-- The checks and the effect at validation of an opcode. -/
def lopOf (o : Op) (x : Extra) : Machine.LOp :=
  match o with
  | .identityRead => Machine.opIdentityRead
  | .barrier => Machine.opBarrier
  | .portCfgWrite => Machine.opPortCfgWrite
  | .radioWinWrite => Machine.opRadioWin
  | .portReset => Machine.opPortReset
  | .portRead => Machine.opPortRead
  | .cageRead => Machine.opCageRead
  | .timSrcWrite => Machine.opTimSrcWrite
  | .timCtlWrite => Machine.opTimCtlWrite
  | .timRealign => Machine.opTimRealign
  | .timSrcRead => Machine.opTimSrcRead
  | .baseBundleLoad => Machine.opBaseBundle
  | .cmpBundleLoad => Machine.opCmpBundle
  | .bundleList => Machine.opBundleList
  | .abortFrameRead => Machine.opAbortFrame
  | .stageOpen => Machine.opStageOpen
  | .stageAbort => Machine.opStageAbort
  | .cutCommit => Machine.opCutCommit
  | .cutCommitSigned => Machine.opCutCommitSigned
  | .listWrite => Machine.opListWrite
  | .actionWrite => Machine.opActionWrite
  | .actdataWrite => Machine.opActdataWrite
  | .psetWrite => Machine.opPsetWrite
  | .cutHdrWrite => Machine.opCutHdrWrite
  | .parseWrite => Machine.opParseWrite
  | .cutRead => Machine.opCutRead
  | .emTblWrite => Machine.opEmTblWrite
  | .emStaticWrite => Machine.opEmStaticWrite
  | .emLearnWrite => Machine.opEmLearnWrite
  | .emFlush => Machine.opEmFlush
  | .emLookup => Machine.opEmLookup
  | .trieTblWrite => Machine.opTrieTblWrite
  | .trieAdd => Machine.opTrieAdd
  | .trieDelete => Machine.opTrieDelete
  | .trieLookup => Machine.opTrieLookup
  | .grvPairWrite => Machine.opGrvPairWrite
  | .grvTblWrite => Machine.opGrvTblWrite
  | .grvWrite => Machine.opGrvWrite
  | .grvGmaskWrite => Machine.opGrvGmaskWrite
  | .grvRead => Machine.opGrvRead
  | .poolCfgWrite => Machine.opPoolCfgWrite
  | .lndCfgWrite => Machine.opLndCfgWrite
  | .glistWrite => Machine.opGlistWrite
  | .gateSwitch => Machine.opGateSwitch
  | .shapeWrite => Machine.opShapeWrite
  | .shareWrite => Machine.opShareWrite
  | .schedRead => Machine.opSchedRead
  | .spillCfgWrite => Machine.opSpillCfgWrite
  | .dramCfgWrite => Machine.opDramCfgWrite
  | .tallyCfgWrite => Machine.opTallyCfgWrite
  | .tallyPagesWrite => Machine.opTallyPagesWrite
  | .tallyRead => Machine.opTallyRead
  | .cvAssign => Machine.opCvAssign
  | .cvCfgWrite => Machine.opCvCfgWrite
  | .cvArm => Machine.opCvArm
  | .cvDisarm => Machine.opCvDisarm
  | .cvRead => Machine.opCvRead
  | .counterRead => Machine.opCounterRead
  | .counterProgram => Machine.opCounterProgram
  | .blazeCfgWrite => Machine.opBlazeCfgWrite
  | .cmpDefine => Machine.opCmpDefine
  | .cmpQuotaWrite => Machine.opCmpQuota
  | .cmpDelete => Machine.opCmpDelete
  | .cmpAttach => Machine.opCmpAttach
  | .cmpDetach => Machine.opCmpDetach
  | .krfRegionWrite => Machine.opKrfRegion
  | .cmpReset => Machine.opCmpReset
  | .freeze => Machine.opFreeze
  | .thaw => Machine.opThaw
  | .save => Machine.opSave
  | .restore => Machine.opRestore x.blob
  | .cmpRead => Machine.opCmpRead
  | .spdm => Machine.opSpdm x.msg
  | .secured => Machine.opSecured
  | .ownerEnrol => Machine.opOwnerEnrol
  | .cutKeySet => Machine.opCutKeySet
  | .keyInstall => Machine.opKeyInstall
  | .keyDelete => Machine.opKeyDelete
  | .keyExport => Machine.opKeyExport
  | .secyAlloc => Machine.opSecyAlloc
  | .secyWrite => Machine.opSecyWrite
  | .rxScWrite => Machine.opRxScWrite
  | .saInstall => Machine.opSaInstall
  | .saSwitch => Machine.opSaSwitch
  | .saDelete => Machine.opSaDelete
  | .faultRead => Machine.opFaultRead
  | .firebreakLift => Machine.opFirebreakLift
  | .firebreakRaise => Machine.opFirebreakRaise
  | .factoryMode => Machine.opFactoryMode
  | .modeSet => Machine.opModeSet
  | .restart => Machine.opRestart
  | .configSave => Machine.opConfigSave
  | .groupSleep => Machine.opGroupSleep
  | .nightTrimWrite => Machine.opNightTrim
  | .calExport => Machine.opCalExport
  | .calImport => Machine.opCalImport
  | .calWrite => Machine.opCalWrite
  | .pairCfgWrite => Machine.opPairCfg
  | .pairSwitchover => Machine.opPairSwitch
  | .pairStatusRead => Machine.opPairStatus

/-- The opcodes whose command the common machinery carries out: all but BARRIER, GRV_WRITE, TALLY_READ and SECURED, which have
an order of their own. -/
def commonOp (o : Op) : Bool := o != .barrier && o != .grvWrite && o != .tallyRead && o != .secured

/-- The opcodes that find every grove write of their compartment carried out (R209). -/
def afterMoves (o : Op) : Bool :=
  o == .stageAbort || o == .cutCommit || o == .cutCommitSigned || o == .grvTblWrite || o == .grvGmaskWrite || o == .grvRead

/-- The state in which a command is checked. -/
def checkState (o : Op) (q : Req) (s : Machine.State) : Machine.State :=
  if afterMoves o && Machine.served s q then Machine.finishJobs q.c s else s

/-- The command passes every check of R398 and R417, and no epoch moved under it (R407). -/
def passes (o : Op) (q : Req) (x : Extra) (s : Machine.State) : Prop :=
  Machine.admission (lopOf o x) (Machine.vOf s q o) s q = .ok ∧
    Machine.epochMoved ((lopOf o x).units s q) (Machine.vOf s q o) s = none

/-! ## Fault records -/

/-- A NOTE of the present ring stands in the record store (R481, R486). -/
def noted (s : Machine.State) (unit code cid : Nat) : Bool :=
  s.lko.recs.any (fun r => r.cls == 0 && r.unit == unit && r.code == code && r.cid == cid && r.ring == s.ring)

/-- A record of the present ring with a class stands in the record store (R481, R486). -/
def recorded (s : Machine.State) (cls unit code cid : Nat) : Bool :=
  s.lko.recs.any (fun r => r.cls == cls && r.unit == unit && r.code == code && r.cid == cid && r.ring == s.ring)

/-! ## Power and HALTED -/

/-- The rows of the power supply and its inputs, which alone act on a module that is HALTED or without power (R498, R557 to
R563). -/
def powerRow : Instr → Bool
  | .powerOn _ | .powerGood | .powerFail | .dipStart | .dipEnd => true
  | .supplyReading _ _ _ _ _ => true
  | .tempReading _ _ _ _ => true
  | _ => false

/-- What HALTED leaves (R497): the mode, no key, no session, and the ports' outputs squelched. -/
def haltedInv (s : Machine.State) : Prop :=
  s.md.mode = .halted ∧ s.trust.sess = [] ∧ s.trust.cutKey = [] ∧ s.link.squelched = true ∧
    (∀ e ∈ s.trust.keys, e.2.owner = none)

/-- What an SPDM request leaves on a transport: the reply of the management port (transport 32) is kept, none is an SPDM ERROR;
that of a mailbox travels as response data. -/
def replied (tr : Nat) (r : Option (List Byte)) (t : Machine.State) : Machine.State :=
  if tr = 32 then
    { t with host := { t.host with mgmtReply := some { rsp :=
        { status := if r.isSome then .ok else .denied, data := Machine.spdmBytes r } } } }
  else t

end Sys2Proof
end

