-- ==== Sys2Proof/Certificates/Slice0/Obligations.lean ====
section
/-!
DEFINITION. The statements for the provers: what the commands of the block do, by the numbered rules of the spec. A row that
takes no operand of a caller's choosing is stated for every state that its rule names.
-/
open Sys2Proof Sys2Proof.Machine

/-! ## The queue, the commands and reset -/

/-- The command at the front of the queue is carried out with the queue's rest, and an empty queue idles (the model's own
frame, log entry 1). -/
def Obligations.StepRunsTheFront : Prop :=
  (∀ (c : Instr) (rest : List Instr) (s : State), s.pending = c :: rest → step s = exec c { s with pending := rest }) ∧
    ∀ s : State, s.pending = [] → step s = .next s

/-- Every command of the table answers a next state, whatever its operands and the state: the spec gives every row an
effect. -/
def Obligations.EveryCommandAnswers : Prop :=
  ∀ (i : Instr) (s : State), ∃ t, exec i s = .next t

/-- What a power cycle leaves (R510, R513): SEALED, timing FREE, no command waiting, every mailbox out of service with the
values of R388, every vector armed (R404), no unit fenced and every unit epoch 0 (R407), every rotation 0, and the records
at the reset and factory values of their tables: `TIM.CTL` (R72), `LND.CFG` (R294), `SPILL.CFG` (R317), `DRAM.CFG` (R360),
`CV.CFG` (R380) and `BLZ.CFG` (R530). -/
def Obligations.ResetValues : Prop :=
  let s := State.reset
  s.md.mode = .sealed ∧ s.tim.state = .free ∧ s.pending = [] ∧ s.items = [] ∧
  (∀ c, (mbxOf s c).enabled = false ∧ (mbxOf s c).enable = false ∧ (mbxOf s c).timeout = 1000000 ∧
    (mbxOf s c).holdoff = 0 ∧ (mbxOf s c).cmdHead = 0 ∧ (mbxOf s c).cmdTail = 0) ∧
  (∀ c k, (vecOf s c k).armed = true) ∧
  (∀ u, (unitSt s u).fenced = false ∧ (unitSt s u).epoch = 0) ∧
  (∀ c, (cmpOf s c).rotation = 0) ∧
  (fld s.tim.ctl 1 1 = 1 ∧ fld s.tim.ctl 31 16 = 100 ∧ fld s.tim.ctl 63 32 = 0 ∧ fld s.tim.ctl 71 64 = 37) ∧
  (fld s.lnd.cfg 12 0 = 64 ∧ fld s.lnd.cfg 26 16 = 320) ∧
  (fld s.buf.spill 24 0 = 33292288 ∧ fld s.buf.spill 48 25 = 8388608 ∧ fld s.buf.spill 55 49 = 64) ∧
  (fld s.dram.cfg 0 0 = 1 ∧ fld s.dram.cfg 20 1 = 10000 ∧ fld s.dram.cfg 21 21 = 1 ∧ fld s.dram.cfg 35 22 = 4096) ∧
  (∀ u, fld (cvOf s u).cfg 1 0 = 0 ∧ fld (cvOf s u).cfg 15 8 = 255 ∧ fld (cvOf s u).cfg 25 19 = 32 ∧
    fld (cvOf s u).cfg 53 40 = 9216 ∧ fld (cvOf s u).cfg 255 64 = 0 ∧ (cvOf s u).armed = false) ∧
  (fld s.ctr.blz 63 0 = 0 ∧ fld s.ctr.blz 80 64 = 1 ∧ fld s.ctr.blz 81 81 = 0 ∧ fld s.ctr.blz 93 83 = 0)

/-! ## Laent commands (R398, R413 to R423) -/

/-- Effect code T (R416): a command that passes its checks is answered ACCEPTED with `RING` = T, its effect waits for the
boundary of T, and nothing else changes. It covers PORT_CFG_WRITE, RADIO_WIN_WRITE, PORT_RESET, TIM_SRC_WRITE, TIM_CTL_WRITE,
BASE_BUNDLE_LOAD, CMP_BUNDLE_LOAD, EM_FLUSH, POOL_CFG_WRITE, LND_CFG_WRITE, GATE_SWITCH, SHAPE_WRITE, SHARE_WRITE,
SPILL_CFG_WRITE, DRAM_CFG_WRITE, TALLY_CFG_WRITE, CV_ARM, COUNTER_PROGRAM, BLAZE_CFG_WRITE, CMP_ATTACH, CMP_DETACH, CMP_RESET,
FREEZE, THAW, SECY_WRITE, SA_SWITCH, FIREBREAK_LIFT, FIREBREAK_RAISE, MODE_SET, GROUP_SLEEP, NIGHT_TRIM_WRITE and
PAIR_CFG_WRITE; the three T commands that fix something at acceptance have statements of their own. -/
def Obligations.LaentAccepted : Prop :=
  ∀ (o : Op) (q : Req) (x : Extra) (s : State),
    opEff o = .target → o ≠ .cutCommit → o ≠ .cutCommitSigned → o ≠ .pairSwitchover →
    served s q = true → passes o q x s →
    exec (opInstr o q x) s = .next (answer o q (vOf s q o) s
      { st := { s with items := s.items ++ [{ due := q.t, v := vOf s q o, op := o, req := q }] },
        status := .accepted, ring := q.t })

/-- Effect code "next" (R416): a command that passes its checks waits for the first boundary after v, where its effect is
made and its response follows; until then nothing of the state changes but the waiting command, which takes with it the
SECURED command that carries it (R399). It covers TIM_REALIGN, EM_LOOKUP, TRIE_LOOKUP, GRV_PAIR_WRITE, TALLY_PAGES_WRITE,
CV_ASSIGN, CMP_DEFINE, CMP_QUOTA_WRITE, CMP_DELETE, KRF_REGION_WRITE, SAVE, RESTORE, OWNER_ENROL, CUT_KEY_SET, SECY_ALLOC,
RX_SC_WRITE, SA_INSTALL, FACTORY_MODE, CAL_IMPORT and CAL_WRITE. -/
def Obligations.LaentNext : Prop :=
  ∀ (o : Op) (q : Req) (x : Extra) (s : State),
    opEff o = .next → served s q = true → passes o q x s →
    exec (opInstr o q x) s = .next { (takeSec q s).2 with
      items := (takeSec q s).2.items ++
        [{ due := vOf s q o + 1, v := vOf s q o, op := o, req := q, rsp := true, sec := (takeSec q s).1,
           blob := if o = .restore then some x.blob else none }] }

/-- Effect codes "now" and "stage" (R416): a command that passes its checks, and whose data fit its buffer (R420), has its
effect in ring v and answers at once with what the effect gives. It covers the 43 rows of those two codes but BARRIER,
GRV_WRITE, TALLY_READ and SECURED, which have statements of their own. -/
def Obligations.LaentNow : Prop :=
  ∀ (o : Op) (q : Req) (x : Extra) (s : State),
    (opEff o = .now ∨ opEff o = .stage) → commonOp o = true →
    let u := checkState o q s
    served u q = true → passes o q x u → ((lopOf o x).eval u q).data.length ≤ q.outLen.toNat →
    exec (opInstr o q x) s = .next (answer o q (vOf u q o) u ((lopOf o x).eval u q))

/-- A refusal has no effect (R400, R417): a command whose checks end in a status other than OK and FENCED is answered with
that status, with `COUNT`, `RING`, `VALUE` and `AUX` zero, and changes nothing else. A command that cannot be served has no effect at all (R405, R421, R496): in HALTED, without power, after a restart has
stopped the mailboxes. It holds of every row that carries a Laent command. -/
def Obligations.LaentRefused : Prop :=
  (∀ (o : Op) (q : Req) (x : Extra) (s : State) (st : Status),
     commonOp o = true →
     let u := checkState o q s
     served u q = true → admission (lopOf o x) (vOf u q o) u q = st → st ≠ .ok → st ≠ .fenced →
     exec (opInstr o q x) s = .next (answer o q (vOf u q o) u { st := u, status := st })) ∧
  (∀ (o : Op) (q : Req) (x : Extra) (s : State), served s q = false → exec (opInstr o q x) s = .next s)

/-- CUT_COMMIT and CUT_COMMIT_SIGNED (R147): a commit that passes its checks takes what it fixes at acceptance, is answered
ACCEPTED with `RING` = T, and its landing waits. PAIR_SWITCHOVER (R548): an accepted switchover sends SWITCH with T to the peer and stands pending until T. -/
def Obligations.CommitAndSwitchoverAccepted : Prop :=
  (∀ (o : Op) (q : Req) (x : Extra) (s : State),
     (o = .cutCommit ∨ o = .cutCommitSigned) →
     let u := checkState o q s
     served u q = true → passes o q x u →
     let a := commitNow (o == .cutCommitSigned) u q
     a.status = .ok →
     exec (opInstr o q x) s = .next (answer o q (vOf u q o) u
       { a with status := .accepted, ring := q.t,
                st := { a.st with items := a.st.items ++
                  [{ due := q.t, v := vOf u q o, op := o, req := q, num := a.value, blob := a.blob }] } })) ∧
  (∀ (q : Req) (x : Extra) (s : State), served s q = true → passes .pairSwitchover q x s →
     let t := pairSend 3 (leBytes 8 q.t) { s with pair := { s.pair with pend := some (q.t, true, false) } }
     exec (.pairSwitchover q) s = .next (answer .pairSwitchover q (vOf s q .pairSwitchover) s
       { st := { t with items := t.items ++ [{ due := q.t, v := vOf s q .pairSwitchover, op := .pairSwitchover, req := q }] },
         status := .accepted, ring := q.t }))

/-- BARRIER (R425): it is answered at once where every earlier command of the compartment has its response and its wait
rings have passed, with v in `RING` (R416), and waits otherwise, taking with it the SECURED command that carries it (R399). SECURED (R399): a message that authenticates under the open session counts as the session's last message. A command inside
it that passes the checks of R398 is awaited, or held for its `NOT_BEFORE`; one that fails them has no effect but its
answer. Secured messages are taken in count order (R399): one that is not the next of its session, or that arrives before the
command of the last one, has no effect. GRV_WRITE (R203, R209): an add or a replace that passes its checks joins the writes that wait for the move engine; a
delete is made at once and answered. TALLY_READ (R372, R373): a read that passes its checks begins at max(start, OLDEST), is to deliver min(count, NEXT − that start)
records, and joins its compartment's stream; OLDEST and NEXT are those of the boundary of ring v (R420). Where no earlier read of the
compartment stands and the ring has neither been emptied nor been overwritten there since the boundary, one with nothing to deliver is
answered at once with `COUNT` 0, first sequence number, OLDEST and NEXT; one with something to deliver waits, on a module with DRAM, for the
records of its first page, of the version that R370 gives, and nothing else happens. `x.clk` is the clock of the row. -/
def Obligations.BarrierSecuredGroveWrite : Prop :=
  (∀ (q : Req) (x : Extra) (s : State), served s q = true →
     let v := vOf s q .barrier
     admission (lopOf .barrier x) v s q = .ok →
     (barrierDone s q v = true →
       exec (.barrier q) s = .next (answer .barrier q v s { st := s, ring := v })) ∧
     (barrierDone s q v = false →
       exec (.barrier q) s = .next { (takeSec q s).2 with
         items := (takeSec q s).2.items ++
           [{ due := v + q.arg1.toNat, v := v, op := .barrier, req := q, rsp := true, sec := (takeSec q s).1 }] })) ∧
  (∀ (q : Req) (x : Extra) (s : State), served s q = true →
     let u := modMbx q.c (fun m => { m with reads := beginSecured m.reads }) (finishJobs q.c s)
     ((nextSecured s q = false ∨ (mbxOf s q.c).secOpen.isSome = true) → exec (.secured q) s = .next s) ∧
     (nextSecured s q = true → (mbxOf s q.c).secOpen = none →
     admission (lopOf .secured x) (vOf u q .secured) u q = .ok →
     let so : SecOpen := { tag := q.tag, outAddr := q.outAddr, outLen := q.outLen.toNat,
                           sess := ((session u q.c).map Sess.ems).getD 0 }
     let st := innerCheck u q
     (st = .ok → leAt q.payload 16 8 ≤ u.ring →
       exec (.secured q) s = .next (modMbx q.c (fun m => { m with secOpen := some so }) (sessMsg q.c u))) ∧
     (st = .ok → u.ring < leAt q.payload 16 8 →
       exec (.secured q) s = .next (holdInner q so (sessMsg q.c u))) ∧
     (st ≠ .ok →
       exec (.secured q) s = .next (sealAnswer q.c so (vOf u q .secured) (innerRefusal q st) none (sessMsg q.c u) (sessMsg q.c u))))) ∧
  (∀ (q : Req) (x : Extra) (s : State), served s q = true →
     let u := finishJobs q.c s
     served u q = true → passes .grvWrite q x u →
     ((grvWrOf u q).op ≠ 2 →
       exec (.grvWrite q) s = .next { (takeSec q u).2 with grv := { (takeSec q u).2.grv with
         jobs := (takeSec q u).2.grv.jobs ++ [{ req := q, v := vOf u q .grvWrite, sec := (takeSec q u).1 }] } }) ∧
     ((grvWrOf u q).op = 2 → ((lopOf .grvWrite x).now u q).data.length ≤ q.outLen.toNat →
       exec (.grvWrite q) s = .next (answer .grvWrite q (vOf u q .grvWrite) u ((lopOf .grvWrite x).now u q)))) ∧
  (∀ (q : Req) (x : Extra) (s : State), served s q = true →
     let v := vOf s q .tallyRead
     admission (lopOf .tallyRead x) v s q = .ok →
     let t := tlyOf (atSnap s) q.c
     let t' := tlyOf s q.c
     let first := max q.t (tlyOldest t)
     let sec := (takeSec q s).1
     let u := { (takeSec q s).2 with clock := x.clk.val }
     let j : TlyRead := { req := q, v := v, sec := sec, first := first, pos := first,
                          stop := first + min (q.a1 12 0) (t.next - first), oldest := tlyOldest t, next := t.next }
     let w : State := { u with cap := { u.cap with reads := u.cap.reads ++ [j] } }
     exec (.tallyRead q x.clk) s = .next (readOn q.c (readFuel w) w) ∧
     ((∀ i ∈ s.cap.reads, i.req.c ≠ q.c) → (∀ r ∈ s.dram.reqs, ¬ (r.cls = 3 ∧ r.cid = q.c)) →
       tlyOldest t' ≤ first → t.next ≤ t'.next →
       (t.next ≤ first →
         exec (.tallyRead q x.clk) s = .next (answerLater .tallyRead q v sec u
           { st := u, ring := v, data := packLE [(8, first), (8, 0), (8, tlyOldest t), (8, t.next)] })) ∧
       (first < t.next → s.variant ≠ .e → first ∉ t'.lost →
         ∃ run : List Nat, run.head? = some first ∧
           let r : DReq := { cls := 3, page := tlyPage t' first, cid := q.c, write := false, slots := run.map (· % 16),
                             ver := first / (tlyPages t' * 16) % 65536, data := run.map (recAt t') }
           exec (.tallyRead q x.clk) s = .next (enqueueReq r w))))

/-! ## What Laent commands answer and do in ring v -/

/-- A read (R420) changes nothing but its response: IDENTITY_READ, PORT_READ, CAGE_READ, TIM_SRC_READ, BUNDLE_LIST,
ABORT_FRAME_READ, CUT_READ, SCHED_READ, CV_READ, CMP_READ, FAULT_READ, CAL_EXPORT and PAIR_STATUS_READ answer OK with the
present boundary in `RING`, and the state that the response is written into is the state before. GRV_READ does so after the
grove writes of its compartment that still wait. -/
def Obligations.LaentReads : Prop :=
  ∀ (o : Op) (q : Req) (x : Extra) (s : State),
    o ∈ [Op.identityRead, .portRead, .cageRead, .timSrcRead, .bundleList, .abortFrameRead, .cutRead, .schedRead, .cvRead,
         .cmpRead, .faultRead, .calExport, .pairStatusRead, .grvRead] →
    let u := checkState o q s
    served u q = true → passes o q x u → ((lopOf o x).eval u q).data.length ≤ q.outLen.toNat →
    ∃ a : Ans, a.st = u ∧ a.status = .ok ∧ a.ring = u.ring ∧ a.aux = 0 ∧ a.data = ((lopOf o x).now (atSnap u) q).data ∧ exec (opInstr o q x) s = .next (answer o q (vOf u q o) u a)

/-- The effects in ring v of commands of code "now", each with its answer: CV_CFG_WRITE (R380), CV_DISARM (R382), KEY_DELETE
(R470, R474: an association that names the key never comes into use again), SA_DELETE (R432), RESTART (R433: no later command is answered; a mailbox that takes no
response restarts the device 16 rings on at once, and otherwise `ResponseWritten` says when), STAGE_OPEN
(R145: a copy of the newest live cut, or an empty first cut) and STAGE_ABORT (R145). -/
def Obligations.LaentNowEffects : Prop :=
  ∀ (q : Req) (x : Extra) (s : State), served s q = true →
    (passes .cvCfgWrite q x s →
      exec (.cvCfgWrite q) s = .next (answer .cvCfgWrite q (vOf s q .cvCfgWrite) s
        { st := modCv q.arg1.toNat (fun c => { c with cfg := setFld (BitVec.ofNat 256 (leNat q.payload)) 63 54 0 }) s,
          ring := s.ring })) ∧
    (passes .cvDisarm q x s →
      exec (.cvDisarm q) s = .next (answer .cvDisarm q (vOf s q .cvDisarm) s
        { st := modCv q.arg1.toNat (fun c => { c with armed := false, done := false }) s, ring := s.ring })) ∧
    (passes .keyDelete q x s →
      exec (.keyDelete q) s = .next (answer .keyDelete q (vOf s q .keyDelete) s
        { st := setKeySlot (handleSlot q.arg1.toNat) (freedSlot (keySlot s (handleSlot q.arg1.toNat)))
                  (killSas q.c q.arg1.toNat s), ring := s.ring })) ∧
    (passes .saDelete q x s →
      exec (.saDelete q) s = .next (answer .saDelete q (vOf s q .saDelete) s
        { st := modSecy (qPort q) (qSecy q) (fun y => { y with sas := y.sas.filter (fun a => !delSa q a) }) s,
          ring := s.ring })) ∧
    (passes .restart q x s →
      let u := { s with host := { s.host with closing := true } }
      exec (.restart q) s = .next (answer .restart q (vOf s q .restart) s
        { st := if rspOpen u q.c then u else restartBy (restartRing u) u, ring := s.ring })) ∧
    (passes .stageOpen q x s →
      ∃ a d, exec (.stageOpen q) s = .next (answer .stageOpen q (vOf s q .stageOpen) s
          { st := setStage q.c (some a) s, ring := s.ring, value := a.num }) ∧
        a.num = ((newestCut s q.c).map Cut.number).getD 0 + 1 ∧ a.body = ((newestCut s q.c).map Cut.body).getD {} ∧
        a.digest = Config.sha384 d) ∧
    (let u := finishJobs q.c s
     served u q = true → passes .stageAbort q x u →
      exec (.stageAbort q) s = .next (answer .stageAbort q (vOf u q .stageAbort) u { st := dropStage q.c u, ring := u.ring }))

/-- Records of a batch write (R419): they are applied in payload order, the first that is refused ends the command with its
status, those before it stay applied, and `COUNT` gives their number. -/
def Obligations.RecordsInOrder : Prop :=
  ∀ (op : Op) (q : Req) (form : Req → Nat → List Byte → Status) (f : StageFn) (l : List (List Byte)) (n : Nat) (s : State),
    let r := applyRecs op q form f l n s
    n ≤ r.2.1 ∧ applyRecs op q form f (l.take (r.2.1 - n)) n s = (.ok, r.2.1, r.2.2) ∧
    (r.1 = .ok → r.2.1 = n + l.length) ∧
    (r.1 ≠ .ok → ∃ x, l[r.2.1 - n]? = some x ∧
      (form q r.2.1 x = r.1 ∨ (form q r.2.1 x = .ok ∧ (f q r.2.1 x r.2.2).1 = r.1)))

/-- The rights of R415: A admits every sender, M CID 0, S an inner command, M/S CID 0 or the owner's inner command on its own
compartment; whoever is not admitted is refused with DENIED at step 9, before the mode, the units and the arguments. -/
def Obligations.RightsDenied : Prop :=
  (∀ q : Req, rightsOk .any q = true ∧ (rightsOk .manager q = true ↔ q.cid = 0) ∧ (rightsOk .owner q = true ↔ q.inner = true) ∧
    (rightsOk .managerOrOwner q = true ↔ q.cid = 0 ∨ (q.inner = true ∧ fld q.arg1 4 0 = q.cid.val))) ∧
  ∀ (o : Op) (q : Req) (x : Extra) (s : State),
    commonOp o = true →
    let u := checkState o q s
    served u q = true → payPresence (opPay o) q.payload.length = .ok → q.rotation = (cmpOf u q.c).rotation →
    rightsOk (opRights o) q = false →
    exec (opInstr o q x) s = .next (answer o q (vOf u q o) u { st := u, status := .denied })

/-- R421, with the steps before and after it: in HALTED no command is served; in SEALED every opcode but 0x0101, 0x0102,
0x0E00, 0x0E01, 0x0E02, 0x0F01 and 0x1001 is refused with BUSY at step 10, and those are not; in the other modes every opcode
passes step 10, and its state preconditions still decide at step 15. -/
def Obligations.ModeAdmits : Prop :=
  (∀ (o : Op) (q : Req) (x : Extra) (s : State), s.md.mode = .halted → exec (opInstr o q x) s = .next s) ∧
  (∀ o : Op, (opInfo o).inSealed = true ↔ opCode o ∈ [0x0101, 0x0102, 0x0E00, 0x0E01, 0x0E02, 0x0F01, 0x1001]) ∧
  ∀ (o : Op) (q : Req) (x : Extra) (s : State) (v : Nat),
    payPresence (opPay o) q.payload.length = .ok → q.rotation = (cmpOf s q.c).rotation → rightsOk (opRights o) q = true →
    (lopOf o x).owns s q = true →
    (s.md.mode = .sealed → (opInfo o).inSealed = false → admission (lopOf o x) v s q = .busy) ∧
    ((s.md.mode ≠ .sealed ∨ (opInfo o).inSealed = true) →
      ((lopOf o x).present s q = false → admission (lopOf o x) v s q = .absent) ∧
      ((lopOf o x).present s q = true → ((lopOf o x).units s q).all (fun u => !isFenced s u) = false →
        admission (lopOf o x) v s q = .fenced) ∧
      ((lopOf o x).present s q = true → ((lopOf o x).units s q).all (fun u => !isFenced s u) = true →
        (lopOf o x).ownOrder = false → argForm o q = .ok → paySize (opPay o) q.payload.length = .ok →
        (lopOf o x).args s q = .ok → (opEff o = .target → tCheck v q.t = .ok) →
        admission (lopOf o x) v s q = (lopOf o x).pre s q))

/-- The target ring (R416): for every command marked T whose checks keep the common order and whose earlier checks pass, a
ring nearer than v + 16 is refused with LATE_RING and one farther than v + 100,000,000 with RANGE. -/
def Obligations.TargetRing : Prop :=
  ∀ (o : Op) (q : Req) (x : Extra) (s : State) (v : Nat),
    opEff o = .target → (lopOf o x).ownOrder = false → payPresence (opPay o) q.payload.length = .ok →
    q.rotation = (cmpOf s q.c).rotation → rightsOk (opRights o) q = true → (lopOf o x).owns s q = true → s.md.mode ≠ .sealed →
    (lopOf o x).present s q = true → ((lopOf o x).units s q).all (fun u => !isFenced s u) = true →
    argForm o q = .ok → paySize (opPay o) q.payload.length = .ok → (lopOf o x).args s q = .ok →
    (q.t < v + 16 → admission (lopOf o x) v s q = .lateRing) ∧
    (v + 100000000 < q.t → admission (lopOf o x) v s q = .range) ∧
    (v + 16 ≤ q.t → q.t ≤ v + 100000000 → admission (lopOf o x) v s q = (lopOf o x).pre s q)

/-! ## Responses (R394, R400) -/

/-- A response that may be written stands in the slot that the tail names, with the compartment's rotation, laid out with its CRC-32C
(R395, R397), sent with the compartment's PASID to base + 64·slot (R386, R390), and the tail advances by one (R394); no other slot and no
other mailbox changes. Where it is the response of a RESTART, or carries it, the device restart is due 16 rings on, and where no restart is
due earlier that is its ring (R433). -/
def Obligations.ResponseWritten : Prop :=
  ∀ (c : Nat) (sl : Slot) (s : State),
    let t := writeRsp c sl s
    let n := (mbxOf s c).rspTail.toNat % 4096
    let k := k2 c n
    let r := { sl.rsp with rotation := (cmpOf s c).rotation }
    (mbxOf t c) = { mbxOf s c with rspTail := (mbxOf s c).rspTail + 1 } ∧
    tget {} t.host.rspSlots k = { sl with
      rsp := r, bytes := rspHeader c r, dataDma := dataDma s c r, dma := { pasid := (cmpOf s c).pasid, addr := (mbxOf s c).rspBase + BitVec.ofNat 64 (64 * n) } } ∧
    (∀ j, j ≠ k → tget {} t.host.rspSlots j = tget {} s.host.rspSlots j) ∧ (∀ d, d ≠ c → mbxOf t d = mbxOf s d) ∧
    t.lko.restartAt = if isRestart { sl with rsp := r } then
        some (min (s.lko.restartAt.getD (restartRing s)) (restartRing s)) else s.lko.restartAt

/-- Responses are written in command order (R400): among commands none of which is long, exactly those are written, in order,
that stand before the first command without an answer; the others stay as they stood. A long command neither waits nor holds
one back: where every command is long, every answer is written. -/
def Obligations.ResponseOrder : Prop :=
  ∀ l : List ReadEnt,
    ((∀ e ∈ l, e.long = false) →
      readyRsp false l = ((l.takeWhile (fun e => e.ans.isSome)).filterMap ReadEnt.ans, l.dropWhile (fun e => e.ans.isSome))) ∧
    ((∀ e ∈ l, e.long = true) → ∀ b, readyRsp b l = (l.filterMap ReadEnt.ans, l.filter (fun e => e.ans.isNone)))

/-! ## Mailboxes (R387 to R406) -/

/-- Doorbells and consumer registers: a CMD_TAIL value within 4,096 of `CMD_HEAD` that does not move the tail back is taken
(R391); an RSP_HEAD or EVT_HEAD value that does not pass its tail is taken (R392), and EVT_LOST is written first when space
returns (R401); FETCH asks for the commands up to the tail (R393); each changes that mailbox alone. Values that these registers refuse (R391, R392), and the reading that waits for the doorbell (R391) or for room (R392): a CMD_TAIL
value out of range or behind the tail is ignored, counted in `MBX.TAIL_BAD`, sets `STATUS.FAULT` to TAIL_BAD (1) and posts a NOTE; a
head past its tail is ignored and counted; no command is read past the tail that the last doorbell saw, and none while the
commands read and not answered and the responses not consumed are 4,096. -/
def Obligations.MailboxDoorbells : Prop :=
  (∀ (s : State) (c : Fin 32) (v : BitVec 32), halted s = false →
     let m := mbxOf s c
     (span v m.cmdHead ≤ 4096 → span m.cmdTail m.cmdHead ≤ span v m.cmdHead →
       exec (.cmdTailWrite c v) s = .next (modMbx c (fun m => { m with cmdTail := v }) s)) ∧
     (span v m.rspHead ≤ span m.rspTail m.rspHead →
       exec (.rspHeadWrite c v) s = .next (modMbx c (fun m => { m with rspHead := v }) s)) ∧
     (span v m.evtHead ≤ span m.evtTail m.evtHead →
       exec (.evtHeadWrite c v) s = .next (flushLost c (modMbx c (fun m => { m with evtHead := v }) s)) ∧
       (m.lost = 0 → exec (.evtHeadWrite c v) s = .next (modMbx c (fun m => { m with evtHead := v }) s))) ∧
     exec (.fetch c) s = .next (modMbx c (fun m => { m with fetchTo := m.cmdTail }) s)) ∧
  (∀ (s : State) (c : Fin 32) (v : BitVec 32), halted s = false →
     let m := mbxOf s c
     ((4096 < span v m.cmdHead ∨ span v m.cmdHead < span m.cmdTail m.cmdHead) →
       ∃ t, exec (.cmdTailWrite c v) s = .next t ∧ mbxOf t c = { m with fault := 1 } ∧
         ctrGet t .mbxTailBad c 0 = (ctrGet s .mbxTailBad c 0 + 1) % 2 ^ 64 ∧ noted t 0x49 0x0D01 c = true ∧
         (∀ d, d ≠ c.val → mbxOf t d = mbxOf s d) ∧ t.cmp = s.cmp ∧ t.lnd = s.lnd ∧ t.items = s.items) ∧
     (span m.rspTail m.rspHead < span v m.rspHead →
       exec (.rspHeadWrite c v) s = .next (cnt .mbxTailBad c 0 1 s)) ∧
     (span m.evtTail m.evtHead < span v m.evtHead →
       exec (.evtHeadWrite c v) s = .next (cnt .mbxTailBad c 0 1 s)) ∧
     ((m.fetchTo = m.cmdHead ∨ 4096 ≤ m.reads.length + span m.rspTail m.rspHead) →
       ∀ h p dma, exec (.commandFetch c h p dma) s = .next s))

/-- Vectors (R404): ARM_RSP re-arms vector 0 and ARM_EVT vectors 1 to 18, each from the end of its holdoff; a vector whose
condition does not stand then stays armed, and one whose condition stands signals once and is disarmed, at once without a
holdoff, by IRQ_HOLDOFF_EXPIRE after one. -/
def Obligations.VectorsArm : Prop :=
  ∀ (s : State) (c : Fin 32) (k : Fin 19), halted s = false →
    let h := (mbxOf s c).holdoff
    let r : Nat := if h = 0 then 0 else s.ran + h
    (vecStands s c 0 = false →
      exec (.armRsp c) s = .next (modVec c 0 (fun v => { v with armed := true, holdUntil := r }) s)) ∧
    (vecStands s c 0 = true → h = 0 → (vecOf s c 0).masked = false →
      ∃ t, exec (.armRsp c) s = .next t ∧
        vecOf t c 0 = { vecOf s c 0 with armed := false, holdUntil := 0, sent := (vecOf s c 0).sent + 1 }) ∧
    ((∀ j, j < 18 → vecStands s c (j + 1) = false) →
      ∃ t, exec (.armEvt c) s = .next t ∧
        (∀ j, j < 18 → vecOf t c (j + 1) = { vecOf s c (j + 1) with armed := true, holdUntil := r }) ∧
        vecOf t c 0 = vecOf s c 0 ∧ (∀ d, mbxOf t d = mbxOf s d) ∧ t.ctr = s.ctr ∧ t.lko = s.lko) ∧
    (vecStands s c k = true → (vecOf s c k).armed = true → (vecOf s c k).holdUntil ≤ s.ran →
      exec (.irqHoldoffExpire c k) s = .next (fireVec c k s)) ∧
    ((vecOf s c k).armed = false → exec (.irqHoldoffExpire c k) s = .next s)

/-- Taking a mailbox into and out of service (R389): an ENABLE write is accepted where the compartment is defined and its
bases are set, clears the six counts and the fault, which is a change of `STATUS.FAULT` (R404), and the mailbox is in service from the
next boundary; otherwise NOT_READY (6). A write of 0 stops the reading of commands at once, and `ENABLED` clears when every command read has
its response or a DMA error has stopped the mailbox (R405), at a ring boundary. -/
def Obligations.MailboxService : Prop :=
  ∀ (s : State) (c : Fin 32), halted s = false →
    let m := mbxOf s c
    (m.enable = false → cmpDefined s c = true → m.cmdBase ≠ 0 → m.rspBase ≠ 0 → m.evtBase ≠ 0 →
      exec (.mbxEnable c) s = .next (cnt .mbxRotDiscard c 0 (m.reads.length + heldNum m) (setMbxFault c 0 (modMbx c
        (fun m => { m with cmdTail := 0, cmdHead := 0, rspHead := 0, rspTail := 0, evtHead := 0, evtTail := 0, fetchTo := 0,
                           lost := 0, lostRing := 0, enable := true, enabling := true, dmaStop := false, reads := [],
                           held := none, secOpen := none, late := [] }) (dropWaiting c s))))) ∧
    (m.enable = false → (cmpDefined s c = false ∨ m.cmdBase = 0 ∨ m.rspBase = 0 ∨ m.evtBase = 0) →
      ∃ t, exec (.mbxEnable c) s = .next t ∧ mbxOf t c = { m with fault := 6 }) ∧
    (m.enabling = true → mbxEnabling c s = modMbx c (fun m => { m with enabling := false, enabled := true }) s) ∧
    exec (.mbxDisable c) s = .next (modMbx c (fun m => { m with enable := false, enabling := false, fetchTo := m.cmdHead }) s) ∧
    (atBoundary s = true → m.enabled = true → m.enable = false → ((m.reads = [] ∧ m.held = none) ∨ m.dmaStop = true) →
      exec (.mbxDrained c) s = .next (closeSession c (modMbx c (fun m => { m with enabled := false }) s))) ∧
    (atBoundary s = false → exec (.mbxDrained c) s = .next s) ∧
    (m.enabled = true → m.enable = false → (m.reads ≠ [] ∨ m.held ≠ none) → m.dmaStop = false →
      exec (.mbxDrained c) s = .next s)

/-- Register accesses (R385, R387, R388): a 32-bit read of `RING_NOW` latches the high half; a read or write that is not aligned or not
32 or 64 bits wide is counted and ignored; a write to the MSI-X table reaches the double word of its vector; a ring base out of service takes an address aligned to 4 KiB; an `MBX.CFG` write
with a `TIMEOUT` outside 1,000 to 100,000,000 or an `IRQ_HOLDOFF` above 1,000 changes nothing and sets CFG_ERR (5). -/
def Obligations.MailboxRegisters : Prop :=
  ∀ (s : State) (c : Fin 32) (v : BitVec 64), halted s = false →
    let m := mbxOf s c
    exec (.ringNowLowRead ⟨c, 0x020#12, 4⟩) s = .next (modMbx c (fun m => { m with latch := BitVec.ofNat 32 (s.ring / 2 ^ 32) }) s) ∧
    (∀ (off : BitVec 12) (size : Nat), ((size ≠ 4 ∧ size ≠ 8) ∨ off.toNat % size ≠ 0) →
      exec (.ringNowLowRead ⟨c, off, size⟩) s = .next (cnt .mbxBadAccess c 0 1 s) ∧
      exec (.registerWrite ⟨0, c⟩ (off.setWidth 16) size v) s = .next (cnt .mbxBadAccess c 0 1 s)) ∧
    (∀ (k : Fin 19) (i : Fin 4),
      exec (.registerWrite ⟨2, c⟩ (BitVec.ofNat 16 (1024 * c.val + 16 * k.val + 4 * i.val)) 4 v) s =
        .next (modVec c k (msixDword i (v.setWidth 32)) s)) ∧
    (m.enabled = false → v.toNat % 4096 = 0 →
      exec (.registerWrite ⟨0, c⟩ 0x0050#16 8 v) s = .next (modMbx c (fun m => { m with cmdBase := v }) s) ∧
      exec (.registerWrite ⟨0, c⟩ 0x0058#16 8 v) s = .next (modMbx c (fun m => { m with rspBase := v }) s) ∧
      exec (.registerWrite ⟨0, c⟩ 0x0060#16 8 v) s = .next (modMbx c (fun m => { m with evtBase := v }) s)) ∧
    (v.toNat % 4096 ≠ 0 →
      ∃ t, exec (.registerWrite ⟨0, c⟩ 0x0050#16 8 v) s = .next t ∧ mbxOf t c = { m with fault := 5 }) ∧
    ((fld v 34 8 < 1000 ∨ 100000000 < fld v 34 8 ∨ 1000 < fld v 44 35 ∨ (m.enabled = true ∧ fld v 34 8 ≠ m.timeout)) →
      ∃ t, exec (.registerWrite ⟨0, c⟩ 0x0068#16 8 v) s = .next t ∧ mbxOf t c = { m with fault := 5 }) ∧
    (1000 ≤ fld v 34 8 → fld v 34 8 ≤ 100000000 → fld v 44 35 ≤ 1000 → m.enabled = false → m.enable = bit v 0 →
      exec (.registerWrite ⟨0, c⟩ 0x0068#16 8 v) s = .next (modMbx c
        (fun m => { m with timeout := fld v 34 8, holdoff := fld v 44 35, evtSeal := bit v 1 }) s))

/-- Reading a command (R394, R398): where the Ranger may read, `CMD_HEAD` advances, the DMA request carries the compartment's PASID and goes
to base + 64·slot (R386, R390), that of its payload to `PAYLOAD_ADDR` (R386), the turn goes to the next CID, and a command that passes steps 1 to 8 and its sender's right (step 9) is validated in the present ring; one whose `NOT_BEFORE` lies ahead is held until the first
boundary at or after it, and is validated there. The command read next is that of the first CID that may be read, counted round-robin from
ring mod 32 where no command of this ring has been read, else from the CID after the last one read (R394). -/
def Obligations.CommandsAreRead : Prop :=
  (∀ (s : State) (c : Fin 32) (h p : List Byte) (dma : Bool) (o : Op),
     nextRead s = some c.val → s.host.closing = false → fetchCheck s c h p dma = .ok → opOfCode (leAt h 4 2) = some o →
     (leAt h 16 8 ≤ s.ring → outsideOk o c = true) →
     ∃ t, exec (.commandFetch c h p dma) s = .next t ∧ (mbxOf t c).cmdHead = (mbxOf s c).cmdHead + 1 ∧
       (mbxOf t c).readsInRing = (mbxOf s c).readsInRing + 1 ∧ t.host.readsInRing = s.host.readsInRing + 1 ∧
       (mbxOf t c).cmdDma = { pasid := (cmpOf s c).pasid,
                              addr := (mbxOf s c).cmdBase + BitVec.ofNat 64 (64 * ((mbxOf s c).cmdHead.toNat % 4096)) } ∧
       (mbxOf t c).payDma = (if leAt h 32 4 = 0 then {} else
         { pasid := (cmpOf s c).pasid, addr := BitVec.ofNat 64 (leAt h 24 8) }) ∧
       t.host.turn = (c + 1) % 32 + 1 ∧
       (leAt h 16 8 ≤ s.ring →
         (mbxOf t c).reads = (mbxOf s c).reads ++
           [{ tag := BitVec.ofNat 32 (leAt h 8 4), op := leAt h 4 2, v := s.ring, long := opLong o, ans := none }] ∧
         (mbxOf t c).held = (mbxOf s c).held) ∧
       (s.ring < leAt h 16 8 →
         (mbxOf t c).held = some { tag := BitVec.ofNat 32 (leAt h 8 4), op := leAt h 4 2, notBefore := leAt h 16 8,
                                   arg1 := BitVec.ofNat 32 (leAt h 60 4) } ∧ (mbxOf t c).reads = (mbxOf s c).reads)) ∧
  (∀ (s : State) (c : Fin 32), nextRead s = some c.val →
    let b := if s.host.turn = 0 then s.ring else s.host.turn - 1
    mayRead s c = true ∧ ∀ d, d < (c + 32 - b % 32) % 32 → mayRead s ((b + d) % 32) = false)

/-- Waiting and ending commands: NOT_BEFORE_RELEASE validates a held command at its boundary (R398); COMMAND_TIMEOUT, past
`TIMEOUT` rings, drops what waits of a command, or of the command that it carries, and answers TIMEOUT (R400); EVT_LOST is written once there is space, with the
number lost and the ring of the first loss (R401); a DMA error stops the reading of commands and sets `STATUS.FAULT` 2, 3 or 4
(R405). -/
def Obligations.MailboxEvents : Prop :=
  ∀ (s : State) (c : Fin 32), halted s = false →
    let m := mbxOf s c
    (∀ (x : Held) (o : Op), m.held = some x → x.sec = none → x.notBefore ≤ s.ring → opOfCode x.op = some o → outsideOk o c = true →
      let e : ReadEnt := { tag := x.tag, op := x.op, v := s.ring, long := opLong o, ans := none }
      exec (.notBeforeRelease c) s =
        .next (flushRsp c (modMbx c (fun m => { m with held := none, reads := m.reads ++ [e] }) s))) ∧
    (∀ (e : ReadEnt) (r : List ReadEnt), m.reads = e :: r → e.ans = none → e.v + m.timeout < s.ring →
      let mine (q : Req) (so : Option SecOpen) : Bool := q.c == c.val &&
        (if q.inner then e.op == 0x0E01 && so.any (fun x => x.tag == e.tag) else e.op != 0x0E01 && q.tag == e.tag)
      let u := dropReads (fun j => mine j.req j.sec)
        { s with items := s.items.filter (fun i => !(i.rsp && mine i.req i.sec)),
                 grv := { s.grv with jobs := s.grv.jobs.filter (fun j => !mine j.req j.sec) } }
      let w := if e.op = 0x0E01 then modMbx c (fun m => { m with secOpen := m.secOpen.filter (fun x => x.tag != e.tag) }) u else u
      exec (.commandTimeout c e.tag) s =
        .next (deliver c { rsp := { op := e.op, status := .timeout, tag := e.tag, v := e.v } } w)) ∧
    (m.enabled = true → dmaStopped s = false → m.dmaStop = false → 0 < m.lost → span m.evtTail m.evtHead < 8192 →
      exec (.evtLost c) s = .next (writeEvt c 0x0001 (packLE [(4, m.lost), (4, 0), (8, m.lostRing)]) s)) ∧
    ((m.enabled = false ∨ m.dmaStop = true ∨ m.lost = 0) → exec (.evtLost c) s = .next s) ∧
    (∀ (w : Fin 3) (x : BitVec 8), ∃ t, exec (.mbxDma c w x) s = .next t ∧
      mbxOf t c = { m with fetchTo := m.cmdHead, dmaStop := true, fault := 2 + w.val })

/-- An event that finds room is written in the slot that the tail names, with its 64 bytes, by a request with the compartment's PASID to
base + 64·slot (R386), and tail and sequence advance (R390, R401, R402); one
that finds none is lost and counted, and tail and sequence advance all the same. No event is posted to a mailbox out of
service, and one behind a response ACCEPTED that is not yet written waits for it (R400; log entry 121). -/
def Obligations.EventsPosted : Prop :=
  ∀ (s : State) (c code : Nat) (b : List Byte),
    let m := mbxOf s c
    let t := post c code b s
    let e : Evt := { code := code, cid := c, rotation := (cmpOf s c).rotation, seq := m.evtTail, body := padTo 48 b }
    (m.enabled = false → t = s) ∧
    (evtOpen s c = true → acceptHeld s c = true → t = modMbx c (fun m => { m with late := m.late ++ [(code, b)] }) s) ∧
    (evtOpen s c = true → acceptHeld s c = false → m.lost = 0 → span m.evtTail m.evtHead < 8191 → m.evtSeal = false →
      tget {} t.host.evtSlots (k2 c (m.evtTail.toNat % 8192)) =
        { e with bytes := evtSlotBytes (((session s c).map Sess.ems).getD 0) e,
                 dma := { pasid := (cmpOf s c).pasid, addr := m.evtBase + BitVec.ofNat 64 (64 * (m.evtTail.toNat % 8192)) } } ∧
      (mbxOf t c).evtTail = m.evtTail + 1 ∧ (mbxOf t c).lost = 0) ∧
    (evtOpen s c = true → acceptHeld s c = false → 8192 ≤ span m.evtTail m.evtHead →
      (mbxOf t c).evtTail = m.evtTail + 1 ∧ (mbxOf t c).lost = m.lost + 1 ∧ t.host.evtSlots = s.host.evtSlots ∧
      ctrGet t .mbxEvtLost c 0 = (ctrGet s .mbxEvtLost c 0 + 1) % 2 ^ 64 ∧
      (m.lost = 0 → (mbxOf t c).lostRing = s.ring)) ∧
    (∀ d, d ≠ c → mbxOf t d = mbxOf s d)

/-! ## Time (R50 to R69) -/

/-- Readings of the time sources (R54 to R58). An accepted pulse or PTP Sync steers by the filtered offset where its source is
the selected one; a pulse's offset is corrected by the stored delay of the input's cable (R69), a PTP Sync's by the port's `ASYM` (R91);
a LOCKED module rejects a pulse more than ±100 ns off (offsets in 0.5 ns), counts it and keeps what it follows by; a second missing or rejected pulse in a row loses the GNSS source, 3 s without Sync or three intervals without Announce a
PTP source, 5 s without ESMC or a quality level below the floor a SyncE source, a frequency outside ±4.6 ppm either frequency
source; a ToD that names the next second pairs its pulse; and a source that has been good for its time qualifies. -/
def Obligations.TimeReadings : Prop :=
  ∀ (s : State) (i : Fin 8) (off fil frq : Int), halted s = false →
    let x := srcOf s i
    let d := off - calPpsIn s / 32
    let asym := portAsym s (srcPort s i)
    (srcIs s i 2 = true → (s.tim.state ≠ .locked ∨ d.natAbs ≤ 200) → s.tim.source = some i.val →
      ∃ t, exec (.ppsPulse i off fil frq) s = .next t ∧ t.tim.phaseOffset = fil ∧ t.tim.freqOffset = frq ∧
        srcOf t i = { x with offset := fil, missed := 0, lastPulse := some s.ran,
                             pulses := if x.lastPulse.isSome then 0 else x.pulses } ∧ t.tim.state = s.tim.state) ∧
    (srcIs s i 2 = true → s.tim.state = .locked → 200 < d.natAbs → x.qualified = true → x.missed = 0 →
      ∃ t, exec (.ppsPulse i off fil frq) s = .next t ∧ t.tim.phaseOffset = s.tim.phaseOffset ∧
        srcOf t i = { x with missed := 1 } ∧ ctrGet t .timRej 0 0 = (ctrGet s .timRej 0 0 + 1) % 2 ^ 32 ∧
        noted t 0x45 0x0101 255 = true) ∧
    (srcIs s i 2 = true → 1 ≤ x.missed → exec (.ppsMissing i) s = .next (srcLost i s)) ∧
    (srcIs s i 2 = true → x.missed = 0 → x.qualified = true →
      exec (.ppsMissing i) s = .next (modSrc i (fun x => { x with missed := x.missed + 1 }) s)) ∧
    (∀ utc r, srcIs s i 2 = true → x.lastPulse = some r → r + 10000 ≤ s.ran → s.ran ≤ r + 900000 →
      x.lastTod = some (utc + taiUtc s - 1) → 0 < utc → s.tim.state ≠ .locked →
      exec (.todSentence i utc) s = .next (modSrc i (fun x =>
        { x with lastPulse := none, lastTod := some (utc + taiUtc s), pulses := x.pulses + 1 }) s)) ∧
    (∀ (d cc : BitVec 8) (st : BitVec 16) (utc : Nat), srcIs s i 1 = true → srcPortUp s i = true → d.toNat = srcDomain s i →
      (cc.toNat ≤ srcClass s i → st.toNat < 255 →
        exec (.ptpMessage i true d cc st utc true off fil frq) s =
          .next (modSrc i (fun x => { x with lastAnnounce := s.ran, utcOffset := some utc, clockClass := cc.toNat }) s)) ∧
      ((off - asym - x.offset).natAbs ≤ 2 * srcStep s i → s.tim.source ≠ some i.val →
        exec (.ptpMessage i false d cc st utc true off fil frq) s = .next (modSrc i (fun x => { x with offset := fil - asym })
          (modSrc i (fun x => { x with lastSync := s.ran, goodSince := some (x.goodSince.getD s.ran) }) s)))) ∧
    (srcIs s i 1 = true → x.lastSync + 3000000 ≤ s.ran → exec (.ptpSyncTimeout i) s = .next (srcLost i s)) ∧
    (srcIs s i 1 = true → exec (.ptpAnnounceTimeout i) s = .next (srcLost i s)) ∧
    (∀ ql : BitVec 8, srcIs s i 3 = true → srcPortUp s i = true →
      (ql.toNat ≤ srcClass s i → exec (.esmcMessage i ql) s = .next (modSrc i
        (fun x => { x with goodSince := some (x.goodSince.getD s.ran) })
        (modSrc i (fun x => { x with ql := ql.toNat, lastEsmc := s.ran }) s))) ∧
      (srcClass s i < ql.toNat → ∃ t, exec (.esmcMessage i ql) s = .next t ∧ (srcOf t i).qualified = false ∧
        ctrGet t .timRej 5 0 = (ctrGet s .timRej 5 0 + 1) % 2 ^ 32 ∧ noted t 0x45 0x0101 255 = true)) ∧
    (srcIs s i 3 = true → x.lastEsmc + 5000000 ≤ s.ran →
      ∃ t, exec (.esmcTimeout i) s = .next t ∧ (srcOf t i).qualified = false ∧
        ctrGet t .timRej 5 0 = (ctrGet s .timRej 5 0 + 1) % 2 ^ 32) ∧
    ((srcIs s i 3 = true ∨ srcIs s i 4 = true) →
      ∃ t, exec (.freqRange i) s = .next t ∧ (srcOf t i).qualified = false ∧
        ctrGet t .timRej 6 0 = (ctrGet s .timRej 6 0 + 1) % 2 ^ 32 ∧ noted t 0x45 0x0101 255 = true) ∧
    (srcEnabled s i = true → x.qualified = false → goodLong s i = true → (srcType s i = 3 ∨ srcType s i = 4) →
      exec (.sourceQualify i off) s =
        .next (modSrc i (fun x => { x with qualified := true, offset := off, missed := 0, far := false }) s))

/-- The timing state changes only as the table of R59 says: from any state to itself, and from FREE to ACQUIRING, ACQUIRING to
LOCKED or FREE, LOCKED to ACQUIRING, a holdover state or FREE, HOLDOVER_CARTRIDGE to HOLDOVER_TCXO, and a holdover state to
LOCKED, ACQUIRING or FREE. A change is posted with its ring, its old and its new state (R61), is the state since that ring, and
a change to LOCKED or ACQUIRING starts a re-lock slew there and excludes determinism (R60). The state is evaluated once at each
boundary (R581), and nothing changes in the middle of a ring. -/
def Obligations.TimingTransitions : Prop :=
  ∀ s : State, halted s = false →
    ((s.tim.evalRing = s.ring ∨ atBoundary s = false) → exec .timingStateChange s = .next s) ∧
    (s.tim.evalRing ≠ s.ring → atBoundary s = true → ∃ t, exec .timingStateChange s = .next t ∧
    (t.tim.state = s.tim.state ∨ (s.tim.state, t.tim.state) ∈
      [(TimState.free, TimState.acquiring), (.acquiring, .locked), (.acquiring, .free), (.locked, .acquiring),
       (.locked, .holdoverCart), (.locked, .holdoverTcxo), (.locked, .free), (.holdoverCart, .holdoverTcxo),
       (.holdoverCart, .locked), (.holdoverTcxo, .locked), (.holdoverCart, .acquiring), (.holdoverTcxo, .acquiring),
       (.holdoverCart, .free), (.holdoverTcxo, .free)]) ∧
    (t.tim.state ≠ s.tim.state → t.tim.stateSince = t.ring ∧
      (t.tim.state = .locked ∨ t.tim.state = .acquiring → t.tim.slewStart = t.ring ∧ t.tim.detExcl = true)) ∧
    (t.tim.state = s.tim.state → t.tim.stateSince = s.tim.stateSince ∧ t.tim.slewStart = s.tim.slewStart) ∧
    (s.tim.alignDue = none → s.tim.state = .free → bestPhase s ≠ none → t.tim.state = .acquiring) ∧
    (s.tim.alignDue = none → s.tim.state = .locked → bestPhase s = none → s.ran < s.tim.stateRan + 600000000 →
      t.tim.state = .free) ∧
    t.md.mode = s.md.mode ∧ t.variant = s.variant ∧ t.lnd = s.lnd ∧ t.cut = s.cut)

/-- Ticks of the grid: the holdover limit runs out (R66), `DET_EXCLUDED` clears 1,000,000 rings after the slew start (R60), the
time hint is written once every 1,000,000 rings (R51), and the 1PPS output rises at the rings that are multiples of 1,000,000
ahead by the stored delay of the output's cable, while it is driven (R69, R70). -/
def Obligations.TimingTicks : Prop :=
  ∀ s : State, halted s = false →
    ((s.tim.state = .holdoverCart ∨ s.tim.state = .holdoverTcxo) → s.tim.holdStart + holdSeconds s * 1000000 ≤ s.ran →
      exec .holdoverLimitExpire s = .next { s with tim := { s.tim with holdExpired := true } }) ∧
    (s.tim.slewRan + 1000000 ≤ s.ran →
      exec .detExcludedClear s = .next { s with tim := { s.tim with detExcl := false } }) ∧
    (s.ran < s.tim.slewRan + 1000000 → exec .detExcludedClear s = .next s) ∧
    (s.tim.hint + 1000000 ≤ s.ring → exec .timeHintWrite s = .next { s with tim := { s.tim with hint := s.ring } }) ∧
    (s.tim.hint ≤ s.ring → s.ring < s.tim.hint + 1000000 → exec .timeHintWrite s = .next s) ∧
    (s.ring % 1000000 = 0 → s.link.squelched = false → (s.tim.state = .locked ∨ bit s.tim.ctl 0 = true) →
      exec .ppsOut s = .next { s with tim := { s.tim with
        ppsOut := s.tim.ppsOut + 1, ppsEdge := 64000 * (s.ring : Int) - calPpsOut s } }) ∧
    (s.ring % 1000000 ≠ 0 → exec .ppsOut s = .next s)

/-- The cartridge (R62 to R68): insertion reads and checks identity and life counter, and an identity that fails is rejected
with reason 1 and counted; the end of warm-up, its failure after 120 min (reason 5), use from the next boundary after 2 h LOCKED, the end of use at a boundary by which the
cartridge has been removed or changed, the hourly life
tick, that must rise by one, removal, and a temperature reading in range and near the last. -/
def Obligations.Cartridge : Prop :=
  ∀ s : State, halted s = false →
    let c := s.tim.cart
    (∀ serial hours learn : BitVec 32, c.present = false → hours.toNat < 61320 →
      tget 0 s.tim.lastLife (k1 serial.toNat) ≤ hours.toNat →
      exec (.cartInsert serial true true hours learn) s = .next { s with tim := { s.tim with
        cart := { present := true, idValid := true, lifeValid := true, serial := serial.toNat, hours := hours.toNat,
                  learn := learn.toNat, warmStart := s.ran, inUse := c.inUse },
        lastLife := tput 0 s.tim.lastLife (k1 serial.toNat) hours.toNat } }) ∧
    (∀ (serial hours learn : BitVec 32) (life : Bool), c.present = false →
      ∃ t, exec (.cartInsert serial false life hours learn) s = .next t ∧ t.tim.cart.present = true ∧
        t.tim.cart.rejected = true ∧ t.tim.cart.reason = 1 ∧ t.tim.cart.serial = 0 ∧
        ctrGet t .timRej 7 0 = (ctrGet s .timRej 7 0 + 1) % 2 ^ 32) ∧
    (c.present = true → c.idValid = true → c.rejected = false → c.warm = false →
      exec .cartWarmDone s = .next (modCart (fun c => { c with warm := true, lockedRings := 0 }) s)) ∧
    (c.present = true → c.rejected = false → c.warm = false → c.warmStart + 7200000000 ≤ s.ran →
      exec .warmFail s = .next (modCart (fun c => { c with rejected := true, reason := 5 }) s)) ∧
    (c.present = true → c.warm = false → s.ran < c.warmStart + 7200000000 → exec .warmFail s = .next s) ∧
    (bit s.tim.ctl 1 = true → c.present = true → c.idValid = true → c.lifeValid = true → c.warm = true → c.rejected = false →
      c.hours < 61320 → 7200000000 ≤ c.lockedRings →
      exec .cartInUse s = .next (modCart (fun c => { c with useDue := true }) s) ∧
      (cartLeaves (modCart (fun c => { c with useDue := true }) s)).tim.cart.inUse = true) ∧
    (c.useDue = false → (c.present = false ∨ c.warm = false ∨ c.rejected = true ∨ c.lockedRings < 7200000000) →
      (cartLeaves s).tim.cart.inUse = false) ∧
    ((61320 ≤ c.hours ∨ c.lockedRings < 7200000000 ∨ c.warm = false ∨ c.idValid = false) → exec .cartInUse s = .next s) ∧
    (∀ n : BitVec 32, c.present = true → c.rejected = false → n.toNat = c.hours + 1 → n.toNat < 61320 →
      exec (.cartLifeTick true n) s = .next { s with tim := { s.tim with
        cart := { c with hours := n.toNat, lifeEnd := false },
        lastLife := tput 0 s.tim.lastLife (k1 c.serial) n.toNat } }) ∧
    (∀ n : BitVec 32, c.present = true → c.rejected = false → n.toNat ≠ c.hours + 1 →
      ∃ t, exec (.cartLifeTick true n) s = .next t ∧ t.tim.cart = { c with rejected := true, reason := 3 } ∧
        ctrGet t .timRej 7 0 = (ctrGet s .timRej 7 0 + 1) % 2 ^ 32) ∧
    (c.present = true → exec (.cartRemove false) s = .next (modCart (fun c => { inUse := c.inUse }) s) ∧
      exec (.cartRemove true) s = .next (modCart (fun c => { c with rejected := true, reason := 6 }) s)) ∧
    (∀ x : Int, c.present = true → -720 ≤ x → x ≤ 1520 → (c.tempSeen = false ∨ (x - c.temp).natAbs ≤ 32) →
      exec (.cartTempRead x) s = .next (modCart (fun c => { c with temp := x, tempSeen := true }) s)) ∧
    (∀ x : Int, c.present = true → (x < -720 ∨ 1520 < x) →
      ∃ t, exec (.cartTempRead x) s = .next t ∧ t.tim.cart = c ∧
        ctrGet t .timRej 8 0 = (ctrGet s .timRej 8 0 + 1) % 2 ^ 32 ∧ noted t 0x45 0x0101 255 = true)

/-! ## Ports, pauses and cages (R79 to R95) -/

/-- Links (R79, R80, R87, R173): the PCS reports that a link is lost or clean, and nothing changes before the next boundary. There a
port that goes down loses its pauses, its verification and the copies that wait for it, is down since this ring, and PORT_STATE is
posted; one that meets every condition of R79 comes up in this ring, and PORT_STATE is posted; one that is not clean for `UP_HOLD` rings
does not. Verify mPackets are sent at intervals of 10 ms, at most three times, and then the failure is posted; a respond mPacket completes
verification. -/
def Obligations.Links : Prop :=
  ∀ (s : State) (p : Fin 64), halted s = false →
    let r := port s p
    let u : State := { s with link := { s.link with found := [] } }
    exec (.linkDown p) s = .next { s with link := { s.link with found := s.link.found ++ [(p.val, false)] } } ∧
    exec (.linkUp p) s = .next { s with link := { s.link with found := s.link.found ++ [(p.val, true)] } } ∧
    (r.up = true → s.link.found = [(p.val, false)] → linkStep s = postPort p 0 (portDownEm p (flushPort p (modPort p
      (fun q => { q with up := false, changed := s.ring, trainFrom := s.ran, downs := q.downs + 1, xoff := 0,
                         verified := false, verifies := 0 }) (clearPauses p u))))) ∧
    (r.up = false → s.link.found = [(p.val, false)] →
      linkStep s = modPort p (fun q => { q with trainFrom := s.ran, verified := false, verifies := 0 }) u) ∧
    (mayComeUp s p = true → s.link.found = [(p.val, true)] →
      linkStep s = pfcUpdate p (postPort p 1 (modPort p (fun q => { q with up := true, changed := s.ring }) u))) ∧
    ((r.up = true ∨ portSpeed s p = 0 ∨ s.md.mode = .sealed ∨ s.ran < r.trainFrom + fld r.cfg 111 96) →
      s.link.found = [(p.val, true)] → linkStep s = u) ∧
    (r.up = true → bit r.cfg 14 = true → bit r.cfg 15 = true → r.verified = false →
      (r.verifies < 3 → (r.verifies = 0 ∨ r.lastVerify + 10000 ≤ s.ran) → exec (.preemptVerifySend p) s =
        .next (modPort p (fun q => { q with verifies := q.verifies + 1, lastVerify := s.ran }) s)) ∧
      (r.verifies ≠ 0 → s.ran < r.lastVerify + 10000 → exec (.preemptVerifySend p) s = .next s) ∧
      (r.verifies = 3 → r.lastVerify + 10000 ≤ s.ran → exec (.preemptVerifySend p) s = .next (post 0 0x0202 (packLE [(8, s.ring), (1, p)])
        (modPort p (fun q => { q with verifies := 4 }) s)))) ∧
    (r.up = true → bit r.cfg 14 = true → bit r.cfg 15 = true → 0 < r.verifies →
      exec (.preemptRespond p) s = .next (modPort p (fun q => { q with verified := true }) s)) ∧
    (r.verified = true → exec (.preemptVerifySend p) s = .next s)

/-- PFC (R83, R84): a received frame that names one class of `PFC_RX` which is not gated pauses it for its quanta × 512 bit
times at the port's speed, rounded up to whole clocks, and a time of 0 ends the pause; one that names no such class is counted
and pauses nothing; a pause ends when its clock has come; XOFF is sent again, with `PFC_QUANTA`, after
`PFC_REFRESH` rings. -/
def Obligations.Pauses : Prop :=
  ∀ (s : State) (p : Fin 64) (clk : Fin 1600) (cev : BitVec 8) (timers : List (BitVec 16)) (c : Fin 8), halted s = false →
    let u : State := { s with clock := clk.val }
    (timers.length = 8 → (port s p).up = true → (fld (port s p).cfg 31 24).testBit c = true → gated s p c = false →
      cev = 1#8 <<< c.val →
      ∃ t, exec (.pfcReceive p clk cev timers) s = .next t ∧
        pauseEnd t p c = (if (timers.getD c 0).toNat = 0 then 0
          else s.ran * 1600 + clk + ((timers.getD c 0).toNat * 512 * 16 + 10 * speedGb s p - 1) / (10 * speedGb s p)) ∧
        (∀ d, d ≠ c.val → pauseEnd t p d = pauseEnd s p d) ∧ t.lnd = s.lnd ∧ t.md = s.md) ∧
    ((port s p).up = true → fld (port s p).cfg 31 24 = 0 →
      ∃ t, exec (.pfcReceive p clk cev timers) s = .next t ∧ t.link.pause = s.link.pause ∧ t.lnd = s.lnd) ∧
    ((port s p).up = false → exec (.pfcReceive p clk cev timers) s = .next (guardTick p u)) ∧
    (pauseEnd s p c ≠ 0 → pauseEnd s p c ≤ s.ran * 1600 + clk →
      ∃ t, exec (.pauseExpire p c clk) s = .next t ∧ pauseEnd t p c = 0 ∧
        (∀ q d, (q ≠ p.val ∨ d ≠ c.val) → pauseEnd t q d = pauseEnd s q d) ∧ t.lnd = s.lnd) ∧
    (s.ran * 1600 + clk < pauseEnd s p c → exec (.pauseExpire p c clk) s = .next (guardTick p u)) ∧
    ((port s p).up = true → (port s p).xoff ≠ 0 → (port s p).xoffRing + fld (port s p).cfg 95 80 ≤ s.ran →
      exec (.pfcRefreshExpire p) s = .next (modPort p (fun q => { q with xoffRing := s.ran })
        (pfcSend p (port s p).xoff (fld (port s p).cfg 79 64) s)))

/-- Cages (R93 to R95): an optic whose identity reads within its cage's limit and whose temperature is high enough goes to high
power, one below its temperature is heated, also after a poll, one above the limit stays low and CAGE_POWER_DENIED is posted; a removal posts
CAGE_REMOVED and takes the cage's ports down at the next boundary; a poll keeps the readings in range; an access that takes 10 ms is counted, and
the third in a row marks the cage lost, which a retry that succeeds takes back. -/
def Obligations.Cages : Prop :=
  ∀ (s : State) (c : Fin 53), halted s = false →
    let g := cageOf s c
    (∀ (id : List Byte) (cls : Fin 8) (mw : Nat) (temp low : Int), c.val ≠ 52 → id ≠ [] → mw ≤ cageLimit c →
      asleep s (groupOfCage c) = false →
      exec (.opticInsert c (some id) cls mw temp low) s = .next (modCage c (fun _ =>
        { present := true, identity := id, powerClass := cls, powerMw := mw, minTemp := low,
          highPower := decide (low ≤ temp), heater := decide (temp < low) }) s)) ∧
    (∀ (id : List Byte) (cls : Fin 8) (mw : Nat) (temp low : Int), c.val ≠ 52 → cageLimit c < mw →
      exec (.opticInsert c (some id) cls mw temp low) s = .next (post 0 0x0203 (packLE [(8, s.ring), (1, c)]) (modCage c (fun _ =>
        { present := true, identity := id, powerClass := cls, powerMw := mw, minTemp := low, denied := true,
          heater := decide (temp < low) }) s))) ∧
    (c.val ≠ 52 → g.present = true → exec (.opticRemove c) s = .next (foldS (cagePorts s c) (linkFound · false)
      (post 0 0x0204 (packLE [(8, s.ring), (1, c)]) (modCage c (fun _ => {}) s)))) ∧
    (g.present = false → exec (.opticRemove c) s = .next s) ∧
    (∀ (temp : Int) (volt : Nat), g.present = true → g.mgmtLost = false → g.seen = false → g.seenV = false → g.highPower = true →
      (c.val < 52 → asleep s (groupOfCage c) = false) →
      -800 ≤ temp → temp ≤ 2080 → 2900 ≤ volt → volt ≤ 3700 →
      exec (.opticPoll c temp volt [] [] 0) s = .next (modCage c (fun g =>
        { g with temp := temp, volt := volt, bias := [], power := [], seen := true, seenV := true, timeouts := 0,
                   heater := decide (temp < g.minTemp) }) s)) ∧
    (g.present = true → ∃ t, exec (.mgmtTimeout c) s = .next t ∧
      cageOf t c = { g with timeouts := g.timeouts + 1, mgmtLost := g.mgmtLost || decide (3 ≤ g.timeouts + 1) } ∧
      ctrGet t .cageTimeout c 0 = (ctrGet s .cageTimeout c 0 + 1) % 2 ^ 64 ∧ noted t (cageUnit c) 0x0201 255 = true) ∧
    (g.mgmtLost = true → exec (.cageRetry c true) s = .next (modCage c (fun g => { g with mgmtLost := false, timeouts := 0 }) s)) ∧
    (g.mgmtLost = false → ∀ ok, exec (.cageRetry c ok) s = .next s)

/-! ## Power (R51, R508 to R514, R557 to R571) -/

/-- The power cycle (R51, R510, R512, R513, R514, R559, R561, R565): the rails rise where they are down, after a thermal
shutdown only below the zone's restart threshold; power-good starts the grid at the ring after the time hint, with every source to qualify afresh and the PCIe link as it trained (R385); a power failure
has the rails fall 2,000 rings later (log entry 133), changes no frame, cut, mode or ring, and puts every optic in low-power mode; their fall, at the boundary where it is due,
leaves SEALED and FREE without power, with no frame, cut, learned entry, session or key, with the record store reloaded from the
log, with the saved records, and with what MRAM keeps unchanged. -/
def Obligations.PowerCycle : Prop :=
  ∀ s : State,
    (∀ temp, s.pwr.on = false → (∀ z, s.pwr.offZone = some z → temp < restartBelow z) →
      exec (.powerOn temp) s = .next { s with pwr := { s.pwr with rising := true, offZone := none } }) ∧
    (∀ temp z, s.pwr.offZone = some z → restartBelow z ≤ temp → exec (.powerOn temp) s = .next s) ∧
    (s.pwr.on = false → s.pwr.rising = true → ∃ t, exec .powerGood s = .next t ∧
      t.ring = s.tim.hint + 1 ∧ t.clock = 0 ∧ t.pwr = { s.pwr with on := true, rising := false, pageUp := s.pwr.page } ∧
      t.md = { s.md with since := t.ring, trimDone := t.ring } ∧ t.trust = s.trust ∧ t.lko = s.lko ∧
      (1 ≤ t.host.pcieRate ∧ t.host.pcieRate ≤ 5 ∧ t.host.pcieWidth ∈ [1, 2, 4, 8] ∧
        t.host = { s.host with pcieRate := t.host.pcieRate, pcieWidth := t.host.pcieWidth }) ∧
      t.tim = { s.tim with srcs := t.tim.srcs, source := none, stateSince := t.ring, stateRan := t.ran, evalRing := t.ring } ∧
      t.ran = s.ran + 1 ∧ ∀ i, (srcOf t i).qualified = false) ∧
    (s.pwr.on = true ∨ s.pwr.rising = false → exec .powerGood s = .next s) ∧
    (s.pwr.on = false ∨ s.pwr.fallAt.isSome = true → exec .powerFail s = .next s) ∧
    (s.pwr.on = true → s.pwr.fallAt = none → ∃ t, exec .powerFail s = .next t ∧
      t.pwr = { s.pwr with fallAt := some (if s.clock = 0 then s.ran + 2000 else s.ran + 2001) } ∧
      ctrGet t .pwrFails 0 0 = (ctrGet s .pwrFails 0 0 + 1) % 2 ^ 64 ∧ t.md = s.md ∧ t.lnd = s.lnd ∧ t.cut = s.cut ∧
      t.ring = s.ring ∧ t.clock = s.clock ∧ (halted s = false → ∀ c, (cageOf t c).highPower = false)) ∧
    (∀ r, s.pwr.on = true → s.pwr.fallAt = some r → r ≤ s.ran + 1 → ∃ t, exec .ringBoundary s = .next t ∧ t.pwr.fallAt = none ∧
      t.pwr.on = false ∧ t.md.mode = .sealed ∧ t.tim.state = .free ∧ t.items = [] ∧ t.cut.cuts = [] ∧ t.em.ents = [] ∧
      t.lnd.frames = [] ∧ t.lnd.pipe = [] ∧ t.trust.sess = [] ∧ t.trust.cutKey = [] ∧ (∀ k ∈ t.trust.keys, k.2.owner = none) ∧
      (∀ c, (mbxOf t c).enabled = false) ∧ (∀ u, (unitSt t u).fenced = false ∧ (unitSt t u).epoch = 0) ∧
      t.tim.ctl = s.saved.ctl ∧ t.tim.src = s.saved.src ∧ t.lnd.cfg = s.saved.lnd ∧ t.dram.cfg = s.saved.dram ∧
      t.buf.spill = s.saved.spill ∧ t.cmp.att = s.saved.att ∧ t.md.ntrim = s.saved.ntrim ∧ t.sch.active = s.saved.active ∧
      t.tim.hint = s.tim.hint ∧ t.trust.ownerKeys = s.trust.ownerKeys ∧ t.trust.claimed = s.trust.claimed ∧
      t.trust.binding = s.trust.binding ∧ t.trust.tamper = s.trust.tamper ∧ t.pwr.page = s.pwr.page ∧ t.lko.log = s.lko.log ∧
      t.lko.recs = t.lko.log ∧ t.lko.seq = s.lko.seq ∧ t.lko.factory = false ∧ t.saved = s.saved ∧ t.variant = s.variant)

/-- Supervision (R560 to R566): a dip is posted at its start and its end and counted; a reading in range and near the last is
kept, one that fails is a NOTE and triggers nothing; a rail above 110 % and a bulk voltage above 450 V for more than 1 ms halt the
module; a sensor at its warning threshold is posted, and posted again 5 K below; one at its shutdown threshold has the rails
fall as a power failure does (log entry 133), and the first such zone is kept for the restart. R571: each accepted change of an alarm input posts ALARM_INPUT to CID 0 with the ring in 8 bytes, the input and the state (1
closed), the rest zero, and the input's state is kept; a state that does not change posts nothing. -/
def Obligations.Supervision : Prop :=
  (∀ s : State, s.pwr.on = true → halted s = false →
     (s.pwr.dipStart = none → exec .dipStart s =
       .next (powerAlert 1 255 0 (cnt .pwrDips 0 0 1 { s with pwr := { s.pwr with dipStart := some s.ran } }))) ∧
     (∀ r, s.pwr.dipStart = some r → exec .dipEnd s =
       .next (powerAlert 2 255 (s.ran - r) { s with pwr := { s.pwr with dipStart := none } })) ∧
     (∀ (rail : Fin 16) (nom pin : Nat) (v : Int), 0 ≤ v → v ≤ 320000 →
       exec (.supplyReading 0 rail nom v pin) s = .next (keepReading 0 0 v { s with pwr := { s.pwr with pin := pin } })) ∧
     (∀ (rail : Fin 16) (nom pin : Nat) (v : Int), (v < 0 ∨ 320000 < v) →
       exec (.supplyReading 0 rail nom v pin) s =
         .next (note 0x48 0x1001 255 [0, detailWord v] { s with pwr := { s.pwr with pin := pin } })) ∧
     (∀ (rail : Fin 16) (nom pin : Nat) (v : Int), (v < 0 ∨ 480000 < v) →
       exec (.supplyReading 1 rail nom v pin) s =
         .next (note 0x48 0x1001 255 [1, detailWord v] { s with pwr := { s.pwr with pin := pin } })) ∧
     (∀ (rail : Fin 16) (nom pin : Nat) (v : Int) (r : Nat), 450000 < v → v ≤ 480000 → readingOf s 1 0 = some v →
       s.pwr.bulkHigh = some r → r + 1000 < s.ran → ∃ t, exec (.supplyReading 1 rail nom v pin) s = .next t ∧
         t.md.mode = .halted ∧ t.lko.recs.head?.map (fun x => (x.cls, x.code, x.detail)) = some (3, 0x0F08, [1])) ∧
     (∀ (rail : Fin 16) (nom pin : Nat) (v : Int), 0 ≤ v → (v : Int) ≤ (13 * nom / 10 : Nat) →
       readingOf s 2 rail = none →
       (10 * v ≤ (11 * nom : Nat) → exec (.supplyReading 2 rail nom v pin) s =
         .next (keepReading 2 rail v { s with pwr := { s.pwr with pin := pin } })) ∧
       ((11 * nom : Nat) < 10 * v → ∃ t, exec (.supplyReading 2 rail nom v pin) s = .next t ∧
         t.md.mode = .halted ∧ t.lko.recs.head?.map (fun x => (x.cls, x.code, x.detail)) = some (3, 0x0F08, [4]))) ∧
     (∀ (sensor : Fin 64) (z i : Fin 4) (v : Int),
       ((v < -880 ∨ 2400 < v ∨ ∃ old, readingOf s 3 sensor = some old ∧ 80 < (v - old).natAbs) →
         exec (.tempReading sensor z i v) s = .next (note 0x48 0x1002 255 [sensor.val, detailWord v] s)) ∧
       (-880 ≤ v → v < warnAt z → (∀ old, readingOf s 3 sensor = some old → (v - old).natAbs ≤ 80) →
         tget false s.pwr.warn (k2 z i) = false →
         exec (.tempReading sensor z i v) s = .next (keepReading 3 sensor v s)) ∧
       (warnAt z ≤ v → v < shutAt z → z ≠ 1 → (∀ old, readingOf s 3 sensor = some old → (v - old).natAbs ≤ 80) →
         tget false s.pwr.warn (k2 z i) = false →
         exec (.tempReading sensor z i v) s = .next (powerAlert 4 z (v % 2 ^ 32).toNat
           { (keepReading 3 sensor v s) with pwr := { (keepReading 3 sensor v s).pwr with
               warn := tput false s.pwr.warn (k2 z i) true } })) ∧
       (-880 ≤ v → v ≤ warnAt z - 80 → (∀ old, readingOf s 3 sensor = some old → (v - old).natAbs ≤ 80) →
         tget false s.pwr.warn (k2 z i) = true →
         exec (.tempReading sensor z i v) s = .next (powerAlert 5 z (v % 2 ^ 32).toNat
           { (keepReading 3 sensor v s) with pwr := { (keepReading 3 sensor v s).pwr with
               warn := tput false s.pwr.warn (k2 z i) false } })) ∧
       (shutAt z ≤ v → v ≤ 2400 → (∀ old, readingOf s 3 sensor = some old → (v - old).natAbs ≤ 80) →
         s.pwr.offZone = none → ∃ t, exec (.tempReading sensor z i v) s = .next t ∧ t.pwr.offZone = some z.val ∧ t.pwr.on = true ∧
           t.pwr.fallAt = some (s.pwr.fallAt.getD (if s.clock = 0 then s.ran + 2000 else s.ran + 2001)) ∧
           t.pwr.page = s.pwr.page ∧ t.lnd = s.lnd ∧ t.cut = s.cut ∧ (∀ c, (cageOf t c).highPower = false)) ∧
       (shutAt z ≤ v → z ≠ 1 → v ≤ 2400 → (∀ old, readingOf s 3 sensor = some old → (v - old).natAbs ≤ 80) →
         s.pwr.offZone.isSome = true → tget false s.pwr.warn (k2 z i) = true →
         exec (.tempReading sensor z i v) s = .next (keepReading 3 sensor v s)))) ∧
  (∀ (s : State) (i : Fin 2) (closed : Bool), halted s = false →
     let old := tget false s.pwr.din (k1 i)
     let u : State := { s with pwr := { s.pwr with din := tput false s.pwr.din (k1 i) closed } }
     (old ≠ closed → exec (.alarmInput i closed) s = .next (post 0 0x1004 (packLE [(8, s.ring), (1, i), (1, b2n closed)]) u)) ∧
     (old ≠ closed → tget false u.pwr.din (k1 i) = closed ∧ (∀ j, j ≠ i.val → tget false u.pwr.din (k1 j) = tget false s.pwr.din (k1 j))) ∧
     (old = closed → exec (.alarmInput i closed) s = .next s))

/-! ## The Lookout: HALTED, fences and restarts (R478 to R502, R510, R511) -/

/-- HALT-class faults (R476, R481, R485, R497, R409, R570): HALT and TAMPER write their record to the log, enter HALTED in this
ring with no session and no key left, the outputs squelched and every optic in low-power mode, raise the tamper count, keep
the owner keys and the requester bindings, and open every alarm contact; TIM.STATUS reads as zero from then on. The two findings of the
HALT row that the Ranger survives are a NOTE and a restart (R483, R485; log entry 123). -/
def Obligations.HaltEffects : Prop :=
  ∀ s : State, halted s = false →
    (∀ (f : HaltFind) (addr : BitVec 64) (u c : Nat) (d : List Nat),
      ((∃ k : Fin 4, f = .supply k ∧ (u, c, d) = (0x48, 0x0F08, [k.val + 1])) ∨
        (f = .memUncorr ∧ (u, c, d) = (0x46, 0x0F07, [addr.toNat]))) →
      ∃ t, exec (.halt f addr) s = .next t ∧ haltedInv t ∧ t.md.since = s.ring ∧
        t.lko.log.head?.map (fun r => (r.cls, r.unit, r.code, r.ring, r.detail)) = some (3, u, c, s.ring, d) ∧
        t.trust.ownerKeys = s.trust.ownerKeys ∧ t.trust.binding = s.trust.binding ∧ t.trust.tamper = s.trust.tamper + 1 ∧
        (∀ c, (cageOf t c).highPower = false) ∧ alarmMajor t = true ∧ alarmMinor t = true ∧ alarmTiming t = true ∧
        timStatus t = zeros 32 ∧ t.ring = s.ring ∧ t.tim = s.tim ∧ t.lnd = s.lnd) ∧
    (∀ addr : BitVec 64, exec (.halt .memCorr addr) s = .next (note 0x46 0x0F06 255 [addr.toNat] s) ∧
      ∃ t, exec (.halt .cutImage addr) s = .next t ∧ t.host.stopped = true ∧
        t.lko.recs.head?.map (fun r => (r.cls, r.unit, r.code, r.detail)) = some (2, 0x46, 0x0F04, [0x0F07]) ∧
        t.lko.restartAt = some (min (s.lko.restartAt.getD (s.ran + 1)) (s.ran + 1))) ∧
    (∀ finding : Fin 5, ∃ t, exec (.tamper finding) s = .next t ∧ haltedInv t ∧ t.trust.tamper = s.trust.tamper + 1 ∧
      t.lko.log.head?.map (fun r => (r.cls, r.unit, r.code, r.ring, r.detail)) = some (3, 0x47, 0x0E02, s.ring, [finding.val + 1]) ∧
      t.trust.ownerKeys = s.trust.ownerKeys ∧ t.trust.binding = s.trust.binding)

/-- Only a power cycle leaves HALTED (R497, R498): from every HALTED module with power, a step
leaves it HALTED, with power, with no key and no session, squelched, and with every frame, cut,
table, port, timing and configuration record as it was, unless it is the ring boundary at which the rails fall. -/
def Obligations.HaltedLatch : Prop :=
  ∀ (s t : State), haltedInv s → s.pwr.on = true → step s = .next t →
    (haltedInv t ∧ t.pwr.on = true ∧ t.lnd = s.lnd ∧ t.cut = s.cut ∧ t.em = s.em ∧ t.grv = s.grv ∧ t.par = s.par ∧
      t.buf = s.buf ∧ t.krf = s.krf ∧ t.sch = s.sch ∧ t.dram = s.dram ∧ t.cap = s.cap ∧ t.link = s.link ∧ t.cmp = s.cmp ∧
      t.tim = { s.tim with stepped := t.tim.stepped }) ∨
    (t.pwr.on = false ∧ ∃ rest r, s.pending = .ringBoundary :: rest ∧ s.pwr.fallAt = some r ∧ r ≤ s.ran + 1)

/-- Fences and unit resets (R478, R481, R490, R491, R493): a cause found on a unit that can be fenced is recorded as FENCE and
the fence falls at the next boundary, a cause found again before it being a NOTE; there the unit and those that go with it are fenced and their epochs rise by one modulo 16,
and no other unit changes; the reset begins at the next boundary, for a gated pipeline when it wakes (R502; log entry 122); one that passes makes the unit READY, one that fails is
repeated, and the third failure retires it. -/
def Obligations.Fences : Prop :=
  ∀ (s : State) (u : Fin 64), halted s = false →
    let x := unitSt s u
    (∀ c : Fin 5, unitPresent s.variant u = true → fenceable u = true → 1 ≤ c.val → c.val ≤ fenceCauses u →
      isFenced s u = false → fencePending s u = false → bothPlanes s u = false →
      let t := newRec 1 u (if 48 ≤ u.val then 0x0C02 else 0x0F01) 255 ((x.epoch + 1) % 16) [c.val] s
      exec (.fenceRaise u c) s = .next { t with lko := { t.lko with pendFence := t.lko.pendFence ++ [(u.val, s.ran)] } }) ∧
    (∀ c : Fin 5, unitPresent s.variant u = true → 1 ≤ c.val → c.val ≤ fenceCauses u → fencePending s u = true → atBoundary s = false →
      exec (.fenceRaise u c) s = .next (note u (if 48 ≤ u.val then 0x0C02 else 0x0F01) 255 [c.val] s)) ∧
    (∀ (c : Fin 5) (r : Nat), atBoundary s = true → (u.val, r) ∈ s.lko.pendFence → r < s.ran → isFenced s u = false →
      ∃ t, exec (.fenceRaise u c) s = .next t ∧
        t.lko.pendFence = s.lko.pendFence.filter (fun e => !(e.1 == u.val && decide (e.2 < s.ran))) ∧
        (unitSt t u).fenced = true ∧ (unitSt t u).epoch = (x.epoch + 1) % 16 ∧ (unitSt t u).epochRing = s.ring ∧
        (unitSt t u).with_ = u.val ∧
        (∀ y ∈ withUnits s u, isFenced s y = false → (unitSt t y).fenced = true ∧ (unitSt t y).with_ = u.val ∧
          (unitSt t y).epoch = ((unitSt s y).epoch + 1) % 16) ∧
        (∀ y, y ≠ u.val → y ∉ withUnits s u → unitSt t y = unitSt s y)) ∧
    (∀ c : Fin 5, fencePending s u = false → (c.val = 0 ∨ fenceCauses u < c.val ∨ unitPresent s.variant u = false) →
      exec (.fenceRaise u c) s = .next s) ∧
    (16 ≤ u.val → u.val < 32 → exec (.lossOfLock u) s = .next (fenceCause u 1 s)) ∧
    (32 ≤ u.val → u.val < 34 → exec (.lossOfLock u) s = .next (fenceCause u 3 s)) ∧
    (48 ≤ u.val → exec (.lossOfLock u) s = .next (fenceCause u 4 s)) ∧
    (x.fenced = true → x.ready = false → x.retired = false → x.resetting = false → x.epochRing < s.ring → resetWaits s u = false →
      exec (.unitReset u) s = .next (modUnit u (fun x => { x with resetting := true }) s)) ∧
    ((x.fenced = false ∨ x.ready = true ∨ x.retired = true ∨ s.ring ≤ x.epochRing ∨ resetWaits s u = true) → exec (.unitReset u) s = .next s) ∧
    (x.resetting = true → exec (.firebreakReady u true) s = .next (readyEvent u 0 (reload u
      (modUnit u (fun x => { x with resetting := false, ready := true }) s)))) ∧
    (x.resetting = true → x.attempts < 2 → exec (.firebreakReady u false) s = .next (readyEvent u 1
      (modUnit u (fun x => { x with attempts := (unitSt s u).attempts + 1, resetting := true, retired := false })
        (note u 0x0F02 255 [x.attempts + 1] (cnt .lkoResetFail u 0 1 s))))) ∧
    (x.resetting = true → 2 ≤ x.attempts → exec (.firebreakReady u false) s = .next (readyEvent u 2
      (modUnit u (fun x => { x with attempts := (unitSt s u).attempts + 1, resetting := false, retired := true })
        (note u 0x0F02 255 [x.attempts + 1] (cnt .lkoResetFail u 0 1 s))))) ∧
    (x.resetting = false → ∀ ok, exec (.firebreakReady u ok) s = .next s)

/-- Restarts (R433, R481, R483, R496, R510, R511, R513): a watchdog timeout records its RESTART-class fault, stops every mailbox and has
the device restart due at the next boundary; a function level reset does so too, clears the MSI-X table and the configuration space (R412; log entry 128) and retrains the PCIe link;
the restart, at the boundary where it is due, makes the mode SEALED with no frame, cut, session or mailbox left, lets the ring number run through, and keeps the
configuration records and what MRAM holds; before it is due, and within a ring, nothing happens. Factory injections (R500): outside factory test mode none happens; in it an entry whose ring has come raises its fault with
code 0x0F09 and the injected code in word 0, in the class of the entry, and is used up. An entry whose ring a grid step passed over waits
for the boundary after it (R53), which is what `dueRing` says. -/
def Obligations.RestartsAndInjections : Prop :=
  (∀ s : State, halted s = false →
     (let t := newRec 2 0x46 0x0F05 255 (unitSt s 0x46).epoch [] s
      exec .watchdog s = .next { t with host := { t.host with stopped := true },
                                        lko := { t.lko with restartAt := some (min (t.lko.restartAt.getD (s.ran + 1)) (s.ran + 1)) } }) ∧
     (s.lko.restartAt = none → ∃ rate width, exec .functionLevelReset s = .next { s with
       host := { s.host with vec := [], stopped := true, pcieRate := rate, pcieWidth := width, devCtl := 0x2810#16, aer := 0 },
       lko := { s.lko with restartAt := some (s.ran + 1) }, freeCtr := s.freeCtr + 2 } ∧
       1 ≤ rate ∧ rate ≤ 5 ∧ width ∈ [1, 2, 4, 8]) ∧
     (s.lko.restartAt = none → exec .deviceRestart s = .next s) ∧
     (∀ r, s.lko.restartAt = some r → s.ran < r → exec .deviceRestart s = .next s) ∧
     (atBoundary s = false → exec .deviceRestart s = .next s) ∧
     (∀ r, s.lko.restartAt = some r → r ≤ s.ran → atBoundary s = true → ∃ t, exec .deviceRestart s = .next t ∧
       t.md.mode = .sealed ∧ t.md.since = s.ring ∧ t.ring = s.ring ∧ t.clock = s.clock ∧ t.lko.restartAt = none ∧
       t.items = [] ∧ t.cut.cuts = [] ∧ t.em.ents = [] ∧ t.lnd.frames = [] ∧ t.lnd.pipe = [] ∧ t.trust.sess = [] ∧
       t.trust.cutKey = [] ∧ (∀ k ∈ t.trust.keys, k.2.owner = none) ∧ (∀ c, (mbxOf t c).enabled = false) ∧
       (∀ p, (port t p).up = false ∧ (tabWf {} s.link.port = true → (port t p).cfg = (port s p).cfg)) ∧ (∀ u, unitSt t u = {}) ∧
       t.tim.cart = s.tim.cart ∧ t.tim.ctl = s.tim.ctl ∧ t.tim.src = s.tim.src ∧ t.lnd.cfg = s.lnd.cfg ∧ t.dram.cfg = s.dram.cfg ∧
       t.buf.spill = s.buf.spill ∧ t.sch.bank = s.sch.bank ∧ t.cmp.att = s.cmp.att ∧ t.md.ntrim = s.md.ntrim ∧
       t.trust.ownerKeys = s.trust.ownerKeys ∧ t.trust.binding = s.trust.binding ∧ t.lko.log = s.lko.log ∧ t.lko.recs = s.lko.log ∧
       t.lko.factory = s.lko.factory ∧ t.saved = s.saved)) ∧
  (∀ (s : State) (r u k code : Nat), halted s = false →
     let v : State := { s with lko := { s.lko with inject := [] } }
     (s.lko.factory = false → exec .faultInject s = .next s) ∧
     (s.lko.factory = true → s.lko.inject = [(r, u, k, code)] → r ≤ dueRing s → unitPresent s.variant u = true →
       (k = 0 → exec .faultInject s = .next (note u 0x0F09 255 [code] v)) ∧
       (k = 1 → exec .faultInject s = .next (fenceFault u 0x0F09 255 [code] v)) ∧
       (k = 2 → exec .faultInject s = .next (restartFault u 0x0F09 255 [code] v)) ∧
       (k = 3 → exec .faultInject s = .next (haltFault u 0x0F09 255 [code] v))) ∧
     (s.lko.factory = true → s.lko.inject = [(r, u, k, code)] → dueRing s < r → exec .faultInject s = .next s))

/-! ## Modes and low-power measures (R503 to R519) -/

/-- Modes (R496, R503, R506, R508, R509): QUIESCED is posted once after an entry into FROZEN or STAGED; bring-up without a failed
unit enters STAGED where the module is claimed and stays SEALED where it is not; 16 rings later a module that had a base bundle,
no restart hold and no load or MODE_SET that waits enters FORWARDING, DEGRADED where a unit is fenced, and a held one stays; a fence turns FORWARDING into DEGRADED
and the last lift turns DEGRADED into FORWARDING; a mode changes at a ring boundary alone (R10). -/
def Obligations.ModeEvents : Prop :=
  (∀ s : State, halted s = false → atBoundary s = true →
    (s.md.quiesced = false → (s.md.mode = .frozen ∨ s.md.mode = .staged) → quiet s = true →
      exec .quiesced s = .next (modeState s.md.mode.code s.md.mode.code 0 true { s with md := { s.md with quiesced := true } })) ∧
    ((s.md.quiesced = true ∨ quiet s = false ∨ (s.md.mode ≠ .frozen ∧ s.md.mode ≠ .staged)) → exec .quiesced s = .next s) ∧
    (s.md.upStaged = none → exec .autoForwarding s = .next s) ∧
    (∀ r, s.md.upStaged = some r → s.ran < r + 16 → exec .autoForwarding s = .next s) ∧
    (∀ r, s.md.upStaged = some r → r + 16 ≤ s.ran → s.md.mode = .staged → s.par.base ≠ none → s.lko.restartHold = false →
      modePending s = false → basePending s = false → ∃ t, exec .autoForwarding s = .next t ∧ t.md.since = s.ring ∧ t.md.upStaged = none ∧
        t.md.mode = (if anyFenced s then .degraded else .forwarding)) ∧
    (∀ r, s.md.upStaged = some r → r + 16 ≤ s.ran → (s.lko.restartHold = true ∨ basePending s = true ∨ modePending s = true) →
      exec .autoForwarding s = .next { s with md := { s.md with upStaged := none } }) ∧
    (s.items = [] → s.md.mode = .sealed → s.md.upDone = false → s.md.upStop = false → s.trust.recovery = false →
      s.lko.restartAt = none → ∃ t, exec (.modeChange .staged []) s = .next t ∧ t.md.upDone = true ∧
        (s.trust.claimed = false → t.md.mode = .sealed) ∧
        (s.trust.claimed = true → t.md.mode = .staged ∧ t.md.upStaged = (if t.par.base.isSome then some s.ran else none) ∧
          t.lko.restartHold = (s.lko.restartHold || restartsMany s))) ∧
    (s.items = [] → s.md.upDone = true → exec (.modeChange .staged []) s = .next s) ∧
    (s.items = [] → s.md.mode = .forwarding → anyFenced s = true →
      exec (.modeChange .degraded []) s = .next (setMode .degraded 2 s)) ∧
    (s.items = [] → s.md.mode = .degraded → anyFenced s = false →
      exec (.modeChange .forwarding []) s = .next (setMode .forwarding 3 s)) ∧
    (s.items = [] → s.md.mode = .forwarding → anyFenced s = false → exec (.modeChange .degraded []) s = .next s)) ∧
  (∀ (s : State) (m : Mode) (f : List (Fin 75)), halted s = false → atBoundary s = false →
    exec .quiesced s = .next s ∧ exec .autoForwarding s = .next s ∧ exec (.modeChange m f) s = .next s)

/-- Low power (R515 to R518): a pipeline whose two groups sleep and which holds no frame is gated and its clocks stop counting,
and a pipeline in use is not; one that is ready no longer wakes; a night-trim step applies at the boundary its ring has come to,
and only then: its groups sleep or wake, a fenced group's state being recorded with its cause (R515), and its idle time replaces `DRAM.CFG.IDLE_RINGS` or returns it. -/
def Obligations.LowPower : Prop :=
  ∀ s : State, halted s = false → s.md.sleepDue = [] →
    (atBoundary s = false → exec .nightTrimStep s = .next s ∧ ∀ p : Fin 8, exec (.pipelineGate p) s = .next s) ∧
    (∀ p : Fin 8, atBoundary s = true → asleep s (2 * p.val) = true → asleep s (2 * p.val + 1) = true → pipeEmpty s p = true →
      tget false s.md.gated (k1 p) = false →
      exec (.pipelineGate p) s = .next (cycleStop (uIngress p) (cycleStop (uEgress p) { s with md := { s.md with
        gated := tput false s.md.gated (k1 p) true, waking := tput false s.md.waking (k1 p) false } }))) ∧
    (∀ p : Fin 8, (asleep s (2 * p.val) = false ∨ asleep s (2 * p.val + 1) = false ∨ pipeEmpty s p = false) →
      exec (.pipelineGate p) s = .next s) ∧
    (∀ p : Fin 8, exec (.pipelineReady p) s =
      .next { s with md := { s.md with waking := tput false s.md.waking (k1 p) false } }) ∧
    (let u : State := { s with md := { s.md with trimDone := s.ring } }
     atBoundary s = true →
     (ntEnabled s.md.ntrim = false → exec .nightTrimStep s = .next u) ∧
     (ntPassed s.md.ntrim (s.md.trimDone) s.ring = false → exec .nightTrimStep s = .next u) ∧
     (ntEnabled s.md.ntrim = true → ntPassed s.md.ntrim (s.md.trimDone) s.ring = true →
      ∀ e, ntInForce s.md.ntrim s.ring = some e → ∃ t, exec .nightTrimStep s = .next t ∧
        t.md.idleOverride = (if leAt e 10 1 = 1 then some (leAt e 12 4) else none) ∧
        (∀ g, g < 16 → groupFenced s g = false → asleep t g = (leAt e 8 2).testBit g) ∧
        (∀ g, g < 16 → groupFenced s g = true → asleep t g = asleep s g ∧
          tget (false, 0) t.md.sleepRec (k1 g) = ((leAt e 8 2).testBit g, 1))))

/-! ## The redundant pair (R539 to R553) -/

/-- Link and heartbeats (R540, R541, R544, R545): a HELLO with the peer's identifier sets its nonce and starts its `SEQ`, one with
another is counted; a heartbeat goes out once in every ring that is a multiple of 1,000 with the next `SEQ` and its transmit time at the
cage (log entry 132), and its frame with it; a
message whose tag fails, whose `SEQ` does not rise, or that comes before the key is formed is counted and discarded; one that is
accepted is the last heartbeat of the peer, and the grid offset is taken where it names one of ours and follows the last; the
loss of the peer is found at the boundary 10,000 rings after its last heartbeat; the link found lost goes down at the next boundary (R79). -/
def Obligations.PairLink : Prop :=
  ∀ s : State, halted s = false →
    (∀ nonce id : BitVec 128, pairMayRun s = true → s.pair.linkUp = true → (pairEn s = true → id.toNat = s.pair.peerId) →
      exec (.hello nonce id) s = .next { s with pair := { s.pair with hello := some (id.toNat, nonce.toNat), rxSeq := 0 } }) ∧
    (∀ nonce id : BitVec 128, pairMayRun s = true → s.pair.linkUp = true → pairEn s = true → id.toNat ≠ s.pair.peerId →
      exec (.hello nonce id) s = .next (cnt .pairMsgReject 0 0 1 s)) ∧
    (∀ nonce id : BitVec 128, pairMayRun s = false → exec (.hello nonce id) s = .next s) ∧
    (∀ time : Nat, pairKeyed s = true → s.ring % 1000 = 0 → s.pair.hbRan ≠ s.ran + 1 →
      ∃ t, exec (.heartbeatSend time) s = .next t ∧ t.pair.txSeq = s.pair.txSeq + 1 ∧
        t.pair.txLog = ((s.pair.txSeq, hbTime s true time) :: s.pair.txLog).take 64 ∧ t.pair.hbRan = s.ran + 1 ∧
        t.pair.sent = ((2, hbBody s) :: s.pair.sent).take 64 ∧
        t.pair.frames = (pairFrame 2 (hbBody s) s :: s.pair.frames).take 64 ∧
        ctrGet t .pairHbTx 0 0 = (ctrGet s .pairHbTx 0 0 + 1) % 2 ^ 64 ∧ t.pair.role = s.pair.role) ∧
    (∀ time : Nat, (pairKeyed s = false ∨ s.ring % 1000 ≠ 0 ∨ s.pair.hbRan = s.ran + 1) → exec (.heartbeatSend time) s = .next s) ∧
    (∀ (seq : BitVec 64) (ok : Bool) (body : List Byte) (time : Nat), s.pair.linkUp = true →
      (pairKeyed s = false ∨ ok = false ∨ seq.toNat ≤ s.pair.rxSeq) →
      exec (.heartbeat seq ok body time) s = .next (cnt .pairMsgReject 0 0 1 s)) ∧
    (∀ (seq : BitVec 64) (ok : Bool) (body : List Byte) (time : Nat), s.pair.linkUp = false →
      exec (.heartbeat seq ok body time) s = .next s) ∧
    (∀ (seq : BitVec 64) (body : List Byte) (time : Nat), s.pair.linkUp = true → pairKeyed s = true → s.pair.rxSeq < seq.toNat →
      ∃ t, exec (.heartbeat seq true body time) s = .next t ∧ t.pair.peer = body ∧ t.pair.tRx = hbTime s false time ∧ t.pair.rxHbSeq = seq.toNat ∧
        t.pair.rxSeq = seq.toNat ∧ t.pair.lastHb = s.ran ∧ t.pair.lastHbRing = s.ring ∧ t.pair.live = true ∧ t.pair.role = s.pair.role ∧
        (∀ k ta, s.pair.txLog.find? (fun e => e.1 == leAt body 32 8) = some (k, ta) → s.pair.peer ≠ [] →
          hbAt s 0 8 + 1000 = leAt body 0 8 →
          t.pair.offset = (((leAt body 24 8 : Int) - ta) - ((s.pair.tRx : Int) - leAt body 16 8)) / 2) ∧
        (s.pair.peer = [] → t.pair.offset = s.pair.offset)) ∧
    (atBoundary s = true → s.pair.live = true → s.pair.lastHb + 10000 ≤ s.ran → exec (.heartbeatLost false) s = .next (hbLost s)) ∧
    (s.ran < s.pair.lastHb + 10000 ∨ atBoundary s = false → exec (.heartbeatLost false) s = .next s) ∧
    exec (.heartbeatLost true) s = .next { s with pair := { s.pair with downDue := true } } ∧
    (s.pair.downDue = false → pairStep s = s) ∧
    (s.pair.downDue = true → let t := pairStep s; t.pair.linkUp = false ∧ t.pair.live = false ∧ pairKeyed t = false ∧
      t.pair.downDue = false ∧ t.pair.role = s.pair.role)

/-- Switchovers and notices (R547 to R549): SWITCH is acknowledged and stands pending, one at another boundary than a pending one
cancels; SWITCH_ACK acknowledges the pending one, SWITCH_CANCEL takes it back, and so does the missing acknowledgement at the
boundary of T − 1, with a SWITCH_CANCEL to the peer; at T the roles of an acknowledged switchover swap, and one not acknowledged
is cancelled; learn notices go out at most 24 in a message and 8,192 in a ring, and those of the peer are posted. -/
def Obligations.PairRoles : Prop :=
  ∀ s : State, halted s = false →
    (∀ seq t : BitVec 64, s.pair.linkUp = true → pairKeyed s = true → s.pair.rxSeq < seq.toNat →
      let u : State := { s with pair := { s.pair with rxSeq := seq.toNat } }
      (s.pair.pend = none → ∃ v, exec (.switch seq true t) s = .next v ∧ v.pair.pend = some (t.toNat, false, true) ∧
        v.pair.sent = ((4, leBytes 8 t.toNat) :: s.pair.sent).take 64 ∧ v.pair.role = s.pair.role) ∧
      (∀ t' o a, s.pair.pend = some (t', o, a) → t' ≠ t.toNat →
        exec (.switch seq true t) s = .next (pairCancel (pairSend 5 (leBytes 8 t.toNat) u))) ∧
      (∀ o a, s.pair.pend = some (t.toNat, o, a) →
        exec (.switchAck seq true t) s = .next { u with pair := { u.pair with pend := some (t.toNat, o, true) } } ∧
        exec (.switchCancel seq true t) s = .next (pairCancel u)) ∧
      (s.pair.pend = none → exec (.switchAck seq true t) s = .next u ∧ exec (.switchCancel seq true t) s = .next u) ∧
      (∀ body, exec (.notice seq true body) s = .next (noticeTake body u))) ∧
    (∀ (seq t : BitVec 64) (body : List Byte), s.pair.linkUp = true → seq.toNat ≤ s.pair.rxSeq → ∀ ok,
      let bad := cnt .pairMsgReject 0 0 1 s
      exec (.switch seq ok t) s = .next bad ∧ exec (.switchAck seq ok t) s = .next bad ∧
        exec (.switchCancel seq ok t) s = .next bad ∧ exec (.notice seq ok body) s = .next bad) ∧
    (atBoundary s = false → exec .roleSwap s = .next s ∧ exec .switchAckTimeout s = .next s) ∧
    (∀ t, atBoundary s = true → s.pair.pend = some (t, true, false) →
      (t ≤ s.ring + 1 → exec .switchAckTimeout s = .next (pairSend 5 (leBytes 8 t) (pairCancel s))) ∧
      (s.ring + 1 < t → exec .switchAckTimeout s = .next s)) ∧
    (∀ t o a, atBoundary s = true → s.pair.pend = some (t, o, a) →
      (s.ring < t → exec .roleSwap s = .next s) ∧
      (t ≤ s.ring → (o = false ∨ a = true) → ∃ v, exec .roleSwap s = .next v ∧ v.pair.role = !s.pair.role ∧
        v.pair.roleRing = s.ring ∧ v.pair.pend = none) ∧
      (t ≤ s.ring → o = true → a = false → exec .roleSwap s = .next (pairCancel s))) ∧
    (s.pair.pend = none → exec .roleSwap s = .next s ∧ exec .switchAckTimeout s = .next s) ∧
    (let n := min 24 (8192 - s.pair.ringNotices)
     let l := s.pair.queue.take n
     (pairKeyed s = true → l ≠ [] → ∃ t, exec .noticeSend s = .next t ∧ t.pair.queue = s.pair.queue.drop l.length ∧
        t.pair.ringNotices = s.pair.ringNotices + l.length ∧ t.pair.ringNotices ≤ max 8192 s.pair.ringNotices ∧ l.length ≤ 24 ∧
        t.pair.sent = ((6, l.flatMap (fun e => e.2.2)) :: s.pair.sent).take 64 ∧
        ctrGet t .pairNoticeTx 0 0 = (ctrGet s .pairNoticeTx 0 0 + l.length) % 2 ^ 64) ∧
     ((pairKeyed s = false ∨ l = []) → exec .noticeSend s = .next s)) ∧
    (∀ (n : List Byte) (c : Nat), n.length = 49 → c = leAt n 0 1 →
      (c < 32 → pairMirror s c = true → (mbxOf s c).enabled = true → noticeTake n s = post c 0x1102 (n.drop 1) s) ∧
      ((32 ≤ c ∨ pairMirror s c = false ∨ (mbxOf s c).enabled = false) →
        noticeTake n s = cnt .pairNoticeDropped 0 0 1 s))

/-! ## Trust and sessions (R458 to R477) -/

/-- SPDM (R463, R464, R466, R467, R498): version, capabilities and algorithms are asked in that order; digests, certificates and
measurement blocks are answered after them and change nothing; an offered key that R466 accepts is kept, one that it does not
is counted and noted, and one offered inside a session is refused and counted; FINISH after KEY_EXCHANGE opens the transport's one session under that key, in place of an older one, and
binds an unbound compartment; END_SESSION and 60 s without a message end it; a request out of order is answered with an SPDM
ERROR and changes nothing. In HALTED the port answers the six requests of R498 alone, and in ROM recovery the management port refuses and
counts what a session needs (R460, R469). -/
def Obligations.SpdmExchange : Prop :=
  ∀ (s : State) (tr : Fin 33), transportOpen s tr = true →
    let x := spdmOf s tr
    let error := replied tr none s
    (tr = 32 → s.trust.recovery = true →
      (∀ key, exec (.keyOffer ⟨tr, false⟩ key) s = .next (if halted s then error else replied tr none (cnt .secReqDenied 0 0 1 s))) ∧
      (halted s = false → exec (.keyExchange tr) s = .next (replied tr none (cnt .secReqDenied 0 0 1 s)) ∧
        (∀ ok, exec (.finish tr ok) s = .next (replied tr none (cnt .secReqDenied 0 0 1 s))) ∧
        exec (.endSession tr) s = .next (replied tr none (cnt .secReqDenied 0 0 1 s)))) ∧
    exec (.getVersion tr) s =
      .next (replied tr (some (spdmMsg 0x04 (packLE [(1, 0), (1, 1), (2, 0x1300)]))) (setSpdm tr { version := true } s)) ∧
    (x.version = true → exec (.getCapabilities tr) s =
      .next (replied tr (some (spdmMsg 0x61 spdmCaps)) (setSpdm tr { x with caps := true } s))) ∧
    (x.caps = true → exec (.negotiateAlgorithms tr) s =
      .next (replied tr (some (spdmMsgP 0x63 4 spdmAlgs)) (setSpdm tr { x with algs := true } s))) ∧
    (x.algs = true →
      exec (.getDigests tr) s = .next (replied tr (some (spdmMsgP 0x01 3 (digest (certChain 0) ++ digest (certChain 1)))) s) ∧
      (∀ slot, slot < 2 → exec (.getCertificate tr slot) s =
        .next (replied tr (some (spdmMsgP 0x02 slot (certChain slot))) s)) ∧
      (∀ slot, 2 ≤ slot → exec (.getCertificate tr slot) s = .next error) ∧
      (∀ i : BitVec 8, exec (.getMeasurements tr i) s = .next (replied tr (some (spdmMsg 0x60 (measBlock s i.toNat))) s))) ∧
    (x.version = false → exec (.getCapabilities tr) s = .next error) ∧
    (x.algs = false → exec (.getDigests tr) s = .next error ∧ ∀ i : BitVec 8, exec (.getMeasurements tr i) s = .next error) ∧
    (halted s = true → ∀ key ok inside, exec (.keyOffer ⟨tr, inside⟩ key) s = .next error ∧ exec (.keyExchange tr) s = .next error ∧
      exec (.finish tr ok) s = .next error ∧ exec (.endSession tr) s = .next error) ∧
    (halted s = false → (tr ≠ 32 ∨ s.trust.recovery = false) →
      (∀ key, x.algs = true → keyAccepted s tr key = true → exec (.keyOffer ⟨tr, false⟩ key) s =
        .next (replied tr (some (spdmMsg 0x7E [])) (setSpdm tr { x with offered := some key, keyEx := false } s))) ∧
      (∀ key, x.algs = true → keyAccepted s tr key = false →
        exec (.keyOffer ⟨tr, false⟩ key) s = .next (replied tr none (authFail tr s))) ∧
      (∀ key, exec (.keyOffer ⟨tr, true⟩ key) s = .next (replied tr none (cnt .secReqDenied 0 0 1 s))) ∧
      (x.offered ≠ none → exec (.keyExchange tr) s =
        .next (replied tr (some (spdmMsgP 0x64 30 (Config.crypto 28 [Config.fusedKey 0]))) (setSpdm tr { x with keyEx := true } s))) ∧
      (x.offered = none → exec (.keyExchange tr) s = .next error ∧ ∀ ok, exec (.finish tr ok) s = .next error) ∧
      (∀ key, x.offered = some key → x.keyEx = true → keyAccepted s tr key = true →
        ∃ t, exec (.finish tr true) s = .next t ∧ session t tr = some { key := key, lastMsg := s.ran, ems := s.freeCtr } ∧
          (∀ c, c ≠ tr.val → session t c = session s c) ∧ t.trust.ownerKeys = s.trust.ownerKeys ∧
          (0 < tr.val → tr.val < 32 → tget [] s.trust.binding (k1 tr) = [] → tget [] t.trust.binding (k1 tr) = key) ∧
          ((tr.val = 0 ∨ tr.val = 32 ∨ tget [] s.trust.binding (k1 tr) ≠ []) → t.trust.binding = s.trust.binding)) ∧
      (exec (.finish tr false) s = .next error) ∧
      (session s tr ≠ none → exec (.endSession tr) s = .next (replied tr (some (spdmMsg 0x6C [])) (closeSession tr s))) ∧
      (session s tr = none → exec (.endSession tr) s = .next error)) ∧
    (∀ y, session s tr = some y → y.lastMsg + 60000000 ≤ s.ran → exec (.sessionTimeout tr) s = .next (closeSession tr s)) ∧
    (∀ y, session s tr = some y → s.ran < y.lastMsg + 60000000 → exec (.sessionTimeout tr) s = .next s) ∧
    (session s tr = none → exec (.sessionTimeout tr) s = .next s) ∧
    session (closeSession tr s) tr = none

/-- The requests of the management port (R460, R469): FW_LOAD writes the slot that does not run, inside a session of CID 0, or in
ROM recovery over the port; CID0_PASID_SET takes effect at the next boundary, refused while CID 0's mailbox is enabled or the
PASID is bound elsewhere; MGMT_LAENT carries five commands of CID 0, whose Laent response is the reply, and a RESTART is due 16 rings after it (R433); whatever is not admitted
is answered with an SPDM ERROR and counted. -/
def Obligations.ManagementPort : Prop :=
  ∀ s : State, halted s = false →
    let u := sessMsg 32 s
    let slot (v : Bool) (sec : Fin 64) (ver : FwImage) : FwSlot := { valid := v, secVersion := sec, version := ver.version, bytes := ver.bytes }
    (∀ v sec ver, s.trust.recovery = false → session s 32 ≠ none →
      ∃ t, exec (.fwLoad 32 v sec ver) s = .next t ∧ t.host.mgmtReply = some { rsp := { data := [] } } ∧
        (s.trust.runB = true → t.trust.fwA = slot v sec ver ∧ t.trust.fwB = s.trust.fwB) ∧
        (s.trust.runB = false → t.trust.fwB = slot v sec ver ∧ t.trust.fwA = s.trust.fwA) ∧
        t.trust.runB = s.trust.runB ∧ t.trust.rollback = s.trust.rollback) ∧
    (∀ v sec ver, s.trust.recovery = true → ∃ t, exec (.fwLoad 32 v sec ver) s = .next t ∧
      (s.trust.runB = false → t.trust.fwB = slot v sec ver ∧ t.trust.fwA = s.trust.fwA)) ∧
    (∀ v sec ver, s.trust.recovery = false → session s 32 = none → exec (.fwLoad 32 v sec ver) s = .next (mgmtDeny s)) ∧
    (∀ (tr : Fin 33) v sec ver, tr.val ≠ 32 → (tr.val ≠ 0 ∨ session s tr = none ∨ s.trust.recovery = true) →
      exec (.fwLoad tr v sec ver) s = .next (cnt .secReqDenied 0 0 1 s)) ∧
    (∀ p : BitVec 20, s.trust.recovery = false → session s 32 ≠ none →
      ((mbxOf s 0).enabled = false → (∀ c ∈ allCids, c ≠ 0 → cmpDefined s c = true → (cmpOf s c).pasid ≠ p.toNat) →
        exec (.cid0PasidSet p) s = .next (mgmtOk [] { u with trust := { u.trust with pasidNext := some p.toNat } })) ∧
      ((mbxOf s 0).enabled = true → ∃ t, exec (.cid0PasidSet p) s = .next t ∧ t.trust.pasidNext = s.trust.pasidNext ∧
        t.host.mgmtReply = some { rsp := { status := .denied, data := spdmBytes none } })) ∧
    (∀ p : BitVec 20, session s 32 = none → exec (.cid0PasidSet p) s = .next (mgmtDeny s)) ∧
    (∀ (o : Op) (q : Req), (session s 32 = none ∨ s.trust.recovery = true ∨
        o ∉ [Op.identityRead, .faultRead, .modeSet, .restart, .calExport]) → exec (.mgmtLaent o q) s = .next (mgmtDeny s)) ∧
    (∀ (o : Op) (q : Req), session s 32 ≠ none → s.trust.recovery = false →
      o ∈ [Op.identityRead, .faultRead, .modeSet, .restart, .calExport] →
      let r := evalOp (mgmtOp o) (mgmtReq o q) s.ring u
      ∃ t, exec (.mgmtLaent o q) s = .next t ∧ t.items = r.1.st.items ++ r.2.toList ∧
        t.lko = (if o = .restart ∧ r.1.status = .ok then restartBy (restartRing r.1.st) r.1.st else r.1.st).lko ∧
        t.host.mgmtReply = some { rsp := { rspOf o (mgmtReq o q) s.ring r.1 with rotation := (cmpOf t 0).rotation } })

/-! ## The ring boundary (R416, R422, R581) -/

/-- The rows of a landing (R416, R422): where one command waits and its boundary has come, COMMAND_LANDING and the row of its kind
carry out its effect, once, and answer it where its response follows the effect; before its boundary, and away from a ring boundary,
nothing happens. The rotation of a definition that will be made changes before it lands (R443), and the ports that a landing resets go down after it (R581). -/
def Obligations.LandingRows : Prop :=
  ∀ (s : State) (i : Item), halted s = false → s.items = [i] → i.op ≠ .barrier → s.link.downs8 = [] → s.md.sleepDue = [] →
    let v : State := { s with items := [] }
    let t := if i.rsp = true then answerLater i.op i.req i.v i.sec v (landAns i v) else (landAns i v).st
    (atBoundary s = true → i.due ≤ s.ring →
      (i.op ∉ [Op.cmpDefine, .groupSleep, .firebreakLift] → exec .commandLanding s = .next (sleepStep (downStep t))) ∧
      ((i.op = .groupSleep ∨ i.op = .firebreakLift) → exec .commandLanding s = .next t) ∧
      (i.op = .cmpDefine → exec .commandLanding s = .next (sleepStep (downStep (landOne i
        (if i ∈ definesLand [i] s then cmpRotate i.req.arg1.toNat none s else s))))) ∧
      (∀ p : Fin 64, i.op = .gateSwitch → i.req.arg1.toNat = p.val → exec (.gateBankSwitch p) s = .next t) ∧
      (i.op = .emFlush → exec .learnedFlush s = .next t) ∧
      ((i.op = .cutCommit ∨ i.op = .cutCommitSigned) → exec (.cutLand i.req.cid) s = .next t) ∧
      (i.op = .baseBundleLoad → exec .graphSwap s = .next t) ∧
      (∀ c : Fin 32, i.req.who = c.val →
        (i.op ∈ [Op.cmpReset, .save, .restore, .cmpDefine] → exec (.rotationChange c) s = .next t) ∧
        (i.op = .freeze → exec (.freezeLand c) s = .next t) ∧ (i.op = .thaw → exec (.thawLand c) s = .next t)) ∧
      (∀ u : Fin 64, i.op = .firebreakLift → i.req.arg1.toNat = u.val → exec (.firebreakLifted u) s = .next t) ∧
      (i.op = .modeSet → i.req.arg1.toNat = 3 → exec (.modeChange .frozen []) s = .next t)) ∧
    (s.ring < i.due ∨ atBoundary s = false → exec .commandLanding s = .next s ∧ exec .learnedFlush s = .next s ∧ exec .graphSwap s = .next s ∧
      ∀ (p u : Fin 64) (c : Fin 32), exec (.gateBankSwitch p) s = .next s ∧ exec (.cutLand c) s = .next s ∧
        exec (.rotationChange c) s = .next s ∧ exec (.freezeLand c) s = .next s ∧ exec (.thawLand c) s = .next s ∧
        exec (.firebreakLifted u) s = .next s)

/-- What record writes, freezes, thaws, flushes and mode changes leave at their boundary (R60, R72, R90, R173, R294, R326, R360,
R371, R382, R445, R447, R503, R515, R530): the record as written, its reserved bits zero, and nothing else of the kind. -/
def Obligations.LandingEffects : Prop :=
  ∀ (s : State) (i : Item), halted s = false → atBoundary s = true → s.items = [i] → i.rsp = false → i.due ≤ s.ring →
    s.link.downs8 = [] → s.md.sleepDue = [] →
    let v : State := { s with items := [] }
    let q := i.req
    (i.op = .lndCfgWrite → exec .commandLanding s =
      .next { v with lnd := { v.lnd with cfg := BitVec.ofNat 64 (leNat q.payload &&& 0x7FF1FFF) } }) ∧
    (i.op = .dramCfgWrite → exec .commandLanding s =
      .next { v with dram := { v.dram with cfg := BitVec.ofNat 64 (leNat q.payload % 2 ^ 36) } }) ∧
    (i.op = .timCtlWrite → exec .commandLanding s = .next { v with tim := { v.tim with
      ctl := setFld (setFld (rec128 q.payload) 15 2 0) 127 72 0 } }) ∧
    (i.op = .blazeCfgWrite → exec .commandLanding s = .next { v with ctr := { v.ctr with
      blz := setFld (setFld (rec128 q.payload) 127 94 0) 82 82 0,
      blzWas := s.ctr.blzWas ++ [(min i.due s.ring, s.ctr.blz)] } }) ∧
    (i.op = .radioWinWrite → exec .commandLanding s = .next (modPort q.arg1.toNat
      (fun r => { r with win := setFld (rec32 q.payload 0) 31 13 0 }) v)) ∧
    (i.op = .tallyCfgWrite → exec .commandLanding s = .next (modTly q.c
      (fun t => { t with cfg := setFld t.cfg 4 0 (leNat q.payload) }) v)) ∧
    (i.op = .counterProgram → exec .commandLanding s = .next { v with ctr := { v.ctr with
      prog := tput {} v.ctr.prog (k1 q.arg1.toNat) { sel := (selsOf q.payload).map selMask } } }) ∧
    (i.op = .cvArm → exec .commandLanding s = .next (modCv (q.a1 31 28) (fun c => { c with
      reg := cvInit c, last := 0, xsum := 0, frames := 0, bytes := 0, armed := true, done := false, start := i.due,
      dur := q.a1 26 0 }) v)) ∧
    (i.op = .secyWrite → secyMine v q = true → exec .commandLanding s = .next (modSecy (qPort q) (qSecy q)
      (fun y => { y with rec_ := ownerFields y.rec_ (rec128 q.payload) }) v)) ∧
    (i.op = .secyWrite → secyMine v q = false → exec .commandLanding s = .next v) ∧
    (i.op = .emFlush → exec .commandLanding s = .next (emFlush
      (fun e => e.cid == q.c && e.table == q.a1 3 0 && (q.a1 8 8 == 0 || resNames e.res (q.a1 14 9))) v)) ∧
    (i.op = .gateSwitch → ∃ t, exec .commandLanding s = .next t ∧ activeBank t q.arg1.toNat = 1 - activeBank s q.arg1.toNat ∧
      (∀ p, p ≠ q.arg1.toNat → activeBank t p = activeBank s p) ∧ t.sch.bank = s.sch.bank ∧
      ((∀ e ∈ s.sch.queue, e.1.1 = q.arg1.toNat → e.2 = []) → t.lnd = s.lnd)) ∧
    (i.op = .freeze → cmpDefined s q.who = true → ∃ t, exec .commandLanding s = .next t ∧ (cmpOf t q.who).frozen = true ∧
      (cmpOf t q.who).rotation = (cmpOf s q.who).rotation ∧ (∀ c, c ≠ q.who → cmpOf t c = cmpOf s c) ∧ t.em = s.em ∧
      (q.a1 9 8 = 0 → t.cut = s.cut ∧ t.lnd = s.lnd)) ∧
    (i.op = .thaw → cmpDefined s q.who = true → (cmpOf s q.who).frozen = true → ∃ t, exec .commandLanding s = .next t ∧
      (cmpOf t q.who).frozen = false ∧ (cmpOf t q.who).rotation = (cmpOf s q.who).rotation ∧
      (∀ c, c ≠ q.who → cmpOf t c = cmpOf s c) ∧ t.cut = s.cut ∧ t.em = s.em ∧ t.lnd = s.lnd) ∧
    (i.op = .modeSet → ∃ t, exec .commandLanding s = .next t ∧
      (q.arg1.toNat = 2 → (s.md.mode = .staged ∨ s.md.mode = .frozen) →
        t.md.mode = (if anyFenced s then .degraded else .forwarding) ∧ t.md.since = s.ring) ∧
      (q.arg1.toNat = 3 → (s.md.mode = .forwarding ∨ s.md.mode = .degraded) → t.md.mode = .frozen ∧ t.md.since = s.ring) ∧
      (q.arg1.toNat = 1 → (s.md.mode = .forwarding ∨ s.md.mode = .degraded ∨ s.md.mode = .frozen) →
        t.md.mode = .staged ∧ t.md.since = s.ring) ∧
      (modeFrom s.md.mode q.arg1.toNat = false → t = v)) ∧
    (i.op = .groupSleep → exec .commandLanding s = .next (groupSleepCmd (q.a1 3 0) (q.arg1.getLsbD 8) 0 v))

/-- The order of one boundary (R422): the commands that are due, and those alone, take effect in the order of their validation
rings, then of their compartments, and those that agree in both in the order in which they were accepted. -/
def Obligations.LandingOrder : Prop :=
  ∀ s : State,
    let due := s.items.filter (fun i => decide (i.due ≤ s.ring) && i.op != .barrier)
    (dueItems s).Perm due ∧
    (dueItems s).Pairwise (fun a b => a.v < b.v ∨ (a.v = b.v ∧ a.req.c ≤ b.req.c)) ∧
    ∀ v c, (dueItems s).filter (fun i => i.v == v && i.req.c == c) = due.filter (fun i => i.v == v && i.req.c == c)

/-- RING_BOUNDARY (R22, R496, R498, R511, R581): without power nothing happens, and where the rails are due to fall they do (R561;
log entry 133); a HALTED module keeps the grid alone; otherwise
the finished ring is closed, the clock starts again at 0 in the next ring, and the steps of the boundary follow in their order, or
the device restart that is due; what stands then is what every read of the ring takes (R420, R522). The common kerf image is written at the first boundary at which every engine and queue is empty
(R271), and its graph swaps when its bundle lands. -/
def Obligations.RingBoundary : Prop :=
  ∀ s : State,
    (s.pwr.on = false → exec .ringBoundary s = .next s) ∧
    (∀ r, s.pwr.on = true → s.pwr.fallAt = some r → r ≤ s.ran + 1 → exec .ringBoundary s = .next (takeSnap (railsFall (nextRing s)))) ∧
    (s.pwr.on = true → (∀ r, s.pwr.fallAt = some r → s.ran + 1 < r) → s.md.mode = .halted → exec .ringBoundary s = .next (takeSnap { s with
      ring := s.ring + 1, ran := s.ran + 1, clock := 0, tim := { s.tim with stepped := false } })) ∧
    (halted s = false → (∀ r, s.pwr.fallAt = some r → s.ran + 1 < r) →
      let u := finishRing s
      let n : State := { u with ring := u.ring + 1, ran := u.ran + 1, clock := 0, tim := { u.tim with stepped := false } }
      (restartNow n = true → ∃ t, exec .ringBoundary s = .next t ∧ t.md.mode = .sealed ∧ t.ring = u.ring + 1 ∧ t.clock = 0 ∧
        t.cut.cuts = [] ∧ t.lnd.frames = [] ∧ t.items = []) ∧
      (restartNow n = false → exec .ringBoundary s =
        .next (takeSnap (faultInject n.ring (dramTurn (cvOffersDue (guardTicks (pauseRings
          (boundarySteps (dueItems n) (freshRing n))))))))) ∧
      (∀ v, exec .ringBoundary s = .next v → atSnap v = { v with clock := 0 })) ∧
    (∀ l, boundarySteps l s = landAt 9 l (closingTests (stepPorts l (pairStep (linkStep (stepOther s.ring l (stepLearned s.ring l (stepCuts l
      (landAt 4 l (timEval (stepModes l (stepRotations l (openRing (landAt 1 l (fencesDue (fun _ => true) s))))))))))))))) ∧
    (halted s = false → atBoundary s = true →
      (s.krf.wait = none → exec .imageWrite s = .next s) ∧
      (enginesEmpty s = false → exec .imageWrite s = .next s) ∧
      (∀ b, s.krf.wait = some b → enginesEmpty s = true → ∃ t, exec .imageWrite s = .next t ∧ t.krf.wait = none ∧
        t.krf.resume = s.ran + 1 ∧ t.par.base = some { b with img := { b.img with ring := s.ring + 1 } } ∧ t.par.graph = s.par.graph))

/-! ## A frame from the wire to the planes (R20 to R31, R81, R100, R273 to R293) -/

/-- FRAME_RECEIVE (R21, R81, R100, R274, R301, R308): a port that is down takes nothing; RS codeword counts come first. MAC control takes
no cells and ends at the MAC: out of the lengths of its port it is counted in `RX_LEN`, with a bad FCS in `RX_FCS`, and otherwise,
but for PFC, in its own counter. Another frame takes its cells: the pool that cannot give them refuses it; one out of length or with
a bad FCS gives them back and is counted; one that link security discards gives them back; every other is accepted with them. An
accepted frame with a cut hands over one copy per egress port in order, to be enqueued 248 clocks after its verdict (and 40 more
behind link security), and every one of its cells has as many holders as it has copies. -/
def Obligations.FrameReceive : Prop :=
  (∀ (s : State) (p : Fin 64) (clk : Fin 1600) (rx : RxFrame), halted s = false →
    let u : State := { s with clock := clk.val }
    let f := cnt .rxFecUncorr p 0 rx.fecUncorr (cnt .rxFecCorr p 0 rx.fecCorr u)
    let n := rx.bytes.length + 4
    let most := fld (port s p).cfg 61 48
    ((port s p).up = false → exec (.frameReceive p clk rx) s = .next u) ∧
    ((port s p).up = true → beAt rx.bytes 12 2 = 0x8808 →
      (n < 64 ∨ most < n → exec (.frameReceive p clk rx) s = .next (cnt .rxLen p 0 1 f)) ∧
      (64 ≤ n → n ≤ most →
        (rx.fcsOk = false → exec (.frameReceive p clk rx) s = .next (cnt .rxFcs p 0 1 f)) ∧
        (rx.fcsOk = true → beAt rx.bytes 14 2 = 0x0001 →
          exec (.frameReceive p clk rx) s = .next (cnt .rxPauseIgnored p 0 1 f)) ∧
        (rx.fcsOk = true → beAt rx.bytes 14 2 ≠ 0x0001 → beAt rx.bytes 14 2 ≠ 0x0101 →
          exec (.frameReceive p clk rx) s = .next (cnt .rxMacCtlOther p 0 1 f)))) ∧
    ((port s p).up = true → beAt rx.bytes 12 2 ≠ 0x8808 → ∀ cells g, let pool := rxPool g p n
      (rxTake p rx f = (cells, false, g) → exec (.frameReceive p clk rx) s = .next (rxRefuse p rx.bytes cells g)) ∧
      (rxTake p rx f = (cells, true, g) →
        (n < 64 ∨ most < n → exec (.frameReceive p clk rx) s = .next (rxGive p pool cells (cnt .rxLen p 0 1 g))) ∧
        (64 ≤ n → n ≤ most →
          (rx.fcsOk = false → exec (.frameReceive p clk rx) s = .next (rxGive p pool cells (cnt .rxFcs p 0 1 g))) ∧
          (∀ t, rx.fcsOk = true → msecRx p rx.bytes rx.icvOk g = (.bad, t) →
            exec (.frameReceive p clk rx) s = .next (rxGive p pool cells t)) ∧
          (∀ t, rx.fcsOk = true → msecRx p rx.bytes rx.icvOk g = (.clear, t) →
            exec (.frameReceive p clk rx) s = .next (rxAccept p rx rx.bytes none cells t)) ∧
          (∀ t i, rx.fcsOk = true → msecRx p rx.bytes rx.icvOk g = (.ok i, t) →
            exec (.frameReceive p clk rx) s = .next (rxAccept p rx rx.plain (some i) cells t)))))) ∧
  (∀ (s : State) (x : Rx) (stamp : BitVec 128) (pv : BitVec 1024) (d : Decision),
    let t := rxForward x stamp pv d s
    ∃ (f : Frame) (e : InPipe), t.lnd.frames = s.lnd.frames ++ [f] ∧ t.lnd.pipe = s.lnd.pipe ++ [e] ∧
      t.lnd.serial = s.lnd.serial + 1 ∧ t.lnd.voq = s.lnd.voq ∧ t.cut = s.cut ∧ t.buf = s.buf ∧ t.ctr = s.ctr ∧
      f.serial = s.lnd.serial ∧ f.unsettled = d.ports.length ∧ f.cells.map Prod.fst = x.cells ∧
      (∀ c ∈ f.cells, c.2 = d.ports.length) ∧
      e.at_ = nowClk s + x.delay + 248 ∧ e.copies.map Copy.port = d.ports ∧
      ∀ c ∈ e.copies, c.cls = d.cls ∧ c.fi.serial = s.lnd.serial ∧ c.fi.stamp = stamp ∧ c.fi.copies = d.ports.length ∧
        c.fi.bytes = x.bytes)

/-- The matching of a cell slot (R282): what three iterations of a plane's matcher find is a set of its requests in which every
ingress group and every egress group stands at most once, and the pointers move on the accepts of the first iteration alone,
each to one past its partner. -/
def Obligations.PlaneMatching : Prop :=
  ∀ (s : State) (plane : Nat) (req : List (Nat × Nat)),
    let m := (matchPlane plane req s).1
    let t := (matchPlane plane req s).2
    let first := matchIter s plane req []
    (∀ x ∈ m, x ∈ req) ∧ (m.map Prod.fst).Nodup ∧ (m.map Prod.snd).Nodup ∧ first.Sublist m ∧
    (∀ i j, (i, j) ∈ first → ptrOf t plane 0 j = (i + 1) % 16 ∧ ptrOf t plane 1 i = (j + 1) % 16) ∧
    (∀ j, j ∉ first.map Prod.snd → ptrOf t plane 0 j = ptrOf s plane 0 j) ∧
    (∀ i, i ∉ first.map Prod.fst → ptrOf t plane 1 i = ptrOf s plane 1 i) ∧
    t.lnd.voq = s.lnd.voq ∧ t.lnd.path = s.lnd.path ∧ t.lnd.flight = s.lnd.flight

/-- The crossing (R279, R283, R285 to R287, R290): in a cell slot the match of the slot before is carried out, so with none and
nothing queued no cell is sent; a cell sent takes the path's next sequence number and crosses in 30 clocks (R31), so that it arrives not
before them and has its effect at their end; a cell that arrives whole and ahead of its turn is
held, one whose header is bad, whose plane's epoch has moved or that lies outside the window of 64 is dropped and counted; a gap
is declared lost when the oldest held cell has waited `RESEQ_TIMEOUT` clocks and not before; a copy of a frame of two or more
that waits at a VOQ's head part since ring q is discarded at the boundary of q + `MC_HOLD`, and no other. -/
def Obligations.Crossing : Prop :=
  ∀ (s : State), halted s = false →
    (∀ (slot : Fin 160) (errs : List (Fin 655360 × Bool)),
      let u : State := { s with clock := 10 * slot.val }
      (s.lnd.pipe = [] → s.lnd.mtch = [] → s.lnd.voq = [] → s.lnd.path = [] →
        ∃ t, exec (.cellSlot slot errs) s = .next t ∧ t.lnd = (cellCredits (nowClk u) u).lnd ∧ t.clock = 10 * slot.val ∧
          t.ring = s.ring ∧ t.cut = s.cut) ∧
      (let v := slotCross errs (slotBegin slot s)
       let a := matchPlane 0 (requestsOf v 0) v
       let b := matchPlane 1 (requestsOf v 1) a.2
       ∃ t, exec (.cellSlot slot errs) s = .next t ∧
         t.lnd.mtch = a.1.map (fun ij => (0, ij.1, ij.2)) ++ b.1.map (fun ij => (1, ij.1, ij.2)))) ∧
    (∀ (plane i j : Nat) (c : Copy) (n : Nat), (pathOf s i j).cur = some (c, n) →
      ∃ x : Cell, (sendCell [] plane i j s).lnd.flight = s.lnd.flight ++ [x] ∧ x.plane = plane ∧ x.src = i ∧ x.dst = j ∧
        x.seq = (pathOf s i j).seq ∧ x.index = n ∧ x.first = (n == 0) ∧ x.last = (n + 1 == copyCells c) ∧
        x.epoch = (unitSt s (uPlane plane)).epoch ∧ x.copy = c ∧ x.at_ = nowClk s + 30 ∧
        (pathOf (sendCell [] plane i j s) i j).seq = ((pathOf s i j).seq + 1) % 65536 ∧
        (n + 1 ≠ copyCells c → (pathOf (sendCell [] plane i j s) i j).cur = some (c, n + 1)) ∧
        (n + 1 = copyCells c → (pathOf (sendCell [] plane i j s) i j).cur = none)) ∧
    (∀ (plane : Fin 2) (i j : Fin 16) (seq : BitVec 16) (clk : Fin 1600) (beats : List (Fin 17 × Bool)),
      let u : State := { s with clock := clk.val }
      let mine (x : Cell) : Bool := x.plane == plane.val && x.src == i.val && x.dst == j.val && x.seq == seq.toNat
      let here : State := { u with lnd := { u.lnd with flight := u.lnd.flight.eraseP mine } }
      (s.lnd.flight.find? mine = none → exec (.cellArrive plane i j seq clk beats) s = .next u) ∧
      (∀ x, s.lnd.flight.find? mine = some x →
        (s.ran * 1600 + clk < x.at_ → exec (.cellArrive plane i j seq clk beats) s = .next u) ∧
        (x.at_ ≤ s.ran * 1600 + clk →
          exec (.cellArrive plane i j seq clk beats) s = .next (atClk x.at_ (cellIn x beats) here)))) ∧
    (∀ (x : Cell) (beats : List (Fin 17 × Bool)),
      let r := reseqOf s x.src x.dst
      (x.epoch ≠ (unitSt s (uPlane x.plane)).epoch →
        cellIn x [] s = note (uPlane x.plane) 0x0A01 255 [x.plane, x.src, x.dst, 3] (cnt .lndEpochDrop x.plane 0 1 s)) ∧
      (x.epoch = (unitSt s (uPlane x.plane)).epoch → 64 ≤ seqAhead r.next x.seq →
        cellIn x [] s = cnt .lndSeqRange 0 0 1 (setReseq x.src x.dst { r with lost := r.lost ++ [x] } s)) ∧
      (x.epoch = (unitSt s (uPlane x.plane)).epoch → seqAhead r.next x.seq < 64 → r.next ≠ x.seq →
        r.next ∉ r.void_ → (∀ y ∈ r.held, y.seq ≠ r.next) →
        cellIn x [] s = setReseq x.src x.dst { r with held := r.held ++ [x] } s) ∧
      ((0, true) ∈ beats → (reseqOf (cellIn x beats s) x.src x.dst).lost = r.lost ++ [x]) ∧
      ctrGet (cellIn x [(0, true)] s) .lndUncorrHdr x.plane 0 = (ctrGet s .lndUncorrHdr x.plane 0 + 1) % 2 ^ 64) ∧
    (∀ (i j : Fin 16) (clk : Fin 1600),
      let u : State := { s with clock := clk.val }
      let r := reseqOf s i j
      ((∃ y ∈ r.held, y.seq = r.next) → exec (.reseqTimeout i j clk) s = .next u) ∧
      ((∀ y ∈ r.held, s.ran * 1600 + clk < y.at_ + fld s.lnd.cfg 26 16) → exec (.reseqTimeout i j clk) s = .next u) ∧
      ((∀ y ∈ r.held, y.seq ≠ r.next) → (∃ y ∈ r.held, y.at_ + fld s.lnd.cfg 26 16 ≤ s.ran * 1600 + clk) →
        exec (.reseqTimeout i j clk) s = .next (declareLost i j u))) ∧
    (atBoundary s = false → exec .mcHoldExpire s = .next s) ∧
    (atBoundary s = true → ∃ t, exec .mcHoldExpire s = .next t ∧
      (∀ k, (voqOf t k).head = (voqOf s k).head.filter (fun c => !(decide (2 ≤ c.fi.copies) &&
          decide (c.q + fld s.lnd.cfg 12 0 ≤ s.ran))) ∧
        (voqOf t k).dram = (voqOf s k).dram ∧ (voqOf t k).tail = (voqOf s k).tail) ∧ t.lnd.path = s.lnd.path)

/-! ## The kerf engines (R218 to R266) -/

/-- Dispatch and passing on (R218, R220, R222, R229, R264, R442): the head of the dispatch queue goes to the lowest idle engine,
which starts it at its action's entry with the frame as received, one copy in a clock and none before its 24 clocks have
passed; with no idle engine it waits; with entry 0 it takes no engine;
a fetch of the header window ends the engine's stall; an engine without a copy, in a stall, or whose last microword or fetch is not over
(one clock a word and 40 a fetch, R31) executes no microword, a word whose
fetch fails aborts its routine, and every other microword is executed: one that raises nothing leaves the engine at the next
address with one microcycle more used, or ends the routine; a routine reads the stores that stood when it was dispatched (R245); the oldest copy of a port and class that has left its engine joins the scheduler queue of
its port, class and compartment, and one that has not holds back those behind it. -/
def Obligations.KerfRoutines : Prop :=
  ∀ (s : State) (p : Fin 8) (clk : Fin 1600), halted s = false →
    let u : State := { s with clock := clk.val }
    (∀ errs stores, tget [] s.krf.ready (k1 p) = [] → tget [] s.krf.queue (k1 p) = [] →
      exec (.kerfDispatch p clk ⟨errs, stores⟩) s = .next u) ∧
    (∀ errs stores c r, tget [] s.krf.ready (k1 p) = [] → tget [] s.krf.queue (k1 p) = c :: r → nowClk u < c.at_ →
      exec (.kerfDispatch p clk ⟨errs, stores⟩) s = .next u) ∧
    (∀ c r, tget [] s.krf.ready (k1 p) = [] → tget [] s.krf.queue (k1 p) = c :: r → c.at_ ≤ nowClk u →
      tget 0 s.krf.next (k1 p) ≤ nowClk u → storesBad s c [] = [] →
      (actEntry (copyAct s c) ≠ 0 → (∀ e, e < 32 → engBusy u p e = true) → exec (.kerfDispatch p clk ⟨[], []⟩) s = .next u) ∧
      (∀ e, actEntry (copyAct s c) ≠ 0 → e < 32 → engBusy u p e = false → (∀ d, d < e → engBusy u p d = true) →
        ∃ t, exec (.kerfDispatch p clk ⟨[], []⟩) s = .next t ∧
          engOf t p e = { phase := 1, copy := some c, disp := nowClk u, upc := actEntry (copyAct s c), bytes := c.fi.bytes } ∧
          (∀ d, d ≠ e → engOf t p d = engOf s p d) ∧
          ctrGet t .krfRoutines (stCid c.fi.stamp) 0 = (ctrGet s .krfRoutines (stCid c.fi.stamp) 0 + 1) % 2 ^ 64) ∧
      (actEntry (copyAct s c) = 0 →
        ∃ t, exec (.kerfDispatch p clk ⟨[], []⟩) s = .next t ∧ (∀ d, engOf t p d = engOf s p d) ∧
          ctrGet t .krfBypass (stCid c.fi.stamp) 0 = (ctrGet s .krfBypass (stCid c.fi.stamp) 0 + 1) % 2 ^ 64)) ∧
    (∀ e : Fin 32, (engOf s p e).phase = 2 → engDue (engOf s p e) ≤ nowClk u → exec (.windowFetchDone p e clk) s =
      .next (setEng p e { (engOf s p e) with phase := 1 } (progEvt (uEgress p) 0x23 255 0 40 u))) ∧
    (∀ e : Fin 32, ((engOf s p e).phase ≠ 2 ∨ nowClk u < engDue (engOf s p e)) → exec (.windowFetchDone p e clk) s = .next u) ∧
    (∀ (e : Fin 32) mb nb ab, ((engOf s p e).copy = none ∨ (engOf s p e).phase ≠ 1 ∨ nowClk u < engDue (engOf s p e)) →
      exec (.microcycle p e clk mb nb ab) s = .next u) ∧
    (∀ (e : Fin 32) c nb ab, (engOf s p e).copy = some c → (engOf s p e).phase = 1 → engDue (engOf s p e) ≤ nowClk u →
      exec (.microcycle p e clk true nb ab) s = .next (storeParity p e (engOf s p e) c 0 (engOf s p e).upc u)) ∧
    (∀ (e : Fin 32) c ab, (engOf s p e).copy = some c → (engOf s p e).phase = 1 → engDue (engOf s p e) ≤ nowClk u →
      let x := engOf s p e
      let mw := tget 0 (storesAt s x.disp).micro (k1 x.upc)
      let nw := tget 0 (storesAt s x.disp).nano (k1 (fld mw 31 18))
      storeBad s p x.upc = false → storeBad s p (16384 + fld mw 31 18) = false →
      let o := runWord (inRegions u (stCid c.fi.stamp)) x c (actView u c ab) nw
      let y := { o.eng with used := x.used + 1 }
      let v := progEvt (uEgress p) 0x23 255 0 1 u
      exec (.microcycle p e clk false false ab) s = .next (execWord p e x c mw nw ab u) ∧
      (o.causes = [] → bit nw 240 = false → fld mw 3 0 < 14 → x.used + 1 < copyBudget c →
        exec (.microcycle p e clk false false ab) s = .next (setEng p e
          { y with upc := nextAddr (fld mw 17 4) (condTrue (fld mw 3 0) y.z y.n y.c y.v y.u) } v)) ∧
      (o.causes = [] → bit nw 240 = false → fld mw 3 0 = 15 →
        exec (.microcycle p e clk false false ab) s = .next (finish p e y c v))) ∧
    (∀ (q : Fin 64) (cls : Fin 8), (∀ o ∈ tget [] s.krf.order (k1 p), o.port ≠ q.val ∨ o.cls ≠ cls.val) →
      exec (.copyToScheduler p q cls clk) s = .next u) ∧
    (∀ (q : Fin 64) (cls : Fin 8) o, (tget [] s.krf.order (k1 p)).find? (fun o => o.port == q.val && o.cls == cls.val) = some o →
      ((o.done = none ∨ nowClk u < o.at_) → exec (.copyToScheduler p q cls clk) s = .next u) ∧
      (∀ d, o.done = some d → o.at_ ≤ nowClk u → stale s d.copy = false → (port s d.copy.port).up = true →
        attached s (stCid d.copy.fi.stamp) d.copy.port = true →
        tget 0 s.cmp.detached (k2 (stCid d.copy.fi.stamp) d.copy.port) ≤ d.copy.q → egressOwn s d = true →
        ∃ v, exec (.copyToScheduler p q cls clk) s = .next (guardTick q (dropOversize q v)) ∧
          (let k := k3 d.copy.port d.copy.cls (stCid d.copy.fi.stamp)
           tget [] v.sch.queue k = tget [] s.sch.queue k ++ [{ d with arr := s.sch.arr }] ∧
           (∀ j, j ≠ k → tget [] v.sch.queue j = tget [] s.sch.queue j)) ∧ v.lnd = s.lnd ∧ v.cut = s.cut ∧
          (oversizeHead v q = none → dropOversize q v = v)))

/-- R233, and what follows from it (R234, R238, R240, R266): the budget of a routine is min(320, 32 + ⌊(L − 64) / 32⌋) microcycles
for a frame of L bytes; a microcycle that leaves the routine within its budget leaves the engine running; one that uses it up
outside a handler takes the BUDGET trap, whose entry is a microcycle more; 16 microcycles later its handler is aborted. -/
def Obligations.KerfBudget : Prop :=
  (∀ L, 64 ≤ L → budgetOf L = min 320 (32 + (L - 64) / 32)) ∧
  (∀ L, 64 ≤ L → L ≤ 95 → budgetOf L = 32) ∧ budgetOf 128 = 34 ∧ budgetOf 1518 = 77 ∧ budgetOf 9216 = 318 ∧
  (∀ c : Copy, copyBudget c = budgetOf (stLength c.fi.stamp)) ∧
  ∀ (s : State) (p e : Nat) (x : Eng) (c : Copy) (upc : Nat),
    (x.used < copyBudget c → budgetTest p e x c upc s = setEng p e x s) ∧
    (copyBudget c ≤ x.used → x.handler = none →
      let t := budgetTest p e x c upc s
      (engOf t p e).handler = some 0 ∧ (engOf t p e).upc = 0 ∧ (engOf t p e).used = x.used + 1 ∧
        (engOf t p e).lastTrap = some (0, 0) ∧ (engOf t p e).bytes = x.bytes ∧ (engOf t p e).copy = x.copy ∧
        ctrGet t .krfTrap (stCid c.fi.stamp) 0 = (ctrGet s .krfTrap (stCid c.fi.stamp) 0 + 1) % 2 ^ 64) ∧
    (copyBudget c ≤ x.used → x.used < copyBudget c + 16 → x.handler = some 0 → budgetTest p e x c upc s = setEng p e x s) ∧
    (copyBudget c + 16 ≤ x.used → x.handler = some 0 → budgetTest p e x c upc s = abortEng p e x c upc 2 s) ∧
    (∀ k, copyBudget c ≤ x.used → x.handler = some (k + 1) → budgetTest p e x c upc s = abortEng p e x c upc 3 s)

/-- The ALU (R259): ADD, ADDC, SUB and SUBB are those of two's complement words of the width, with C the carry or the borrow and V
the signed overflow; AND, OR, XOR and ANDN are bitwise; SHL, SHR and SAR shift by B's low six bits and leave the last bit shifted
out in C; MINU and MAXU order as unsigned numbers; CSUM16 wraps its carry round; every result fits its width. -/
def Obligations.KerfAlu : Prop :=
  ∀ (w : Nat) (a b : BitVec w) (cin imm : Nat), w ∈ [8, 16, 32, 64] → cin < 2 →
    let r (op : Nat) := alu op w a.toNat b.toNat cin imm
    let s := b.toNat % 64
    (∀ op, (r op).r < 2 ^ w) ∧
    (r 0x00).r = a.toNat ∧ (r 0x01).r = b.toNat ∧
    (r 0x02).r = (a + b).toNat ∧ (r 0x02).c = decide (2 ^ w ≤ a.toNat + b.toNat) ∧
    (r 0x02).v = decide (a.toInt + b.toInt ≠ (a + b).toInt) ∧
    (r 0x03).r = (a + b + BitVec.ofNat w cin).toNat ∧ (r 0x03).c = decide (2 ^ w ≤ a.toNat + b.toNat + cin) ∧
    (r 0x03).v = decide (a.toInt + b.toInt + cin ≠ (a + b + BitVec.ofNat w cin).toInt) ∧
    (r 0x04).r = (a - b).toNat ∧ (r 0x04).c = decide (a.toNat < b.toNat) ∧
    (r 0x04).v = decide (a.toInt - b.toInt ≠ (a - b).toInt) ∧ r 0x0D = r 0x04 ∧
    (r 0x05).r = (a - b - BitVec.ofNat w cin).toNat ∧ (r 0x05).c = decide (a.toNat < b.toNat + cin) ∧
    (r 0x05).v = decide (a.toInt - b.toInt - cin ≠ (a - b - BitVec.ofNat w cin).toInt) ∧
    (r 0x06).r = (a &&& b).toNat ∧ (r 0x07).r = (a ||| b).toNat ∧ (r 0x08).r = (a ^^^ b).toNat ∧
    (r 0x09).r = (a &&& ~~~b).toNat ∧ r 0x0E = r 0x06 ∧
    (r 0x0A).r = (a <<< s).toNat ∧ (r 0x0A).c = (decide (1 ≤ s ∧ s ≤ w) && a.getLsbD (w - s)) ∧
    (r 0x0B).r = (a >>> s).toNat ∧ (r 0x0B).c = (decide (1 ≤ s ∧ s ≤ w) && a.getLsbD (s - 1)) ∧
    (r 0x0C).r = (a.sshiftRight s).toNat ∧ (r 0x0C).c = (decide (1 ≤ s) && if s < w then a.getLsbD (s - 1) else a.msb) ∧
    (r 0x0F).r = min a.toNat b.toNat ∧ (r 0x10).r = max a.toNat b.toNat ∧
    ((r 0x11).r ≡ a.toNat + b.toNat [MOD 2 ^ w - 1]) ∧ (r 0x11).c = decide (2 ^ w ≤ a.toNat + b.toNat) ∧
    (∀ op, op ∈ [0x00, 0x01, 0x06, 0x07, 0x08, 0x09, 0x0F, 0x10, 0x12, 0x13] → (r op).c = false ∧ (r op).v = false) ∧
    (∀ op, aluWrites op = false ↔ op = 0x0D ∨ op = 0x0E)

/-! ## Scheduler (R321 to R339) -/

/-- SCHED_START, TRANSMIT_DONE, SHAPER_REFILL and GATE_ENTRY_START (R278, R298, R324, R328, R332, R333, R339): nothing starts on a port that
is down or squelched; with no queued copy the port idles, and its deficits are gone; one copy of classes 7 and 6 that may begin 16 clocks
after the decision is taken; an ended frame leaves with its FCS, inverted where an uncorrectable error was found in it, and is
counted; the credits of every cell that the MAC has fully transmitted return; every bucket gains its rate, up to its cap; a start notch ends or begins the span
that a gate alone holds, and counts the copies that then begin to wait for their shaper. -/
def Obligations.SchedulerRows : Prop :=
  ∀ (s : State) (p : Fin 64) (clk : Fin 1600) (n : Fin 64), halted s = false →
    let u : State := { s with clock := clk.val }
    let z : State := { s with clock := 25 * n.val }
    let m := markShaped p.val (nowClk z) z
    let t := nowClk u + 16
    let a := macAdvance p.val t u
    let v := cellCredits (nowClk u) u
    ((port s p.val).up = false ∨ s.link.squelched = true → exec (.schedStart p clk) s = .next u) ∧
    ((port s p.val).up = true → s.link.squelched = false → s.sch.queue = [] →
      exec (.schedStart p clk) s = .next (guardEnd p.val t (dropDeficits p.val [] a))) ∧
    ((port s p.val).up = true → s.link.squelched = false → ∀ x : Key × Done, heads a p.val = [x] → 6 ≤ x.1.2.1 → x.1.2.1 ≤ 7 →
      mayBegin a p.val t x.2 = true → gateOversize a p.val x.2.copy.cls (wireClocks a p.val (wireBytes a p.val x.2)) = false →
      exec (.schedStart p clk) s = .next (dropOversize p.val (startCopy p.val t x a))) ∧
    ((∀ x ∈ tget [] v.sch.tx (k1 p.val), x.done = none) → ∀ errs, exec (.transmitDone p clk errs) s = .next v) ∧
    (∀ (x : TxFrame) errs, tget [] v.sch.tx (k1 p.val) = [x] → x.done ≠ none →
      let e := foldS errs (fun e => cbFinding e.1.val (if e.2 then 3 else 0)) v
      let w : State := { e with sch := { e.sch with tx := tput [] e.sch.tx (k1 p.val) [] } }
      let y := putWire p.val (withFcs (errs.any Prod.snd) x.bytes) (progEvt (uGroup (portGroup w p.val)) 0x31
        (stCid x.copy.fi.stamp) (slotBit w p.val) 1 (cnt .txBytes p.val 0 x.len (cnt .txFrames p.val 0 1 w)))
      exec (.transmitDone p clk errs) s = .next (guardTick p.val y)) ∧
    (∀ (x : TxFrame) (clk' : Nat), s.sch.tx = [(k1 p.val, [x])] → tabWf 0 s.lnd.credit = true →
      let w := cellCredits clk' s
      let y := txAdvance s p.val clk' 512 x
      let n := cellsOut s p.val clk' y
      creditUsed w x.copy.egr x.copy.slot x.copy.cls = creditUsed s x.copy.egr x.copy.slot x.copy.cls - (n - x.out) ∧
      w.sch.tx = [(k1 p.val, [{ y with out := max x.out n }])] ∧ w.buf = s.buf ∧ w.ctr = s.ctr) ∧
    (∃ w, exec (.shaperRefill n) s = .next (guardTicks w) ∧ w.clock = 25 * n.val ∧ w.sch.queue = s.sch.queue ∧ w.sch.shape = s.sch.shape ∧
      w.lnd = s.lnd ∧ w.ctr = s.ctr ∧
      (tabWf 0 s.sch.lack = true → ∀ k, tget 0 w.sch.lack k = tget 0 s.sch.lack k - fld (tget 0 s.sch.shape k) 19 1)) ∧
    (guardIdles m p.val (nowClk z) = false → exec (.gateEntryStart p n) s = .next (guardEnd p.val (nowClk z) m)) ∧
    (guardIdles m p.val (nowClk z) = true → tget 0 s.sch.guard (k1 p.val) = 0 → exec (.gateEntryStart p n) s =
      .next { m with sch := { m.sch with guard := tput 0 m.sch.guard (k1 p.val) (nowClk z + 1) } }) ∧
    (guardIdles m p.val (nowClk z) = true → tget 0 s.sch.guard (k1 p.val) ≠ 0 → exec (.gateEntryStart p n) s = .next m)

/-- The order of service (R333, R334) among the copies that may begin: the highest gated class first and in it the earliest copy,
whatever its compartment; then the ungated classes 7 and 6; then a compartment's earliest copy in its highest class. A
compartment whose heads in the ungated classes 5 to 0 all wait for an earlier copy of their flow has no deficit. Of one backlogged
compartment, a deficit that covers the copy pays for it; one that does not grows by 64 bytes times the weight, the pointer passes
the compartment, and the step repeats. -/
def Obligations.ServiceOrder : Prop :=
  ∀ (s : State) (p : Nat) (cand : List (Key × Done)), (∀ x ∈ cand, x.1.2.1 < 8 ∧ x.1.2.2 < 32) →
    let best (grp : Key × Done → Prop) (y : Key × Done) : Prop := y ∈ cand ∧ grp y ∧
      ∀ z ∈ cand, grp z → z.1.2.1 < y.1.2.1 ∨ (z.1.2.1 = y.1.2.1 ∧ y.2.arr ≤ z.2.arr)
    let isGated (x : Key × Done) : Prop := gated s p x.1.2.1 = true
    ((∃ x ∈ cand, isGated x) → ∃ y, pick p cand s = (some y, s) ∧ best isGated y) ∧
    ((∀ x ∈ cand, ¬ isGated x) → (∃ x ∈ cand, 6 ≤ x.1.2.1) → ∃ y, pick p cand s = (some y, s) ∧ best (fun x => 6 ≤ x.1.2.1) y) ∧
    ((∀ x ∈ cand, ¬ isGated x ∧ x.1.2.1 < 6) → ∀ y, (pick p cand s).1 = some y → best (fun x => x.1.2.2 = y.1.2.2) y) ∧
    (∀ c, (∀ x ∈ heads s p, x.1.2.2 = c → 6 ≤ x.1.2.1 ∨ isGated x ∨ flowClear s p x.2 = false) →
      tget 0 (dropIdle p s).sch.deficit (k2 p c) = 0) ∧
    (∀ x, cand = [x] → ¬ isGated x → x.1.2.1 < 6 →
      let u := dropIdle p s
      let k := k2 p x.1.2.2
      let d := tget 0 u.sch.deficit k
      let need := wireBytes u p x.2
      (need ≤ d → pick p cand s = (some x, { u with sch := { u.sch with deficit := tput 0 u.sch.deficit k (d - need) } })) ∧
      (d < need → pick p cand s = drr p [x] 8191 { u with sch := { u.sch with
        deficit := tput 0 u.sch.deficit k (d + shareWeight u x.1.2.2 p * 64),
        ptr := tput 0 u.sch.ptr (k1 p) ((x.1.2.2 + 1) % 32 + 1) } }))

/-! ## Deep-buffer spill and the DRAM controller (R312 to R315, R344 to R358) -/

/-- SPILL_WRITE, SPILL_READBACK and SPILL_PAGE_WALK (R274, R312 to R315): the next copy of the tail is read, discarded where its record
or descriptor is bad, and its descriptor and data slots are sent behind the slots written before, as far as the VOQ's pages hold them;
the VOQ takes no more than `VOQ_PAGES` pages, behind those it holds; a VOQ whose writes are held does not write. The next copy of the
VOQ whose turn it is is read into staging cells, which it takes, and the turn passes on; it waits where staging lacks room. A walk reads
the header of every page of a DRAM portion that was discarded whole, and when the last has been read frees it without readback. -/
def Obligations.SpillRows : Prop :=
  ∀ (s : State) (g : Fin 16) (p : Fin 64) (c : Fin 8), halted s = false →
    let k := k3 g.val p.val c.val
    let v := voqOf s k
    (∀ errs st, v.tail = [] → exec (.spillWrite g p c ⟨errs, st⟩) s = .next (spillMark (voqNorm k s))) ∧
    (∀ errs st, v.tail ≠ [] → (v.spilling = false ∨ v.writing.isSome = true ∨ walkDue s k = true) →
      exec (.spillWrite g p c ⟨errs, st⟩) s = .next (spillMark s)) ∧
    (∀ x r errs st, v.tail = x :: r → v.spilling = true → v.writing = none → walkDue s k = false →
      (v.part = 0 → storesBad s x st ≠ [] → exec (.spillWrite g p c ⟨errs, st⟩) s =
        .next (spillMark (settle x false (dropIngress x 0 (blazeDrop x 10 0x44 0 (stPipe x.fi.stamp)
          (foldS (storesBad s x st) (storeFinding x) (setVoq k { v with tail := r } s))))))) ∧
      ((v.part ≠ 0 ∨ storesBad s x st = []) →
        (writeHeld s k = true → exec (.spillWrite g p c ⟨errs, st⟩) s = .next (spillMark (toDirect k
          { s with buf := { s.buf with limitWait := tput false s.buf.limitWait k true } }))) ∧
        (writeHeld s k = false →
          let u := growPages k (copySlots x - v.part) (copySlots x) s
          exec (.spillWrite g p c ⟨[], st⟩) s = .next (spillMark (sendSlots k v.pages.length x u)) ∧
          v.pages <+: (voqOf u k).pages ∧ (voqOf u k).pages.length ≤ max v.pages.length (voqPages s)))) ∧
    (∀ x, let y : Copy := if v.part = 0 then { x with at_ := nowClk s } else x
      let data := ((slotData s y).drop v.part).take (slotRoom v)
      let w := voqOf (sendSlots k v.pages.length x s) k
      w.wr = v.wr + data.length ∧ w.pages = v.pages ∧
      (v.part + data.length = copySlots y → w.writing = some y ∧ w.tail = v.tail.drop 1 ∧ w.part = 0) ∧
      (v.part + data.length ≠ copySlots y → w.writing = none ∧ w.tail = y :: v.tail.drop 1 ∧ w.part = v.part + data.length)) ∧
    (turnVoq s g.val = none → exec (.spillReadback g) s = .next (spillMark s)) ∧
    (∀ n, turnVoq s g.val = some n →
      let kn := voqKey g.val n
      let y := voqOf s kn
      (stageWaits s g.val = true → exec (.spillReadback g) s = .next (spillMark
        { s with buf := { s.buf with stageWait := tput false s.buf.stageWait (k1 g.val) true } })) ∧
      (∀ x r, y.dram = x :: r → x.doomed = false → stageWaits s g.val = false →
        let l := (stagingFree s g.val).take (copyCells x)
        let u : State := { s with buf := { s.buf with turn := tput 0 s.buf.turn (k1 g.val) ((n + 1) % 512 + 1) } }
        exec (.spillReadback g) s = .next (spillMark (foldS (List.range y.pages.length) (readReq kn x y.rd)
          (setVoq kn { y with reading := true, stage := l } (takeStaging g.val l u)))))) ∧
    (walkDue s k = false ∨ v.writing.isSome = true ∨ v.reading = true ∨ reqsOf s 4 k = true →
      exec (.spillPageWalk g p c) s = .next s) ∧
    (walkDue s k = true → v.writing = none → v.reading = false →
      (reqsOf s 4 k = false → exec (.spillPageWalk g p c) s = .next (foldS (v.pages.map Prod.fst) (walkReq k) s)) ∧
      (reqsOf s 4 k = false → walkDone k s = toDirect k (setVoq k { v with dram := [] } s)) ∧
      (reqsOf s 4 k = true → walkDone k s = s))

/-- DRAM_PAGE_DONE (R34, R312, R313, R344, R346 to R350, R352, R355, R357): a fault of the front end is a RESTART fault. Otherwise the
channel has served its next request, where the last clock of one has passed. A request begins once it has arrived, after the one before it,
on a rank that accepts requests, and a copy's read ends 1,120 clocks after its write began at the earliest. Of the requests that can begin
first, a spill request within the entitlement of its class comes before a tally write, every spill request and tally write before a tally
read, and then the Ranger's and the scrub's. After four switches in a ring the channel keeps its direction while reads and writes both
wait. The request leaves the front end, occupies the channel for 8 clocks a slot behind what a switch costs, which is at most 32 clocks,
activates its row once and is counted; a write stores its slots, and a copy's last write ends its stay on die; a read's bursts are
checked, and its requester takes what they show. Bursts and their tags (R342, R344 to R346): a slot that is written reads back with its bytes and without a finding when its
version is expected, with a finding of step 3 of R346 when another is; one wrong bit of a codeword is corrected, two are not, and a
tag with a wrong bit in its check does not pass. The rows of ranks and channels (R349, R350, R352, R354 to R358): the refresh of a rank once in every third ring, or in every ring while
hot; the temperature, above 85 °C hot and above 95 °C the channel's fault; the one retraining pause of a channel's own ring, whose failure
is its fault; self-refresh at a boundary after idle rings and the wake 480 clocks later; a new row-hammer window, once, with the first clock of its ring, and the refresh of the
rows beside one that reached the limit in the ring that begins; the patrol scrub's read; and the Ranger's chain walk. On a channel out of
service none of them does anything. -/
def Obligations.DramController : Prop :=
  (∀ (s : State) (ch : Fin 16) (clk : Fin 1600) (errs : List (Fin 2 × Fin 32 × BitVec 64 × List Nat)), halted s = false →
     let z := stageDue (clkOf s clk.val) { s with clock := clk.val }
     let go := exec (.dramPageDone ch clk ⟨false, errs⟩) s
     let begin_ (r : DReq) := dramStart z ch.val r
     exec (.dramPageDone ch clk ⟨true, errs⟩) s = .next (spillMark (restartFault 0x44 0x0C03 255 [] z)) ∧
     ((chLive z ch.val = false ∨ servedNow z ch.val = none) → go = .next (spillMark z)) ∧
     (∀ r, pageCh z r.page = ch.val → r.at_ ≤ begin_ r ∧ tget 0 z.dram.busy (k1 ch.val) + turnCost z ch.val r ≤ begin_ r ∧
       turnCost z ch.val r ≤ 32 ∧ (rankOf z ch.val (pageRank z r.page)).wakeAt ≤ begin_ r ∧
       (r.cls = 0 → ∀ c l, (voqOf z r.voq).dram = c :: l → c.at_ + 1120 ≤ begin_ r + dramClocks r)) ∧
     (∀ r, nextServe z ch.val = some r → r ∈ z.dram.reqs ∧ servable z ch.val r = true ∧
       ∀ x ∈ z.dram.reqs, servable z ch.val x = true → begin_ x = begin_ r ∧
         (2 < r.cls → r.cls ≤ x.cls) ∧ (2 ≤ r.cls → x.cls < 2 → 4 ≤ tget 0 z.dram.served (k2 ch.val x.cls))) ∧
     (∀ r x y, nextServe z ch.val = some r → 4 ≤ tget 0 z.dram.turns (k1 ch.val) →
       x ∈ dramReady z ch.val → y ∈ dramReady z ch.val → x.at_ ≤ firstStart z ch.val (dramReady z ch.val) →
       y.at_ ≤ firstStart z ch.val (dramReady z ch.val) → dramDir x = tget 0 z.dram.dir (k1 ch.val) →
       dramDir y ≠ tget 0 z.dram.dir (k1 ch.val) → dramDir r = tget 0 z.dram.dir (k1 ch.val)) ∧
     (∀ r, servedNow z ch.val = some r ↔ nextServe z ch.val = some r ∧ begin_ r + 8 * r.slots.length ≤ nowClk z) ∧
     (∀ r, chLive z ch.val = true → servedNow z ch.val = some r →
       let cost := turnCost z ch.val r
       let u : State := { z with dram := { z.dram with
         reqs := z.dram.reqs.filter (fun x => x.id ≠ r.id),
         served := tmod 0 z.dram.served (k2 ch.val r.cls) (· + 1),
         busy := tput 0 z.dram.busy (k1 ch.val) (begin_ r + 8 * r.slots.length),
         dir := tput 0 z.dram.dir (k1 ch.val) (if r.write then 2 else 1),
         turns := tmod 0 z.dram.turns (k1 ch.val)
           (· + b2n (tget 0 z.dram.dir (k1 ch.val) != 0 && tget 0 z.dram.dir (k1 ch.val) != dramDir r)),
         last := if r.cls ≤ 1 then tput 0 z.dram.last (k1 ch.val) (r.cls + 1) else z.dram.last } }
       let w := progEvt (uChannel ch.val) (if r.write then 0x61 else 0x60) 255 (2 ^ r.cls) 1 (activate r.cls r.cid r.page
         (if cost = 0 then u else progEvt (uChannel ch.val) 0x62 255 0 cost u))
       (r.write = true → r.cls = 5 → go = .next (spillMark (scrubBack r w))) ∧
       (r.write = true → r.cls ≠ 5 →
         let m := dropBack r.page (foldS (r.slots.zip r.data) (fun e => writeSlot r.page r.ver e.1 e.2) w)
         go = .next (spillMark (if r.cls = 1 ∧ reqsOf m 1 r.voq = false then toDirect r.voq (writeDone r.voq m) else m))) ∧
       (r.write = false → ∀ f m, readPage r errs w = (f, m) →
         (r.cls = 0 → go = .next (spillMark
           (let y := markRead r (badSlots f) m
            if reqsOf y 0 r.voq then y else readDone r.voq y))) ∧
         (r.cls = 3 → go = .next (spillMark (readGot r (badSlots f) m))) ∧
         (r.cls = 4 → go = .next (spillMark (walkDone r.voq m))) ∧
         (r.cls = 5 → go = .next (spillMark (scrubDone r f m)))))) ∧
  (∀ (s : State) (page ver i : Nat) (l : List Byte) (b : Nat × Nat × Nat), page < 2 ^ 25 → i < 16 → b ∈ slotBursts i →
     let x := burstAt (writeSlot page ver i l s) page b.1 b.2.1
     x.data = padTo 64 (slice l b.2.2 64) ∧ x.check = burstCheck page b.1 b.2.1 x.data ∧
     burstStep page b.1 b.2.1 none x = none ∧
     (∀ v, v % 65536 = ver % 65536 → burstStep page b.1 b.2.1 (some v) x = none) ∧
     (∀ v, v % 65536 ≠ ver % 65536 → burstStep page b.1 b.2.1 (some v) x = some 2) ∧
     (∀ j, j < 4 → burstStep page b.1 b.2.1 none { x with flips := (List.replicate 4 0).set j 1 } = some 3 ∧
       burstStep page b.1 b.2.1 none { x with flips := (List.replicate 4 0).set j 2 } = some 1) ∧
     (∀ j, 48 ≤ j → j < 64 → burstStep page b.1 b.2.1 none { x with tagFlip := BitVec.ofNat 64 (2 ^ j) } = some 0)) ∧
  (∀ (s : State) (ch : Fin 16) (r : Fin 2) (clk : Fin 1600), halted s = false →
     let x := rankOf s ch.val r.val
     let z : State := { s with clock := clk.val }
     (chLive s ch.val = false → exec (.dramRefresh ch r) s = .next s ∧ (∀ t, exec (.dramTempRead ch r t) s = .next s) ∧
       (∀ ok, exec (.dramRetrain ch ok) s = .next s) ∧ exec (.rankSelfRefresh ch r) s = .next s) ∧
     (chLive s ch.val = true → x.state = 0 → (s.ring % 3 = ch.val % 3 ∨ x.hot = true) → x.refreshed ≠ s.ran + 1 →
       exec (.dramRefresh ch r) s = .next (progEvt (uChannel ch.val) 0x62 255 0 312
         (modRank ch.val r.val (fun y => { y with refreshes := y.refreshes + 1, refreshed := s.ran + 1 })
           { s with clock := 800 * r.val }))) ∧
     (x.state ≠ 0 ∨ (x.hot = false ∧ s.ring % 3 ≠ ch.val % 3) ∨ x.refreshed = s.ran + 1 → exec (.dramRefresh ch r) s = .next s) ∧
     (chLive s ch.val = true → ∀ t : Int,
       let w := modRank ch.val r.val (fun y => { y with temp := t, hot := decide (85 < t) }) s
       (t ≤ 95 → exec (.dramTempRead ch r t) s = .next w) ∧
       (95 < t → exec (.dramTempRead ch r t) s = .next (channelFault ch.val 3 w))) ∧
     (s.ring % 100000 ≠ 6250 * ch.val ∨ tget 0 s.dram.paused (k1 ch.val) = s.ran + 1 →
       ∀ ok, exec (.dramRetrain ch ok) s = .next s) ∧
     (chLive s ch.val = true → s.ring % 100000 = 6250 * ch.val → tget 0 s.dram.paused (k1 ch.val) ≠ s.ran + 1 →
       let w := progEvt (uChannel ch.val) 0x62 255 0 320
         { s with clock := 1000, dram := { s.dram with retrains := tmod 0 s.dram.retrains (k1 ch.val) (· + 1),
                                                       paused := tput 0 s.dram.paused (k1 ch.val) (s.ran + 1) } }
       exec (.dramRetrain ch true) s = .next w ∧ exec (.dramRetrain ch false) s = .next (channelFault ch.val 2 w)) ∧
     (atBoundary s = true → chLive s ch.val = true → bit s.dram.cfg 0 = true → x.state = 0 →
       max x.lastReq s.dram.since + idleRings s ≤ s.ran → rankHolds s ch.val r.val = false → exec (.rankSelfRefresh ch r) s =
         .next (dramLatch (cnt .dramSrEntries ch.val r.val 1 (modRank ch.val r.val (fun y => { y with state := 1 }) s)))) ∧
     ((atBoundary s = false ∨ bit s.dram.cfg 0 = false ∨ s.ran < max x.lastReq s.dram.since + idleRings s ∨
       rankHolds s ch.val r.val = true) → exec (.rankSelfRefresh ch r) s = .next s) ∧
     (x.state = 2 → x.wakeAt ≤ nowClk z →
       exec (.rankWake ch r clk) s = .next (modRank ch.val r.val (fun y => { y with state := 0 }) z)) ∧
     ((x.state ≠ 2 ∨ nowClk z < x.wakeAt) → exec (.rankWake ch r clk) s = .next z) ∧
     (s.ring % 32000 = 0 → s.clock = 0 → s.dram.hamWin ≠ s.ran + 1 → exec .hammerWindow s =
       .next { s with dram := { s.dram with rows := [], throttle := [], hamWin := s.ran + 1 } }) ∧
     ((s.ring % 32000 ≠ 0 ∨ s.clock ≠ 0 ∨ s.dram.hamWin = s.ran + 1) → exec .hammerWindow s = .next s) ∧
     (∀ v ∈ s.dram.victims, tget 0 (dramTurn s).dram.rowDone (k3 v.1 v.2.1 v.2.2) = s.ran) ∧
     ((bit s.dram.cfg 21 = false ∨ s.variant = .e) → exec .dramScrub s = .next s) ∧
     (bit s.dram.cfg 21 = true → s.variant ≠ .e →
       (∀ pos, scrubPick s 64 s.dram.scrub = (none, pos) →
         exec .dramScrub s = .next { s with dram := { s.dram with scrub := pos } }) ∧
       (∀ p pos, scrubPick s 64 s.dram.scrub = (some p, pos) → scrubSkips s p = false ∧ scrubWaits s p = false ∧
         exec .dramScrub s = .next (enqueueReq { cls := 5, page := p, write := false, slots := List.range 16 }
           { s with dram := { s.dram with
             scrub := pos, lastScrub := tput 0 s.dram.lastScrub (k1 (pageCh s p)) (s.ran + 1) } }))) ∧
     ((s.dram.walk = false ∨ reqsOf s 4 chainKey = true) → exec .rangerChainWalk s = .next s) ∧
     (s.dram.walk = true → reqsOf s 4 chainKey = false →
       let l := (heldPages s).filter (fun p => !isFenced s (uChannel (pageCh s p)))
       let w : State := { s with dram := { s.dram with walk := false } }
       (l = [] → exec .rangerChainWalk s = .next (returnOrphans w)) ∧
       (l ≠ [] → exec .rangerChainWalk s = .next (foldS l (walkReq chainKey) s)) ∧
       walkDone chainKey s = returnOrphans w))

/-! ## Tally rings and check units (R371 to R376, R382) -/

/-- TALLY_WRITE and CV_WINDOW_END (R370, R371, R374, R382): the writer runs for a compartment at a ring boundary and when 16 of its records
are staged, which the records of the frames that have left stage 4 by the present clock have joined, and empties its staging; a staged record of a stale rotation is counted and written nowhere; a full ring
without overrun drops the record and counts it; otherwise the record is stored under the next sequence number, which advances by one. A
compartment with nothing staged changes nothing. A check unit is done at the end of its window, and not before. -/
def Obligations.CaptureRows : Prop :=
  ∀ (s : State) (c : Fin 32) (p : Fin 8) (r : TRec) (u : Fin 16), halted s = false →
    let y := stageDue (nowClk s) s
    let t := tlyOf y c.val
    let w : State := { y with cap := { y.cap with staging := [] } }
    ((∀ d ∈ s.cap.due, nowClk s < d.at_) → y = s) ∧
    ((∀ e ∈ y.cap.staging, ∀ x ∈ e.2, x.cid ≠ c.val) → exec (.tallyWrite c) s = .next y) ∧
    (atBoundary y = false → stagedOf y c.val < 16 → exec (.tallyWrite c) s = .next y) ∧
    (16 ≤ stagedOf y c.val → ∃ v, exec (.tallyWrite c) s = .next v ∧
      ∀ q, q < 8 → ∀ x ∈ tget [] v.cap.staging (k1 q), x.cid ≠ c.val) ∧
    (atBoundary y = true → y.cap.staging = [(k1 p.val, [r])] → r.cid = c.val →
      (r.rotation ≠ (cmpOf y c.val).rotation.toNat → exec (.tallyWrite c) s = .next (cnt .tallyStale c.val 0 1 w)) ∧
      (r.rotation = (cmpOf y c.val).rotation.toNat →
        (bit t.cfg 0 = false → exec (.tallyWrite c) s = .next w) ∧
        (bit t.cfg 0 = true → tlyN t ≠ 0 → tlyOverrun t = false → t.released + tlyN t ≤ t.next → exec (.tallyWrite c) s =
          .next (cnt .tallyDropFull c.val 0 1 (modTly c.val (fun x => { x with drops := x.drops + 1 }) w))) ∧
        (bit t.cfg 0 = true → tlyN t ≠ 0 → t.released ≤ t.next → (tlyOverrun t = true ∨ t.next < t.released + tlyN t) →
          ∃ v, exec (.tallyWrite c) s = .next v ∧ (tlyOf v c.val).next = t.next + 1 ∧
            (t.next, recSeq r.bytes t.next) ∈ (tlyOf v c.val).recs ∧ (tlyOf v c.val).released = t.released ∧
            (tlyOf v c.val).cfg = t.cfg ∧ v.cap.staging = [] ∧ (∀ d, d ≠ c.val → tlyOf v d = tlyOf y d) ∧
            v.cmp = y.cmp ∧ v.lnd = y.lnd ∧ v.em = y.em ∧ v.cut = y.cut))) ∧
    ((cvOf s u.val).armed = true → (cvOf s u.val).start + (cvOf s u.val).dur ≤ s.ring →
      exec (.cvWindowEnd u) s = .next (modCv u.val (fun x => { x with armed := false, done := true }) s)) ∧
    (((cvOf s u.val).armed = false ∨ s.ring < (cvOf s u.val).start + (cvOf s u.val).dur) → exec (.cvWindowEnd u) s = .next s)

/-! ## Exact match and learning (R165 to R175) -/

/-- LEARN_APPLY (R166 to R169) for one request whose ring is due: a request of a stale rotation is counted and dropped; one for a key
that a static entry holds changes no entry; at the quota it is refused, counted and reported with the template's result; on an empty table it is inserted as a
learned entry whose activity is its frame's ring, no earlier than the ring after a setting of the grid. Before two rings have passed, and in a ring
whose boundary set the grid, nothing happens. AGING_TICK, AGE_OUT, PORT_DOWN_FLUSH, SWEEPER_VISIT and PARITY_ENTRY_REMOVE (R170 to R175): a tick of an aging table is kept with the
descriptor that governed it; two rings later the learned entries that age at it leave, and no static entry does; the flush of a port
that went down and the removal after a parity error come at their rings; the sweeper posts the age-outs of the place it visits and treats
a bad word as a lookup does. In a ring whose boundary set the grid nothing of this is due (`dueRing`). -/
def Obligations.LearnAndAge : Prop :=
  (∀ (s : State) (r : LearnReq), halted s = false → s.em.reqs = [r] →
     let w : State := { s with em := { s.em with reqs := [] } }
     let current := r.rotation = (cmpOf s r.cid).rotation
     let fresh := s.em.ents.find? (fun e => e.learned && e.cid == r.cid && e.table == r.table && e.key == r.key) = none
     ((s.tim.stepped = true ∨ s.ring < r.ring + 2) → exec .learnApply s = .next s) ∧
     (s.tim.stepped = false → r.ring + 2 ≤ s.ring →
       (¬ current → exec .learnApply s = .next (cnt .emLearnStale r.cid 0 1 w)) ∧
       (current → r.static_ = true → exec .learnApply s = .next (cnt .emLearnStatic r.cid 0 1 w)) ∧
       (current → r.static_ = false → fresh → (cmpOf s r.cid).emQuota ≤ learnedOf s r.cid → exec .learnApply s =
         .next (post r.cid 0x0603 (emBody s.ring r.key r.tmpl r.table r.wide 2 r.port 0xFFFFFFFF 1) (cnt .emRefQuota r.cid 0 1 w))) ∧
       (current → r.static_ = false → s.em.ents = [] → 0 < (cmpOf s r.cid).emQuota → ∃ t e, exec .learnApply s = .next t ∧
         t.em.ents = [e] ∧ e.learned = true ∧ e.cid = r.cid ∧ e.table = r.table ∧ e.wide = r.wide ∧ e.key = r.key ∧ e.res = r.res ∧
         e.act = max r.ring s.em.floor ∧ e.stash = false ∧ t.em.reqs = [] ∧ t.cmp = s.cmp ∧ t.cut.cuts = s.cut.cuts))) ∧
  (∀ (s : State) (c : Fin 32) (tb : Fin 16) (p : Fin 64) (b : Fin 5) (i uid : Nat), halted s = false →
     (∀ x, emTblNow s c.val tb.val = some x →
       let k : AgeTick := { tick := s.ring, cid := c.val, table := tb.val, limit := emAgeLimit x, period := emPeriod x }
       (emAgeEn x = true → emPeriod x ≠ 0 → s.ring % emPeriod x = 0 → k ∉ s.em.ticks →
         exec (.agingTick c tb) s = .next { s with em := { s.em with ticks := s.em.ticks ++ [k] } }) ∧
       ((emAgeEn x = false ∨ s.ring % emPeriod x ≠ 0 ∨ k ∈ s.em.ticks) → exec (.agingTick c tb) s = .next s)) ∧
     (emTblNow s c.val tb.val = none → exec (.agingTick c tb) s = .next s) ∧
     (∃ t, exec .ageOut s = .next t ∧
       (∀ e ∈ t.em.ents, e ∈ s.em.ents ∧ ∀ k ∈ s.em.ticks, k.tick + 2 ≤ dueRing s → agesAt k e = false) ∧
       (∀ e ∈ s.em.ents, e.learned = false → e ∈ t.em.ents) ∧
       t.em.ticks = s.em.ticks.filter (fun k => decide (dueRing s < k.tick + 2)) ∧ t.cut = s.cut ∧ t.cmp = s.cmp ∧ t.lnd = s.lnd) ∧
     ((∀ f ∈ s.em.flushes, f.1 ≠ p.val ∨ dueRing s < f.2) → exec (.portDownFlush p) s = .next s) ∧
     (∀ d, s.em.flushes = [(p.val, d)] → d ≤ dueRing s →
       let w := emFlush (fun e => (emTblNow s e.cid e.table).any emFlushDown && resNames e.res p.val) s
       exec (.portDownFlush p) s = .next { w with em := { w.em with flushes := [] } }) ∧
     (s.em.posts = [] → exec (.sweeperVisit b i false) s = .next s ∧ exec (.sweeperVisit b i true) s = .next (emParityAt b.val i s)) ∧
     (∀ a, s.em.posts = [a] → b.val < 4 → emCovers false b.val i a.ent = true →
       let w := agedEvent a.ent a.ring a.reason s
       exec (.sweeperVisit b i false) s = .next { w with em := { w.em with posts := [] } }) ∧
     ((∀ x ∈ s.em.parity, x.1 ≠ uid ∨ dueRing s < x.2) → exec (.parityEntryRemove uid) s = .next s) ∧
     (∀ d, s.em.parity = [(uid, d)] → d ≤ dueRing s → ∃ t, exec (.parityEntryRemove uid) s = .next t ∧ t.em.parity = [] ∧
       t.em.ents = s.em.ents.filter (fun e => !(e.learned && e.uid == uid)) ∧ t.cut = s.cut ∧ t.cmp = s.cmp))

/-! ## Cuts, the grove, empty compartments (R125, R148, R152, R209 to R211, R446) -/

/-- CUT_RETIRE, RANGER_REPAIR, GROVE_MOVE, GROVE_SCRUB and CMP_EMPTY (R125, R152, R209, R211, R446): a superseded cut that no frame
holds leaves at a later boundary, its handle is free and CUT_RETIRED is posted; due repairs are gone; the first waiting grove write is carried out
and answered; a bad word that the scrub reads is counted; and a frozen compartment that has become empty says so once. -/
def Obligations.RetireMoveEmpty : Prop :=
  ∀ (s : State) (c : Fin 32) (h : Fin 64) (a : Fin 5) (i : Nat), halted s = false →
    let found := s.cut.cuts.find? (fun x => x.cid == c.val && x.handle == h.val)
    (found = none ∨ atBoundary s = false → exec (.cutRetire c h) s = .next s) ∧
    (∀ x, found = some x → retirable s x = false → exec (.cutRetire c h) s = .next s) ∧
    (∀ x, atBoundary s = true → found = some x → retirable s x = true → ∃ t, exec (.cutRetire c h) s = .next t ∧
      t.cut.cuts = s.cut.cuts.filter (fun y => y.handle != h.val) ∧ t.cut.stage = s.cut.stage ∧ t.cmp = s.cmp ∧ t.lnd = s.lnd ∧
      (∀ e ∈ s.em.ents, e.learned = true → e ∈ t.em.ents)) ∧
    exec .rangerRepair s = .next { s with par := { s.par with repairs := s.par.repairs.filter (fun r => decide (s.ran ≤ r.ring)) } } ∧
    (s.grv.jobs = [] → ∀ bad, exec (.groveMove bad) s = .next s) ∧
    (∀ j r, s.grv.jobs = j :: r → ∀ bad,
      exec (.groveMove bad) s = .next (grvFinish bad j { s with grv := { s.grv with jobs := r } })) ∧
    exec (.groveScrub a i none) s = .next s ∧
    (∀ w, a.val < 4 → (grovePresent s.variant a.val = false ∨ isFenced s (uGrove a.val) = true) →
      exec (.groveScrub a i (some w)) s = .next s) ∧
    (∀ w, (a.val < 4 → grovePresent s.variant a.val = true ∧ isFenced s (uGrove a.val) = false) →
      exec (.groveScrub a i (some w)) s = .next (grvFail a.val i w.val 1 s)) ∧
    (let x := cmpOf s c.val
     let due := atBoundary s = true ∧ x.defined = true ∧ x.frozen = true ∧ x.emptyPosted = false ∧ isEmpty s c.val = true
     (due → exec (.cmpEmpty c) s = .next (cmpState c.val kEmpty (rotNow s c.val) 0 0 0
       (modCmp c.val (fun y => { y with emptyPosted := true }) s))) ∧
     (¬ due → exec (.cmpEmpty c) s = .next s))
end

