-- ==== Sys2Proof/Laws/Tab.lean ====
section
/-!
SUPPORT. Laws of sparse tables: reading after writing, and that writing keeps the canonical form.
-/
namespace Sys2Proof.Machine

variable {α : Type}

@[simp] theorem tget_nil (d : α) (k : Key) : tget d [] k = d := rfl

theorem tget_cons (d : α) (k' : Key) (v : α) (r : Tab α) (k : Key) :
    tget d ((k', v) :: r) k = if k' = k then v else tget d r k := rfl

/-- A deleted key reads as the default. -/
@[simp] theorem tget_tdel_self (d : α) (t : Tab α) (k : Key) : tget d (tdel t k) k = d := by
  induction t with
  | nil => rfl
  | cons e r ih =>
    obtain ⟨k', v⟩ := e
    by_cases h : k' = k <;> simp [tdel, h, ih, tget_cons]

/-- Deleting a key leaves every other key as it was. -/
theorem tget_tdel_ne (d : α) (t : Tab α) {k j : Key} (h : j ≠ k) : tget d (tdel t k) j = tget d t j := by
  induction t with
  | nil => rfl
  | cons e r ih =>
    obtain ⟨k', v⟩ := e
    by_cases hk : k' = k
    · subst hk; simp [tdel, tget_cons, ih, Ne.symm h]
    · simp [tdel, hk, tget_cons, ih]

/-- An inserted key reads as its value where the table held no such key. -/
theorem tget_tins_self (d : α) (t : Tab α) (k : Key) (v : α) : tget d (tins (tdel t k) k v) k = v := by
  induction t with
  | nil => simp [tdel, tins, tget_cons]
  | cons e r ih =>
    obtain ⟨k', w⟩ := e
    by_cases hk : k' = k
    · simp [tdel, hk, ih]
    · by_cases hl : keyLt k k' <;> simp [tdel, hk, tins, hl, tget_cons, ih]

/-- Inserting a key leaves every other key as it was. -/
theorem tget_tins_ne (d : α) (t : Tab α) {k j : Key} (v : α) (h : j ≠ k) : tget d (tins t k v) j = tget d t j := by
  induction t with
  | nil => simp [tins, tget_cons, Ne.symm h]
  | cons e r ih =>
    obtain ⟨k', w⟩ := e
    by_cases hl : keyLt k k' <;> simp [tins, hl, tget_cons, ih, Ne.symm h]

/-- A read after a write of the same key gives the value written. -/
@[simp] theorem tget_tput_self [DecidableEq α] (d : α) (t : Tab α) (k : Key) (v : α) : tget d (tput d t k v) k = v := by
  by_cases h : v = d <;> simp [tput, h, tget_tins_self]

/-- A write leaves every other key as it was. -/
theorem tget_tput_ne [DecidableEq α] (d : α) (t : Tab α) {k j : Key} (v : α) (h : j ≠ k) :
    tget d (tput d t k v) j = tget d t j := by
  by_cases hv : v = d <;> simp [tput, hv, tget_tins_ne, tget_tdel_ne, h]

@[simp] theorem tget_tmod_self [DecidableEq α] (d : α) (t : Tab α) (k : Key) (f : α → α) :
    tget d (tmod d t k f) k = f (tget d t k) := by simp [tmod]

theorem tget_tmod_ne [DecidableEq α] (d : α) (t : Tab α) {k j : Key} (f : α → α) (h : j ≠ k) :
    tget d (tmod d t k f) j = tget d t j := by simp [tmod, tget_tput_ne, h]

/-! ## The canonical form -/

theorem keyLt_iff (a b : Key) :
    keyLt a b = true ↔ a.1 < b.1 ∨ (a.1 = b.1 ∧ (a.2.1 < b.2.1 ∨ (a.2.1 = b.2.1 ∧ a.2.2 < b.2.2))) := by
  simp [keyLt]

theorem keyLt_irrefl (a : Key) : keyLt a a = false := by
  rw [← Bool.not_eq_true, keyLt_iff]; omega

theorem keyLt_trans {a b c : Key} (h : keyLt a b = true) (g : keyLt b c = true) : keyLt a c = true := by
  rw [keyLt_iff] at *; omega

/-- Keys are ordered totally. -/
theorem keyLt_total {a b : Key} (h : a ≠ b) (g : keyLt a b = false) : keyLt b a = true := by
  rw [← Bool.not_eq_true, keyLt_iff] at g
  rw [keyLt_iff]
  have : ¬ (a.1 = b.1 ∧ a.2.1 = b.2.1 ∧ a.2.2 = b.2.2) := fun ⟨x, y, z⟩ => h (Prod.ext x (Prod.ext y z))
  omega

/-- All keys of a table lie above `k`. -/
def allAbove (k : Key) (t : Tab α) : Prop := ∀ e ∈ t, keyLt k e.1 = true

theorem tabSorted_cons (a : Key) (v : α) (r : Tab α) :
    tabSorted ((a, v) :: r) = true ↔ allAbove a r ∧ tabSorted r = true := by
  induction r generalizing a v with
  | nil => simp [tabSorted, allAbove]
  | cons e r ih =>
    obtain ⟨b, w⟩ := e
    simp only [tabSorted, Bool.and_eq_true]
    constructor
    · rintro ⟨h, g⟩
      refine ⟨?_, g⟩
      intro e he
      rcases List.mem_cons.mp he with rfl | he
      · exact h
      · exact keyLt_trans h (((ih b w).mp g).1 e he)
    · rintro ⟨h, g⟩
      exact ⟨h (b, w) List.mem_cons_self, g⟩

theorem allAbove_tdel {k j : Key} {t : Tab α} (h : allAbove k t) : allAbove k (tdel t j) := by
  induction t with
  | nil => exact h
  | cons e r ih =>
    obtain ⟨k', v⟩ := e
    have hr : allAbove k r := fun e he => h e (List.mem_cons_of_mem _ he)
    by_cases hk : k' = j
    · simpa [tdel, hk] using ih hr
    · intro e he
      simp only [tdel, hk, if_false, List.mem_cons] at he
      rcases he with rfl | he
      · exact h _ List.mem_cons_self
      · exact ih hr e he

theorem tabSorted_tdel {t : Tab α} (j : Key) (h : tabSorted t = true) : tabSorted (tdel t j) = true := by
  induction t with
  | nil => exact h
  | cons e r ih =>
    obtain ⟨k', v⟩ := e
    obtain ⟨ha, hr⟩ := (tabSorted_cons k' v r).mp h
    by_cases hk : k' = j
    · simpa [tdel, hk] using ih hr
    · simp only [tdel, hk, if_false]
      exact (tabSorted_cons _ _ _).mpr ⟨allAbove_tdel ha, ih hr⟩

theorem mem_tins {k : Key} {v : α} {t : Tab α} {e : Key × α} (h : e ∈ tins t k v) : e = (k, v) ∨ e ∈ t := by
  induction t with
  | nil => simpa [tins] using h
  | cons x r ih =>
    obtain ⟨k', w⟩ := x
    by_cases hl : keyLt k k' = true
    · simpa [tins, hl] using h
    · have g : e = (k', w) ∨ e ∈ tins r k v := by simpa [tins, hl] using h
      rcases g with g | g
      · exact .inr (List.mem_cons.mpr (.inl g))
      · exact (ih g).imp id (List.mem_cons_of_mem _)

theorem tabSorted_tins {t : Tab α} (k : Key) (v : α) (h : tabSorted t = true) (hk : ∀ e ∈ t, e.1 ≠ k) :
    tabSorted (tins t k v) = true := by
  induction t with
  | nil => rfl
  | cons x r ih =>
    obtain ⟨k', w⟩ := x
    obtain ⟨ha, hr⟩ := (tabSorted_cons k' w r).mp h
    by_cases hl : keyLt k k' = true
    · simp only [tins, hl, if_true]
      refine (tabSorted_cons _ _ _).mpr ⟨?_, h⟩
      intro e he
      rcases List.mem_cons.mp he with rfl | he
      · exact hl
      · exact keyLt_trans hl (ha e he)
    · simp only [tins, hl]
      refine (tabSorted_cons _ _ _).mpr ⟨?_, ih hr (fun e he => hk e (List.mem_cons_of_mem _ he))⟩
      intro e he
      rcases mem_tins he with rfl | he
      · exact keyLt_total (fun q => hk (k', w) List.mem_cons_self q.symm) (by simpa using hl)
      · exact ha e he

theorem mem_tdel {k : Key} {t : Tab α} {e : Key × α} (h : e ∈ tdel t k) : e ∈ t ∧ e.1 ≠ k := by
  induction t with
  | nil => exact absurd h List.not_mem_nil
  | cons x r ih =>
    obtain ⟨k', w⟩ := x
    by_cases hk : k' = k
    · simp only [tdel, hk, if_true] at h
      exact ⟨List.mem_cons_of_mem _ (ih h).1, (ih h).2⟩
    · simp only [tdel, hk, if_false, List.mem_cons] at h
      rcases h with h | h
      · subst h; exact ⟨List.mem_cons_self, hk⟩
      · exact ⟨List.mem_cons_of_mem _ (ih h).1, (ih h).2⟩

/-- Every write keeps the canonical form of a table. -/
theorem tabWf_tput [DecidableEq α] (d : α) {t : Tab α} (k : Key) (v : α) (h : tabWf d t = true) :
    tabWf d (tput d t k v) = true := by
  simp only [tabWf, Bool.and_eq_true, List.all_eq_true, decide_eq_true_eq] at h ⊢
  obtain ⟨hs, hd⟩ := h
  by_cases hv : v = d
  · simp only [tput, hv, if_true]
    exact ⟨tabSorted_tdel k hs, fun e he => hd e (mem_tdel he).1⟩
  · simp only [tput, hv, if_false]
    refine ⟨tabSorted_tins k v (tabSorted_tdel k hs) (fun e he => (mem_tdel he).2), ?_⟩
    intro e he
    rcases mem_tins he with rfl | he
    · exact hv
    · exact hd e (mem_tdel he).1

theorem tabWf_tmod [DecidableEq α] (d : α) {t : Tab α} (k : Key) (f : α → α) (h : tabWf d t = true) :
    tabWf d (tmod d t k f) = true := tabWf_tput d k _ h

end Sys2Proof.Machine
end

