-- ==== Sys2Proof/Laws/State.lean ====
section
/-!
SUPPORT. Laws of the named updates of the state: what each leaves unchanged, and reading an entry after writing it.
-/
namespace Sys2Proof.Machine

variable (s : State)

/-! `modPort` changes `link` alone. -/

@[simp] theorem modPort_pending (p : Nat) (f : Port → Port) : (modPort p f s).pending = s.pending := rfl
@[simp] theorem modPort_variant (p : Nat) (f : Port → Port) : (modPort p f s).variant = s.variant := rfl
@[simp] theorem modPort_ring (p : Nat) (f : Port → Port) : (modPort p f s).ring = s.ring := rfl
@[simp] theorem modPort_clock (p : Nat) (f : Port → Port) : (modPort p f s).clock = s.clock := rfl
@[simp] theorem modPort_ran (p : Nat) (f : Port → Port) : (modPort p f s).ran = s.ran := rfl
@[simp] theorem modPort_freeCtr (p : Nat) (f : Port → Port) : (modPort p f s).freeCtr = s.freeCtr := rfl
@[simp] theorem modPort_items (p : Nat) (f : Port → Port) : (modPort p f s).items = s.items := rfl
@[simp] theorem modPort_tim (p : Nat) (f : Port → Port) : (modPort p f s).tim = s.tim := rfl
@[simp] theorem modPort_host (p : Nat) (f : Port → Port) : (modPort p f s).host = s.host := rfl
@[simp] theorem modPort_lko (p : Nat) (f : Port → Port) : (modPort p f s).lko = s.lko := rfl
@[simp] theorem modPort_md (p : Nat) (f : Port → Port) : (modPort p f s).md = s.md := rfl
@[simp] theorem modPort_cmp (p : Nat) (f : Port → Port) : (modPort p f s).cmp = s.cmp := rfl
@[simp] theorem modPort_trust (p : Nat) (f : Port → Port) : (modPort p f s).trust = s.trust := rfl
@[simp] theorem modPort_par (p : Nat) (f : Port → Port) : (modPort p f s).par = s.par := rfl
@[simp] theorem modPort_cut (p : Nat) (f : Port → Port) : (modPort p f s).cut = s.cut := rfl
@[simp] theorem modPort_em (p : Nat) (f : Port → Port) : (modPort p f s).em = s.em := rfl
@[simp] theorem modPort_grv (p : Nat) (f : Port → Port) : (modPort p f s).grv = s.grv := rfl
@[simp] theorem modPort_lnd (p : Nat) (f : Port → Port) : (modPort p f s).lnd = s.lnd := rfl
@[simp] theorem modPort_buf (p : Nat) (f : Port → Port) : (modPort p f s).buf = s.buf := rfl
@[simp] theorem modPort_krf (p : Nat) (f : Port → Port) : (modPort p f s).krf = s.krf := rfl
@[simp] theorem modPort_sch (p : Nat) (f : Port → Port) : (modPort p f s).sch = s.sch := rfl
@[simp] theorem modPort_dram (p : Nat) (f : Port → Port) : (modPort p f s).dram = s.dram := rfl
@[simp] theorem modPort_cap (p : Nat) (f : Port → Port) : (modPort p f s).cap = s.cap := rfl
@[simp] theorem modPort_ctr (p : Nat) (f : Port → Port) : (modPort p f s).ctr = s.ctr := rfl
@[simp] theorem modPort_pair (p : Nat) (f : Port → Port) : (modPort p f s).pair = s.pair := rfl
@[simp] theorem modPort_pwr (p : Nat) (f : Port → Port) : (modPort p f s).pwr = s.pwr := rfl
@[simp] theorem modPort_saved (p : Nat) (f : Port → Port) : (modPort p f s).saved = s.saved := rfl
@[simp] theorem modPort_snap (p : Nat) (f : Port → Port) : (modPort p f s).snap = s.snap := rfl

/-! `modUnit` changes `lko` alone. -/

@[simp] theorem modUnit_pending (u : Nat) (f : UnitSt → UnitSt) : (modUnit u f s).pending = s.pending := rfl
@[simp] theorem modUnit_variant (u : Nat) (f : UnitSt → UnitSt) : (modUnit u f s).variant = s.variant := rfl
@[simp] theorem modUnit_ring (u : Nat) (f : UnitSt → UnitSt) : (modUnit u f s).ring = s.ring := rfl
@[simp] theorem modUnit_clock (u : Nat) (f : UnitSt → UnitSt) : (modUnit u f s).clock = s.clock := rfl
@[simp] theorem modUnit_ran (u : Nat) (f : UnitSt → UnitSt) : (modUnit u f s).ran = s.ran := rfl
@[simp] theorem modUnit_freeCtr (u : Nat) (f : UnitSt → UnitSt) : (modUnit u f s).freeCtr = s.freeCtr := rfl
@[simp] theorem modUnit_items (u : Nat) (f : UnitSt → UnitSt) : (modUnit u f s).items = s.items := rfl
@[simp] theorem modUnit_tim (u : Nat) (f : UnitSt → UnitSt) : (modUnit u f s).tim = s.tim := rfl
@[simp] theorem modUnit_host (u : Nat) (f : UnitSt → UnitSt) : (modUnit u f s).host = s.host := rfl
@[simp] theorem modUnit_md (u : Nat) (f : UnitSt → UnitSt) : (modUnit u f s).md = s.md := rfl
@[simp] theorem modUnit_cmp (u : Nat) (f : UnitSt → UnitSt) : (modUnit u f s).cmp = s.cmp := rfl
@[simp] theorem modUnit_trust (u : Nat) (f : UnitSt → UnitSt) : (modUnit u f s).trust = s.trust := rfl
@[simp] theorem modUnit_link (u : Nat) (f : UnitSt → UnitSt) : (modUnit u f s).link = s.link := rfl
@[simp] theorem modUnit_par (u : Nat) (f : UnitSt → UnitSt) : (modUnit u f s).par = s.par := rfl
@[simp] theorem modUnit_cut (u : Nat) (f : UnitSt → UnitSt) : (modUnit u f s).cut = s.cut := rfl
@[simp] theorem modUnit_em (u : Nat) (f : UnitSt → UnitSt) : (modUnit u f s).em = s.em := rfl
@[simp] theorem modUnit_grv (u : Nat) (f : UnitSt → UnitSt) : (modUnit u f s).grv = s.grv := rfl
@[simp] theorem modUnit_lnd (u : Nat) (f : UnitSt → UnitSt) : (modUnit u f s).lnd = s.lnd := rfl
@[simp] theorem modUnit_buf (u : Nat) (f : UnitSt → UnitSt) : (modUnit u f s).buf = s.buf := rfl
@[simp] theorem modUnit_krf (u : Nat) (f : UnitSt → UnitSt) : (modUnit u f s).krf = s.krf := rfl
@[simp] theorem modUnit_sch (u : Nat) (f : UnitSt → UnitSt) : (modUnit u f s).sch = s.sch := rfl
@[simp] theorem modUnit_dram (u : Nat) (f : UnitSt → UnitSt) : (modUnit u f s).dram = s.dram := rfl
@[simp] theorem modUnit_cap (u : Nat) (f : UnitSt → UnitSt) : (modUnit u f s).cap = s.cap := rfl
@[simp] theorem modUnit_ctr (u : Nat) (f : UnitSt → UnitSt) : (modUnit u f s).ctr = s.ctr := rfl
@[simp] theorem modUnit_pair (u : Nat) (f : UnitSt → UnitSt) : (modUnit u f s).pair = s.pair := rfl
@[simp] theorem modUnit_pwr (u : Nat) (f : UnitSt → UnitSt) : (modUnit u f s).pwr = s.pwr := rfl
@[simp] theorem modUnit_saved (u : Nat) (f : UnitSt → UnitSt) : (modUnit u f s).saved = s.saved := rfl
@[simp] theorem modUnit_snap (u : Nat) (f : UnitSt → UnitSt) : (modUnit u f s).snap = s.snap := rfl

/-! `modCmp` changes `cmp` alone. -/

@[simp] theorem modCmp_pending (c : Nat) (f : Cmp → Cmp) : (modCmp c f s).pending = s.pending := rfl
@[simp] theorem modCmp_variant (c : Nat) (f : Cmp → Cmp) : (modCmp c f s).variant = s.variant := rfl
@[simp] theorem modCmp_ring (c : Nat) (f : Cmp → Cmp) : (modCmp c f s).ring = s.ring := rfl
@[simp] theorem modCmp_clock (c : Nat) (f : Cmp → Cmp) : (modCmp c f s).clock = s.clock := rfl
@[simp] theorem modCmp_ran (c : Nat) (f : Cmp → Cmp) : (modCmp c f s).ran = s.ran := rfl
@[simp] theorem modCmp_freeCtr (c : Nat) (f : Cmp → Cmp) : (modCmp c f s).freeCtr = s.freeCtr := rfl
@[simp] theorem modCmp_items (c : Nat) (f : Cmp → Cmp) : (modCmp c f s).items = s.items := rfl
@[simp] theorem modCmp_tim (c : Nat) (f : Cmp → Cmp) : (modCmp c f s).tim = s.tim := rfl
@[simp] theorem modCmp_host (c : Nat) (f : Cmp → Cmp) : (modCmp c f s).host = s.host := rfl
@[simp] theorem modCmp_lko (c : Nat) (f : Cmp → Cmp) : (modCmp c f s).lko = s.lko := rfl
@[simp] theorem modCmp_md (c : Nat) (f : Cmp → Cmp) : (modCmp c f s).md = s.md := rfl
@[simp] theorem modCmp_trust (c : Nat) (f : Cmp → Cmp) : (modCmp c f s).trust = s.trust := rfl
@[simp] theorem modCmp_link (c : Nat) (f : Cmp → Cmp) : (modCmp c f s).link = s.link := rfl
@[simp] theorem modCmp_par (c : Nat) (f : Cmp → Cmp) : (modCmp c f s).par = s.par := rfl
@[simp] theorem modCmp_cut (c : Nat) (f : Cmp → Cmp) : (modCmp c f s).cut = s.cut := rfl
@[simp] theorem modCmp_em (c : Nat) (f : Cmp → Cmp) : (modCmp c f s).em = s.em := rfl
@[simp] theorem modCmp_grv (c : Nat) (f : Cmp → Cmp) : (modCmp c f s).grv = s.grv := rfl
@[simp] theorem modCmp_lnd (c : Nat) (f : Cmp → Cmp) : (modCmp c f s).lnd = s.lnd := rfl
@[simp] theorem modCmp_buf (c : Nat) (f : Cmp → Cmp) : (modCmp c f s).buf = s.buf := rfl
@[simp] theorem modCmp_krf (c : Nat) (f : Cmp → Cmp) : (modCmp c f s).krf = s.krf := rfl
@[simp] theorem modCmp_sch (c : Nat) (f : Cmp → Cmp) : (modCmp c f s).sch = s.sch := rfl
@[simp] theorem modCmp_dram (c : Nat) (f : Cmp → Cmp) : (modCmp c f s).dram = s.dram := rfl
@[simp] theorem modCmp_cap (c : Nat) (f : Cmp → Cmp) : (modCmp c f s).cap = s.cap := rfl
@[simp] theorem modCmp_ctr (c : Nat) (f : Cmp → Cmp) : (modCmp c f s).ctr = s.ctr := rfl
@[simp] theorem modCmp_pair (c : Nat) (f : Cmp → Cmp) : (modCmp c f s).pair = s.pair := rfl
@[simp] theorem modCmp_pwr (c : Nat) (f : Cmp → Cmp) : (modCmp c f s).pwr = s.pwr := rfl
@[simp] theorem modCmp_saved (c : Nat) (f : Cmp → Cmp) : (modCmp c f s).saved = s.saved := rfl
@[simp] theorem modCmp_snap (c : Nat) (f : Cmp → Cmp) : (modCmp c f s).snap = s.snap := rfl

/-! `cnt` changes `ctr` alone. -/

@[simp] theorem cnt_pending (c : Ctr) (i j n : Nat) : (cnt c i j n s).pending = s.pending := rfl
@[simp] theorem cnt_variant (c : Ctr) (i j n : Nat) : (cnt c i j n s).variant = s.variant := rfl
@[simp] theorem cnt_ring (c : Ctr) (i j n : Nat) : (cnt c i j n s).ring = s.ring := rfl
@[simp] theorem cnt_clock (c : Ctr) (i j n : Nat) : (cnt c i j n s).clock = s.clock := rfl
@[simp] theorem cnt_ran (c : Ctr) (i j n : Nat) : (cnt c i j n s).ran = s.ran := rfl
@[simp] theorem cnt_freeCtr (c : Ctr) (i j n : Nat) : (cnt c i j n s).freeCtr = s.freeCtr := rfl
@[simp] theorem cnt_items (c : Ctr) (i j n : Nat) : (cnt c i j n s).items = s.items := rfl
@[simp] theorem cnt_tim (c : Ctr) (i j n : Nat) : (cnt c i j n s).tim = s.tim := rfl
@[simp] theorem cnt_host (c : Ctr) (i j n : Nat) : (cnt c i j n s).host = s.host := rfl
@[simp] theorem cnt_lko (c : Ctr) (i j n : Nat) : (cnt c i j n s).lko = s.lko := rfl
@[simp] theorem cnt_md (c : Ctr) (i j n : Nat) : (cnt c i j n s).md = s.md := rfl
@[simp] theorem cnt_cmp (c : Ctr) (i j n : Nat) : (cnt c i j n s).cmp = s.cmp := rfl
@[simp] theorem cnt_trust (c : Ctr) (i j n : Nat) : (cnt c i j n s).trust = s.trust := rfl
@[simp] theorem cnt_link (c : Ctr) (i j n : Nat) : (cnt c i j n s).link = s.link := rfl
@[simp] theorem cnt_par (c : Ctr) (i j n : Nat) : (cnt c i j n s).par = s.par := rfl
@[simp] theorem cnt_cut (c : Ctr) (i j n : Nat) : (cnt c i j n s).cut = s.cut := rfl
@[simp] theorem cnt_em (c : Ctr) (i j n : Nat) : (cnt c i j n s).em = s.em := rfl
@[simp] theorem cnt_grv (c : Ctr) (i j n : Nat) : (cnt c i j n s).grv = s.grv := rfl
@[simp] theorem cnt_lnd (c : Ctr) (i j n : Nat) : (cnt c i j n s).lnd = s.lnd := rfl
@[simp] theorem cnt_buf (c : Ctr) (i j n : Nat) : (cnt c i j n s).buf = s.buf := rfl
@[simp] theorem cnt_krf (c : Ctr) (i j n : Nat) : (cnt c i j n s).krf = s.krf := rfl
@[simp] theorem cnt_sch (c : Ctr) (i j n : Nat) : (cnt c i j n s).sch = s.sch := rfl
@[simp] theorem cnt_dram (c : Ctr) (i j n : Nat) : (cnt c i j n s).dram = s.dram := rfl
@[simp] theorem cnt_cap (c : Ctr) (i j n : Nat) : (cnt c i j n s).cap = s.cap := rfl
@[simp] theorem cnt_pair (c : Ctr) (i j n : Nat) : (cnt c i j n s).pair = s.pair := rfl
@[simp] theorem cnt_pwr (c : Ctr) (i j n : Nat) : (cnt c i j n s).pwr = s.pwr := rfl
@[simp] theorem cnt_saved (c : Ctr) (i j n : Nat) : (cnt c i j n s).saved = s.saved := rfl
@[simp] theorem cnt_snap (c : Ctr) (i j n : Nat) : (cnt c i j n s).snap = s.snap := rfl

/-! `ctrMax` changes `ctr` alone. -/

@[simp] theorem ctrMax_pending (c : Ctr) (i j n : Nat) : (ctrMax c i j n s).pending = s.pending := rfl
@[simp] theorem ctrMax_variant (c : Ctr) (i j n : Nat) : (ctrMax c i j n s).variant = s.variant := rfl
@[simp] theorem ctrMax_ring (c : Ctr) (i j n : Nat) : (ctrMax c i j n s).ring = s.ring := rfl
@[simp] theorem ctrMax_clock (c : Ctr) (i j n : Nat) : (ctrMax c i j n s).clock = s.clock := rfl
@[simp] theorem ctrMax_ran (c : Ctr) (i j n : Nat) : (ctrMax c i j n s).ran = s.ran := rfl
@[simp] theorem ctrMax_freeCtr (c : Ctr) (i j n : Nat) : (ctrMax c i j n s).freeCtr = s.freeCtr := rfl
@[simp] theorem ctrMax_items (c : Ctr) (i j n : Nat) : (ctrMax c i j n s).items = s.items := rfl
@[simp] theorem ctrMax_tim (c : Ctr) (i j n : Nat) : (ctrMax c i j n s).tim = s.tim := rfl
@[simp] theorem ctrMax_host (c : Ctr) (i j n : Nat) : (ctrMax c i j n s).host = s.host := rfl
@[simp] theorem ctrMax_lko (c : Ctr) (i j n : Nat) : (ctrMax c i j n s).lko = s.lko := rfl
@[simp] theorem ctrMax_md (c : Ctr) (i j n : Nat) : (ctrMax c i j n s).md = s.md := rfl
@[simp] theorem ctrMax_cmp (c : Ctr) (i j n : Nat) : (ctrMax c i j n s).cmp = s.cmp := rfl
@[simp] theorem ctrMax_trust (c : Ctr) (i j n : Nat) : (ctrMax c i j n s).trust = s.trust := rfl
@[simp] theorem ctrMax_link (c : Ctr) (i j n : Nat) : (ctrMax c i j n s).link = s.link := rfl
@[simp] theorem ctrMax_par (c : Ctr) (i j n : Nat) : (ctrMax c i j n s).par = s.par := rfl
@[simp] theorem ctrMax_cut (c : Ctr) (i j n : Nat) : (ctrMax c i j n s).cut = s.cut := rfl
@[simp] theorem ctrMax_em (c : Ctr) (i j n : Nat) : (ctrMax c i j n s).em = s.em := rfl
@[simp] theorem ctrMax_grv (c : Ctr) (i j n : Nat) : (ctrMax c i j n s).grv = s.grv := rfl
@[simp] theorem ctrMax_lnd (c : Ctr) (i j n : Nat) : (ctrMax c i j n s).lnd = s.lnd := rfl
@[simp] theorem ctrMax_buf (c : Ctr) (i j n : Nat) : (ctrMax c i j n s).buf = s.buf := rfl
@[simp] theorem ctrMax_krf (c : Ctr) (i j n : Nat) : (ctrMax c i j n s).krf = s.krf := rfl
@[simp] theorem ctrMax_sch (c : Ctr) (i j n : Nat) : (ctrMax c i j n s).sch = s.sch := rfl
@[simp] theorem ctrMax_dram (c : Ctr) (i j n : Nat) : (ctrMax c i j n s).dram = s.dram := rfl
@[simp] theorem ctrMax_cap (c : Ctr) (i j n : Nat) : (ctrMax c i j n s).cap = s.cap := rfl
@[simp] theorem ctrMax_pair (c : Ctr) (i j n : Nat) : (ctrMax c i j n s).pair = s.pair := rfl
@[simp] theorem ctrMax_pwr (c : Ctr) (i j n : Nat) : (ctrMax c i j n s).pwr = s.pwr := rfl
@[simp] theorem ctrMax_saved (c : Ctr) (i j n : Nat) : (ctrMax c i j n s).saved = s.saved := rfl
@[simp] theorem ctrMax_snap (c : Ctr) (i j n : Nat) : (ctrMax c i j n s).snap = s.snap := rfl

/-! `modMbx` changes `host` alone. -/

@[simp] theorem modMbx_pending (c : Nat) (f : Mbx → Mbx) : (modMbx c f s).pending = s.pending := rfl
@[simp] theorem modMbx_variant (c : Nat) (f : Mbx → Mbx) : (modMbx c f s).variant = s.variant := rfl
@[simp] theorem modMbx_ring (c : Nat) (f : Mbx → Mbx) : (modMbx c f s).ring = s.ring := rfl
@[simp] theorem modMbx_clock (c : Nat) (f : Mbx → Mbx) : (modMbx c f s).clock = s.clock := rfl
@[simp] theorem modMbx_ran (c : Nat) (f : Mbx → Mbx) : (modMbx c f s).ran = s.ran := rfl
@[simp] theorem modMbx_freeCtr (c : Nat) (f : Mbx → Mbx) : (modMbx c f s).freeCtr = s.freeCtr := rfl
@[simp] theorem modMbx_items (c : Nat) (f : Mbx → Mbx) : (modMbx c f s).items = s.items := rfl
@[simp] theorem modMbx_tim (c : Nat) (f : Mbx → Mbx) : (modMbx c f s).tim = s.tim := rfl
@[simp] theorem modMbx_lko (c : Nat) (f : Mbx → Mbx) : (modMbx c f s).lko = s.lko := rfl
@[simp] theorem modMbx_md (c : Nat) (f : Mbx → Mbx) : (modMbx c f s).md = s.md := rfl
@[simp] theorem modMbx_cmp (c : Nat) (f : Mbx → Mbx) : (modMbx c f s).cmp = s.cmp := rfl
@[simp] theorem modMbx_trust (c : Nat) (f : Mbx → Mbx) : (modMbx c f s).trust = s.trust := rfl
@[simp] theorem modMbx_link (c : Nat) (f : Mbx → Mbx) : (modMbx c f s).link = s.link := rfl
@[simp] theorem modMbx_par (c : Nat) (f : Mbx → Mbx) : (modMbx c f s).par = s.par := rfl
@[simp] theorem modMbx_cut (c : Nat) (f : Mbx → Mbx) : (modMbx c f s).cut = s.cut := rfl
@[simp] theorem modMbx_em (c : Nat) (f : Mbx → Mbx) : (modMbx c f s).em = s.em := rfl
@[simp] theorem modMbx_grv (c : Nat) (f : Mbx → Mbx) : (modMbx c f s).grv = s.grv := rfl
@[simp] theorem modMbx_lnd (c : Nat) (f : Mbx → Mbx) : (modMbx c f s).lnd = s.lnd := rfl
@[simp] theorem modMbx_buf (c : Nat) (f : Mbx → Mbx) : (modMbx c f s).buf = s.buf := rfl
@[simp] theorem modMbx_krf (c : Nat) (f : Mbx → Mbx) : (modMbx c f s).krf = s.krf := rfl
@[simp] theorem modMbx_sch (c : Nat) (f : Mbx → Mbx) : (modMbx c f s).sch = s.sch := rfl
@[simp] theorem modMbx_dram (c : Nat) (f : Mbx → Mbx) : (modMbx c f s).dram = s.dram := rfl
@[simp] theorem modMbx_cap (c : Nat) (f : Mbx → Mbx) : (modMbx c f s).cap = s.cap := rfl
@[simp] theorem modMbx_ctr (c : Nat) (f : Mbx → Mbx) : (modMbx c f s).ctr = s.ctr := rfl
@[simp] theorem modMbx_pair (c : Nat) (f : Mbx → Mbx) : (modMbx c f s).pair = s.pair := rfl
@[simp] theorem modMbx_pwr (c : Nat) (f : Mbx → Mbx) : (modMbx c f s).pwr = s.pwr := rfl
@[simp] theorem modMbx_saved (c : Nat) (f : Mbx → Mbx) : (modMbx c f s).saved = s.saved := rfl
@[simp] theorem modMbx_snap (c : Nat) (f : Mbx → Mbx) : (modMbx c f s).snap = s.snap := rfl

/-! `modVec` changes `host` alone. -/

@[simp] theorem modVec_pending (c k : Nat) (f : Vec → Vec) : (modVec c k f s).pending = s.pending := rfl
@[simp] theorem modVec_variant (c k : Nat) (f : Vec → Vec) : (modVec c k f s).variant = s.variant := rfl
@[simp] theorem modVec_ring (c k : Nat) (f : Vec → Vec) : (modVec c k f s).ring = s.ring := rfl
@[simp] theorem modVec_clock (c k : Nat) (f : Vec → Vec) : (modVec c k f s).clock = s.clock := rfl
@[simp] theorem modVec_ran (c k : Nat) (f : Vec → Vec) : (modVec c k f s).ran = s.ran := rfl
@[simp] theorem modVec_freeCtr (c k : Nat) (f : Vec → Vec) : (modVec c k f s).freeCtr = s.freeCtr := rfl
@[simp] theorem modVec_items (c k : Nat) (f : Vec → Vec) : (modVec c k f s).items = s.items := rfl
@[simp] theorem modVec_tim (c k : Nat) (f : Vec → Vec) : (modVec c k f s).tim = s.tim := rfl
@[simp] theorem modVec_lko (c k : Nat) (f : Vec → Vec) : (modVec c k f s).lko = s.lko := rfl
@[simp] theorem modVec_md (c k : Nat) (f : Vec → Vec) : (modVec c k f s).md = s.md := rfl
@[simp] theorem modVec_cmp (c k : Nat) (f : Vec → Vec) : (modVec c k f s).cmp = s.cmp := rfl
@[simp] theorem modVec_trust (c k : Nat) (f : Vec → Vec) : (modVec c k f s).trust = s.trust := rfl
@[simp] theorem modVec_link (c k : Nat) (f : Vec → Vec) : (modVec c k f s).link = s.link := rfl
@[simp] theorem modVec_par (c k : Nat) (f : Vec → Vec) : (modVec c k f s).par = s.par := rfl
@[simp] theorem modVec_cut (c k : Nat) (f : Vec → Vec) : (modVec c k f s).cut = s.cut := rfl
@[simp] theorem modVec_em (c k : Nat) (f : Vec → Vec) : (modVec c k f s).em = s.em := rfl
@[simp] theorem modVec_grv (c k : Nat) (f : Vec → Vec) : (modVec c k f s).grv = s.grv := rfl
@[simp] theorem modVec_lnd (c k : Nat) (f : Vec → Vec) : (modVec c k f s).lnd = s.lnd := rfl
@[simp] theorem modVec_buf (c k : Nat) (f : Vec → Vec) : (modVec c k f s).buf = s.buf := rfl
@[simp] theorem modVec_krf (c k : Nat) (f : Vec → Vec) : (modVec c k f s).krf = s.krf := rfl
@[simp] theorem modVec_sch (c k : Nat) (f : Vec → Vec) : (modVec c k f s).sch = s.sch := rfl
@[simp] theorem modVec_dram (c k : Nat) (f : Vec → Vec) : (modVec c k f s).dram = s.dram := rfl
@[simp] theorem modVec_cap (c k : Nat) (f : Vec → Vec) : (modVec c k f s).cap = s.cap := rfl
@[simp] theorem modVec_ctr (c k : Nat) (f : Vec → Vec) : (modVec c k f s).ctr = s.ctr := rfl
@[simp] theorem modVec_pair (c k : Nat) (f : Vec → Vec) : (modVec c k f s).pair = s.pair := rfl
@[simp] theorem modVec_pwr (c k : Nat) (f : Vec → Vec) : (modVec c k f s).pwr = s.pwr := rfl
@[simp] theorem modVec_saved (c k : Nat) (f : Vec → Vec) : (modVec c k f s).saved = s.saved := rfl
@[simp] theorem modVec_snap (c k : Nat) (f : Vec → Vec) : (modVec c k f s).snap = s.snap := rfl

/-! `modRank` changes `dram` alone. -/

@[simp] theorem modRank_pending (c r : Nat) (f : Rank → Rank) : (modRank c r f s).pending = s.pending := rfl
@[simp] theorem modRank_variant (c r : Nat) (f : Rank → Rank) : (modRank c r f s).variant = s.variant := rfl
@[simp] theorem modRank_ring (c r : Nat) (f : Rank → Rank) : (modRank c r f s).ring = s.ring := rfl
@[simp] theorem modRank_clock (c r : Nat) (f : Rank → Rank) : (modRank c r f s).clock = s.clock := rfl
@[simp] theorem modRank_ran (c r : Nat) (f : Rank → Rank) : (modRank c r f s).ran = s.ran := rfl
@[simp] theorem modRank_freeCtr (c r : Nat) (f : Rank → Rank) : (modRank c r f s).freeCtr = s.freeCtr := rfl
@[simp] theorem modRank_items (c r : Nat) (f : Rank → Rank) : (modRank c r f s).items = s.items := rfl
@[simp] theorem modRank_tim (c r : Nat) (f : Rank → Rank) : (modRank c r f s).tim = s.tim := rfl
@[simp] theorem modRank_host (c r : Nat) (f : Rank → Rank) : (modRank c r f s).host = s.host := rfl
@[simp] theorem modRank_lko (c r : Nat) (f : Rank → Rank) : (modRank c r f s).lko = s.lko := rfl
@[simp] theorem modRank_md (c r : Nat) (f : Rank → Rank) : (modRank c r f s).md = s.md := rfl
@[simp] theorem modRank_cmp (c r : Nat) (f : Rank → Rank) : (modRank c r f s).cmp = s.cmp := rfl
@[simp] theorem modRank_trust (c r : Nat) (f : Rank → Rank) : (modRank c r f s).trust = s.trust := rfl
@[simp] theorem modRank_link (c r : Nat) (f : Rank → Rank) : (modRank c r f s).link = s.link := rfl
@[simp] theorem modRank_par (c r : Nat) (f : Rank → Rank) : (modRank c r f s).par = s.par := rfl
@[simp] theorem modRank_cut (c r : Nat) (f : Rank → Rank) : (modRank c r f s).cut = s.cut := rfl
@[simp] theorem modRank_em (c r : Nat) (f : Rank → Rank) : (modRank c r f s).em = s.em := rfl
@[simp] theorem modRank_grv (c r : Nat) (f : Rank → Rank) : (modRank c r f s).grv = s.grv := rfl
@[simp] theorem modRank_lnd (c r : Nat) (f : Rank → Rank) : (modRank c r f s).lnd = s.lnd := rfl
@[simp] theorem modRank_buf (c r : Nat) (f : Rank → Rank) : (modRank c r f s).buf = s.buf := rfl
@[simp] theorem modRank_krf (c r : Nat) (f : Rank → Rank) : (modRank c r f s).krf = s.krf := rfl
@[simp] theorem modRank_sch (c r : Nat) (f : Rank → Rank) : (modRank c r f s).sch = s.sch := rfl
@[simp] theorem modRank_cap (c r : Nat) (f : Rank → Rank) : (modRank c r f s).cap = s.cap := rfl
@[simp] theorem modRank_ctr (c r : Nat) (f : Rank → Rank) : (modRank c r f s).ctr = s.ctr := rfl
@[simp] theorem modRank_pair (c r : Nat) (f : Rank → Rank) : (modRank c r f s).pair = s.pair := rfl
@[simp] theorem modRank_pwr (c r : Nat) (f : Rank → Rank) : (modRank c r f s).pwr = s.pwr := rfl
@[simp] theorem modRank_saved (c r : Nat) (f : Rank → Rank) : (modRank c r f s).saved = s.saved := rfl
@[simp] theorem modRank_snap (c r : Nat) (f : Rank → Rank) : (modRank c r f s).snap = s.snap := rfl

/-! `setEng` changes `krf` alone. -/

@[simp] theorem setEng_pending (p e : Nat) (x : Eng) : (setEng p e x s).pending = s.pending := rfl
@[simp] theorem setEng_variant (p e : Nat) (x : Eng) : (setEng p e x s).variant = s.variant := rfl
@[simp] theorem setEng_ring (p e : Nat) (x : Eng) : (setEng p e x s).ring = s.ring := rfl
@[simp] theorem setEng_clock (p e : Nat) (x : Eng) : (setEng p e x s).clock = s.clock := rfl
@[simp] theorem setEng_ran (p e : Nat) (x : Eng) : (setEng p e x s).ran = s.ran := rfl
@[simp] theorem setEng_freeCtr (p e : Nat) (x : Eng) : (setEng p e x s).freeCtr = s.freeCtr := rfl
@[simp] theorem setEng_items (p e : Nat) (x : Eng) : (setEng p e x s).items = s.items := rfl
@[simp] theorem setEng_tim (p e : Nat) (x : Eng) : (setEng p e x s).tim = s.tim := rfl
@[simp] theorem setEng_host (p e : Nat) (x : Eng) : (setEng p e x s).host = s.host := rfl
@[simp] theorem setEng_lko (p e : Nat) (x : Eng) : (setEng p e x s).lko = s.lko := rfl
@[simp] theorem setEng_md (p e : Nat) (x : Eng) : (setEng p e x s).md = s.md := rfl
@[simp] theorem setEng_cmp (p e : Nat) (x : Eng) : (setEng p e x s).cmp = s.cmp := rfl
@[simp] theorem setEng_trust (p e : Nat) (x : Eng) : (setEng p e x s).trust = s.trust := rfl
@[simp] theorem setEng_link (p e : Nat) (x : Eng) : (setEng p e x s).link = s.link := rfl
@[simp] theorem setEng_par (p e : Nat) (x : Eng) : (setEng p e x s).par = s.par := rfl
@[simp] theorem setEng_cut (p e : Nat) (x : Eng) : (setEng p e x s).cut = s.cut := rfl
@[simp] theorem setEng_em (p e : Nat) (x : Eng) : (setEng p e x s).em = s.em := rfl
@[simp] theorem setEng_grv (p e : Nat) (x : Eng) : (setEng p e x s).grv = s.grv := rfl
@[simp] theorem setEng_lnd (p e : Nat) (x : Eng) : (setEng p e x s).lnd = s.lnd := rfl
@[simp] theorem setEng_buf (p e : Nat) (x : Eng) : (setEng p e x s).buf = s.buf := rfl
@[simp] theorem setEng_sch (p e : Nat) (x : Eng) : (setEng p e x s).sch = s.sch := rfl
@[simp] theorem setEng_dram (p e : Nat) (x : Eng) : (setEng p e x s).dram = s.dram := rfl
@[simp] theorem setEng_cap (p e : Nat) (x : Eng) : (setEng p e x s).cap = s.cap := rfl
@[simp] theorem setEng_ctr (p e : Nat) (x : Eng) : (setEng p e x s).ctr = s.ctr := rfl
@[simp] theorem setEng_pair (p e : Nat) (x : Eng) : (setEng p e x s).pair = s.pair := rfl
@[simp] theorem setEng_pwr (p e : Nat) (x : Eng) : (setEng p e x s).pwr = s.pwr := rfl
@[simp] theorem setEng_saved (p e : Nat) (x : Eng) : (setEng p e x s).saved = s.saved := rfl
@[simp] theorem setEng_snap (p e : Nat) (x : Eng) : (setEng p e x s).snap = s.snap := rfl

/-! `setPath` changes `lnd` alone. -/

@[simp] theorem setPath_pending (i j : Nat) (p : Path) : (setPath i j p s).pending = s.pending := rfl
@[simp] theorem setPath_variant (i j : Nat) (p : Path) : (setPath i j p s).variant = s.variant := rfl
@[simp] theorem setPath_ring (i j : Nat) (p : Path) : (setPath i j p s).ring = s.ring := rfl
@[simp] theorem setPath_clock (i j : Nat) (p : Path) : (setPath i j p s).clock = s.clock := rfl
@[simp] theorem setPath_ran (i j : Nat) (p : Path) : (setPath i j p s).ran = s.ran := rfl
@[simp] theorem setPath_freeCtr (i j : Nat) (p : Path) : (setPath i j p s).freeCtr = s.freeCtr := rfl
@[simp] theorem setPath_items (i j : Nat) (p : Path) : (setPath i j p s).items = s.items := rfl
@[simp] theorem setPath_tim (i j : Nat) (p : Path) : (setPath i j p s).tim = s.tim := rfl
@[simp] theorem setPath_host (i j : Nat) (p : Path) : (setPath i j p s).host = s.host := rfl
@[simp] theorem setPath_lko (i j : Nat) (p : Path) : (setPath i j p s).lko = s.lko := rfl
@[simp] theorem setPath_md (i j : Nat) (p : Path) : (setPath i j p s).md = s.md := rfl
@[simp] theorem setPath_cmp (i j : Nat) (p : Path) : (setPath i j p s).cmp = s.cmp := rfl
@[simp] theorem setPath_trust (i j : Nat) (p : Path) : (setPath i j p s).trust = s.trust := rfl
@[simp] theorem setPath_link (i j : Nat) (p : Path) : (setPath i j p s).link = s.link := rfl
@[simp] theorem setPath_par (i j : Nat) (p : Path) : (setPath i j p s).par = s.par := rfl
@[simp] theorem setPath_cut (i j : Nat) (p : Path) : (setPath i j p s).cut = s.cut := rfl
@[simp] theorem setPath_em (i j : Nat) (p : Path) : (setPath i j p s).em = s.em := rfl
@[simp] theorem setPath_grv (i j : Nat) (p : Path) : (setPath i j p s).grv = s.grv := rfl
@[simp] theorem setPath_buf (i j : Nat) (p : Path) : (setPath i j p s).buf = s.buf := rfl
@[simp] theorem setPath_krf (i j : Nat) (p : Path) : (setPath i j p s).krf = s.krf := rfl
@[simp] theorem setPath_sch (i j : Nat) (p : Path) : (setPath i j p s).sch = s.sch := rfl
@[simp] theorem setPath_dram (i j : Nat) (p : Path) : (setPath i j p s).dram = s.dram := rfl
@[simp] theorem setPath_cap (i j : Nat) (p : Path) : (setPath i j p s).cap = s.cap := rfl
@[simp] theorem setPath_ctr (i j : Nat) (p : Path) : (setPath i j p s).ctr = s.ctr := rfl
@[simp] theorem setPath_pair (i j : Nat) (p : Path) : (setPath i j p s).pair = s.pair := rfl
@[simp] theorem setPath_pwr (i j : Nat) (p : Path) : (setPath i j p s).pwr = s.pwr := rfl
@[simp] theorem setPath_saved (i j : Nat) (p : Path) : (setPath i j p s).saved = s.saved := rfl
@[simp] theorem setPath_snap (i j : Nat) (p : Path) : (setPath i j p s).snap = s.snap := rfl

/-! `setReseq` changes `lnd` alone. -/

@[simp] theorem setReseq_pending (i j : Nat) (r : Reseq) : (setReseq i j r s).pending = s.pending := rfl
@[simp] theorem setReseq_variant (i j : Nat) (r : Reseq) : (setReseq i j r s).variant = s.variant := rfl
@[simp] theorem setReseq_ring (i j : Nat) (r : Reseq) : (setReseq i j r s).ring = s.ring := rfl
@[simp] theorem setReseq_clock (i j : Nat) (r : Reseq) : (setReseq i j r s).clock = s.clock := rfl
@[simp] theorem setReseq_ran (i j : Nat) (r : Reseq) : (setReseq i j r s).ran = s.ran := rfl
@[simp] theorem setReseq_freeCtr (i j : Nat) (r : Reseq) : (setReseq i j r s).freeCtr = s.freeCtr := rfl
@[simp] theorem setReseq_items (i j : Nat) (r : Reseq) : (setReseq i j r s).items = s.items := rfl
@[simp] theorem setReseq_tim (i j : Nat) (r : Reseq) : (setReseq i j r s).tim = s.tim := rfl
@[simp] theorem setReseq_host (i j : Nat) (r : Reseq) : (setReseq i j r s).host = s.host := rfl
@[simp] theorem setReseq_lko (i j : Nat) (r : Reseq) : (setReseq i j r s).lko = s.lko := rfl
@[simp] theorem setReseq_md (i j : Nat) (r : Reseq) : (setReseq i j r s).md = s.md := rfl
@[simp] theorem setReseq_cmp (i j : Nat) (r : Reseq) : (setReseq i j r s).cmp = s.cmp := rfl
@[simp] theorem setReseq_trust (i j : Nat) (r : Reseq) : (setReseq i j r s).trust = s.trust := rfl
@[simp] theorem setReseq_link (i j : Nat) (r : Reseq) : (setReseq i j r s).link = s.link := rfl
@[simp] theorem setReseq_par (i j : Nat) (r : Reseq) : (setReseq i j r s).par = s.par := rfl
@[simp] theorem setReseq_cut (i j : Nat) (r : Reseq) : (setReseq i j r s).cut = s.cut := rfl
@[simp] theorem setReseq_em (i j : Nat) (r : Reseq) : (setReseq i j r s).em = s.em := rfl
@[simp] theorem setReseq_grv (i j : Nat) (r : Reseq) : (setReseq i j r s).grv = s.grv := rfl
@[simp] theorem setReseq_buf (i j : Nat) (r : Reseq) : (setReseq i j r s).buf = s.buf := rfl
@[simp] theorem setReseq_krf (i j : Nat) (r : Reseq) : (setReseq i j r s).krf = s.krf := rfl
@[simp] theorem setReseq_sch (i j : Nat) (r : Reseq) : (setReseq i j r s).sch = s.sch := rfl
@[simp] theorem setReseq_dram (i j : Nat) (r : Reseq) : (setReseq i j r s).dram = s.dram := rfl
@[simp] theorem setReseq_cap (i j : Nat) (r : Reseq) : (setReseq i j r s).cap = s.cap := rfl
@[simp] theorem setReseq_ctr (i j : Nat) (r : Reseq) : (setReseq i j r s).ctr = s.ctr := rfl
@[simp] theorem setReseq_pair (i j : Nat) (r : Reseq) : (setReseq i j r s).pair = s.pair := rfl
@[simp] theorem setReseq_pwr (i j : Nat) (r : Reseq) : (setReseq i j r s).pwr = s.pwr := rfl
@[simp] theorem setReseq_saved (i j : Nat) (r : Reseq) : (setReseq i j r s).saved = s.saved := rfl
@[simp] theorem setReseq_snap (i j : Nat) (r : Reseq) : (setReseq i j r s).snap = s.snap := rfl

/-! `modSecy` changes `link` alone. -/

@[simp] theorem modSecy_pending (p i : Nat) (f : SecY → SecY) : (modSecy p i f s).pending = s.pending := rfl
@[simp] theorem modSecy_variant (p i : Nat) (f : SecY → SecY) : (modSecy p i f s).variant = s.variant := rfl
@[simp] theorem modSecy_ring (p i : Nat) (f : SecY → SecY) : (modSecy p i f s).ring = s.ring := rfl
@[simp] theorem modSecy_clock (p i : Nat) (f : SecY → SecY) : (modSecy p i f s).clock = s.clock := rfl
@[simp] theorem modSecy_ran (p i : Nat) (f : SecY → SecY) : (modSecy p i f s).ran = s.ran := rfl
@[simp] theorem modSecy_freeCtr (p i : Nat) (f : SecY → SecY) : (modSecy p i f s).freeCtr = s.freeCtr := rfl
@[simp] theorem modSecy_items (p i : Nat) (f : SecY → SecY) : (modSecy p i f s).items = s.items := rfl
@[simp] theorem modSecy_tim (p i : Nat) (f : SecY → SecY) : (modSecy p i f s).tim = s.tim := rfl
@[simp] theorem modSecy_host (p i : Nat) (f : SecY → SecY) : (modSecy p i f s).host = s.host := rfl
@[simp] theorem modSecy_lko (p i : Nat) (f : SecY → SecY) : (modSecy p i f s).lko = s.lko := rfl
@[simp] theorem modSecy_md (p i : Nat) (f : SecY → SecY) : (modSecy p i f s).md = s.md := rfl
@[simp] theorem modSecy_cmp (p i : Nat) (f : SecY → SecY) : (modSecy p i f s).cmp = s.cmp := rfl
@[simp] theorem modSecy_trust (p i : Nat) (f : SecY → SecY) : (modSecy p i f s).trust = s.trust := rfl
@[simp] theorem modSecy_par (p i : Nat) (f : SecY → SecY) : (modSecy p i f s).par = s.par := rfl
@[simp] theorem modSecy_cut (p i : Nat) (f : SecY → SecY) : (modSecy p i f s).cut = s.cut := rfl
@[simp] theorem modSecy_em (p i : Nat) (f : SecY → SecY) : (modSecy p i f s).em = s.em := rfl
@[simp] theorem modSecy_grv (p i : Nat) (f : SecY → SecY) : (modSecy p i f s).grv = s.grv := rfl
@[simp] theorem modSecy_lnd (p i : Nat) (f : SecY → SecY) : (modSecy p i f s).lnd = s.lnd := rfl
@[simp] theorem modSecy_buf (p i : Nat) (f : SecY → SecY) : (modSecy p i f s).buf = s.buf := rfl
@[simp] theorem modSecy_krf (p i : Nat) (f : SecY → SecY) : (modSecy p i f s).krf = s.krf := rfl
@[simp] theorem modSecy_sch (p i : Nat) (f : SecY → SecY) : (modSecy p i f s).sch = s.sch := rfl
@[simp] theorem modSecy_dram (p i : Nat) (f : SecY → SecY) : (modSecy p i f s).dram = s.dram := rfl
@[simp] theorem modSecy_cap (p i : Nat) (f : SecY → SecY) : (modSecy p i f s).cap = s.cap := rfl
@[simp] theorem modSecy_ctr (p i : Nat) (f : SecY → SecY) : (modSecy p i f s).ctr = s.ctr := rfl
@[simp] theorem modSecy_pair (p i : Nat) (f : SecY → SecY) : (modSecy p i f s).pair = s.pair := rfl
@[simp] theorem modSecy_pwr (p i : Nat) (f : SecY → SecY) : (modSecy p i f s).pwr = s.pwr := rfl
@[simp] theorem modSecy_saved (p i : Nat) (f : SecY → SecY) : (modSecy p i f s).saved = s.saved := rfl
@[simp] theorem modSecy_snap (p i : Nat) (f : SecY → SecY) : (modSecy p i f s).snap = s.snap := rfl

/-! `modSrc` changes `tim` alone. -/

@[simp] theorem modSrc_pending (i : Nat) (f : SrcSt → SrcSt) : (modSrc i f s).pending = s.pending := rfl
@[simp] theorem modSrc_variant (i : Nat) (f : SrcSt → SrcSt) : (modSrc i f s).variant = s.variant := rfl
@[simp] theorem modSrc_ring (i : Nat) (f : SrcSt → SrcSt) : (modSrc i f s).ring = s.ring := rfl
@[simp] theorem modSrc_clock (i : Nat) (f : SrcSt → SrcSt) : (modSrc i f s).clock = s.clock := rfl
@[simp] theorem modSrc_ran (i : Nat) (f : SrcSt → SrcSt) : (modSrc i f s).ran = s.ran := rfl
@[simp] theorem modSrc_freeCtr (i : Nat) (f : SrcSt → SrcSt) : (modSrc i f s).freeCtr = s.freeCtr := rfl
@[simp] theorem modSrc_items (i : Nat) (f : SrcSt → SrcSt) : (modSrc i f s).items = s.items := rfl
@[simp] theorem modSrc_host (i : Nat) (f : SrcSt → SrcSt) : (modSrc i f s).host = s.host := rfl
@[simp] theorem modSrc_lko (i : Nat) (f : SrcSt → SrcSt) : (modSrc i f s).lko = s.lko := rfl
@[simp] theorem modSrc_md (i : Nat) (f : SrcSt → SrcSt) : (modSrc i f s).md = s.md := rfl
@[simp] theorem modSrc_cmp (i : Nat) (f : SrcSt → SrcSt) : (modSrc i f s).cmp = s.cmp := rfl
@[simp] theorem modSrc_trust (i : Nat) (f : SrcSt → SrcSt) : (modSrc i f s).trust = s.trust := rfl
@[simp] theorem modSrc_link (i : Nat) (f : SrcSt → SrcSt) : (modSrc i f s).link = s.link := rfl
@[simp] theorem modSrc_par (i : Nat) (f : SrcSt → SrcSt) : (modSrc i f s).par = s.par := rfl
@[simp] theorem modSrc_cut (i : Nat) (f : SrcSt → SrcSt) : (modSrc i f s).cut = s.cut := rfl
@[simp] theorem modSrc_em (i : Nat) (f : SrcSt → SrcSt) : (modSrc i f s).em = s.em := rfl
@[simp] theorem modSrc_grv (i : Nat) (f : SrcSt → SrcSt) : (modSrc i f s).grv = s.grv := rfl
@[simp] theorem modSrc_lnd (i : Nat) (f : SrcSt → SrcSt) : (modSrc i f s).lnd = s.lnd := rfl
@[simp] theorem modSrc_buf (i : Nat) (f : SrcSt → SrcSt) : (modSrc i f s).buf = s.buf := rfl
@[simp] theorem modSrc_krf (i : Nat) (f : SrcSt → SrcSt) : (modSrc i f s).krf = s.krf := rfl
@[simp] theorem modSrc_sch (i : Nat) (f : SrcSt → SrcSt) : (modSrc i f s).sch = s.sch := rfl
@[simp] theorem modSrc_dram (i : Nat) (f : SrcSt → SrcSt) : (modSrc i f s).dram = s.dram := rfl
@[simp] theorem modSrc_cap (i : Nat) (f : SrcSt → SrcSt) : (modSrc i f s).cap = s.cap := rfl
@[simp] theorem modSrc_ctr (i : Nat) (f : SrcSt → SrcSt) : (modSrc i f s).ctr = s.ctr := rfl
@[simp] theorem modSrc_pair (i : Nat) (f : SrcSt → SrcSt) : (modSrc i f s).pair = s.pair := rfl
@[simp] theorem modSrc_pwr (i : Nat) (f : SrcSt → SrcSt) : (modSrc i f s).pwr = s.pwr := rfl
@[simp] theorem modSrc_saved (i : Nat) (f : SrcSt → SrcSt) : (modSrc i f s).saved = s.saved := rfl
@[simp] theorem modSrc_snap (i : Nat) (f : SrcSt → SrcSt) : (modSrc i f s).snap = s.snap := rfl

/-! `modCage` changes `link` alone. -/

@[simp] theorem modCage_pending (c : Nat) (f : Cage → Cage) : (modCage c f s).pending = s.pending := rfl
@[simp] theorem modCage_variant (c : Nat) (f : Cage → Cage) : (modCage c f s).variant = s.variant := rfl
@[simp] theorem modCage_ring (c : Nat) (f : Cage → Cage) : (modCage c f s).ring = s.ring := rfl
@[simp] theorem modCage_clock (c : Nat) (f : Cage → Cage) : (modCage c f s).clock = s.clock := rfl
@[simp] theorem modCage_ran (c : Nat) (f : Cage → Cage) : (modCage c f s).ran = s.ran := rfl
@[simp] theorem modCage_freeCtr (c : Nat) (f : Cage → Cage) : (modCage c f s).freeCtr = s.freeCtr := rfl
@[simp] theorem modCage_items (c : Nat) (f : Cage → Cage) : (modCage c f s).items = s.items := rfl
@[simp] theorem modCage_tim (c : Nat) (f : Cage → Cage) : (modCage c f s).tim = s.tim := rfl
@[simp] theorem modCage_host (c : Nat) (f : Cage → Cage) : (modCage c f s).host = s.host := rfl
@[simp] theorem modCage_lko (c : Nat) (f : Cage → Cage) : (modCage c f s).lko = s.lko := rfl
@[simp] theorem modCage_md (c : Nat) (f : Cage → Cage) : (modCage c f s).md = s.md := rfl
@[simp] theorem modCage_cmp (c : Nat) (f : Cage → Cage) : (modCage c f s).cmp = s.cmp := rfl
@[simp] theorem modCage_trust (c : Nat) (f : Cage → Cage) : (modCage c f s).trust = s.trust := rfl
@[simp] theorem modCage_par (c : Nat) (f : Cage → Cage) : (modCage c f s).par = s.par := rfl
@[simp] theorem modCage_cut (c : Nat) (f : Cage → Cage) : (modCage c f s).cut = s.cut := rfl
@[simp] theorem modCage_em (c : Nat) (f : Cage → Cage) : (modCage c f s).em = s.em := rfl
@[simp] theorem modCage_grv (c : Nat) (f : Cage → Cage) : (modCage c f s).grv = s.grv := rfl
@[simp] theorem modCage_lnd (c : Nat) (f : Cage → Cage) : (modCage c f s).lnd = s.lnd := rfl
@[simp] theorem modCage_buf (c : Nat) (f : Cage → Cage) : (modCage c f s).buf = s.buf := rfl
@[simp] theorem modCage_krf (c : Nat) (f : Cage → Cage) : (modCage c f s).krf = s.krf := rfl
@[simp] theorem modCage_sch (c : Nat) (f : Cage → Cage) : (modCage c f s).sch = s.sch := rfl
@[simp] theorem modCage_dram (c : Nat) (f : Cage → Cage) : (modCage c f s).dram = s.dram := rfl
@[simp] theorem modCage_cap (c : Nat) (f : Cage → Cage) : (modCage c f s).cap = s.cap := rfl
@[simp] theorem modCage_ctr (c : Nat) (f : Cage → Cage) : (modCage c f s).ctr = s.ctr := rfl
@[simp] theorem modCage_pair (c : Nat) (f : Cage → Cage) : (modCage c f s).pair = s.pair := rfl
@[simp] theorem modCage_pwr (c : Nat) (f : Cage → Cage) : (modCage c f s).pwr = s.pwr := rfl
@[simp] theorem modCage_saved (c : Nat) (f : Cage → Cage) : (modCage c f s).saved = s.saved := rfl
@[simp] theorem modCage_snap (c : Nat) (f : Cage → Cage) : (modCage c f s).snap = s.snap := rfl

/-! `modPool` changes `buf` alone. -/

@[simp] theorem modPool_pending (p : Nat) (f : Pool → Pool) : (modPool p f s).pending = s.pending := rfl
@[simp] theorem modPool_variant (p : Nat) (f : Pool → Pool) : (modPool p f s).variant = s.variant := rfl
@[simp] theorem modPool_ring (p : Nat) (f : Pool → Pool) : (modPool p f s).ring = s.ring := rfl
@[simp] theorem modPool_clock (p : Nat) (f : Pool → Pool) : (modPool p f s).clock = s.clock := rfl
@[simp] theorem modPool_ran (p : Nat) (f : Pool → Pool) : (modPool p f s).ran = s.ran := rfl
@[simp] theorem modPool_freeCtr (p : Nat) (f : Pool → Pool) : (modPool p f s).freeCtr = s.freeCtr := rfl
@[simp] theorem modPool_items (p : Nat) (f : Pool → Pool) : (modPool p f s).items = s.items := rfl
@[simp] theorem modPool_tim (p : Nat) (f : Pool → Pool) : (modPool p f s).tim = s.tim := rfl
@[simp] theorem modPool_host (p : Nat) (f : Pool → Pool) : (modPool p f s).host = s.host := rfl
@[simp] theorem modPool_lko (p : Nat) (f : Pool → Pool) : (modPool p f s).lko = s.lko := rfl
@[simp] theorem modPool_md (p : Nat) (f : Pool → Pool) : (modPool p f s).md = s.md := rfl
@[simp] theorem modPool_cmp (p : Nat) (f : Pool → Pool) : (modPool p f s).cmp = s.cmp := rfl
@[simp] theorem modPool_trust (p : Nat) (f : Pool → Pool) : (modPool p f s).trust = s.trust := rfl
@[simp] theorem modPool_link (p : Nat) (f : Pool → Pool) : (modPool p f s).link = s.link := rfl
@[simp] theorem modPool_par (p : Nat) (f : Pool → Pool) : (modPool p f s).par = s.par := rfl
@[simp] theorem modPool_cut (p : Nat) (f : Pool → Pool) : (modPool p f s).cut = s.cut := rfl
@[simp] theorem modPool_em (p : Nat) (f : Pool → Pool) : (modPool p f s).em = s.em := rfl
@[simp] theorem modPool_grv (p : Nat) (f : Pool → Pool) : (modPool p f s).grv = s.grv := rfl
@[simp] theorem modPool_lnd (p : Nat) (f : Pool → Pool) : (modPool p f s).lnd = s.lnd := rfl
@[simp] theorem modPool_krf (p : Nat) (f : Pool → Pool) : (modPool p f s).krf = s.krf := rfl
@[simp] theorem modPool_sch (p : Nat) (f : Pool → Pool) : (modPool p f s).sch = s.sch := rfl
@[simp] theorem modPool_dram (p : Nat) (f : Pool → Pool) : (modPool p f s).dram = s.dram := rfl
@[simp] theorem modPool_cap (p : Nat) (f : Pool → Pool) : (modPool p f s).cap = s.cap := rfl
@[simp] theorem modPool_ctr (p : Nat) (f : Pool → Pool) : (modPool p f s).ctr = s.ctr := rfl
@[simp] theorem modPool_pair (p : Nat) (f : Pool → Pool) : (modPool p f s).pair = s.pair := rfl
@[simp] theorem modPool_pwr (p : Nat) (f : Pool → Pool) : (modPool p f s).pwr = s.pwr := rfl
@[simp] theorem modPool_saved (p : Nat) (f : Pool → Pool) : (modPool p f s).saved = s.saved := rfl
@[simp] theorem modPool_snap (p : Nat) (f : Pool → Pool) : (modPool p f s).snap = s.snap := rfl

/-! `setCache` changes `buf` alone. -/

@[simp] theorem setCache_pending (g p : Nat) (l : List Nat) : (setCache g p l s).pending = s.pending := rfl
@[simp] theorem setCache_variant (g p : Nat) (l : List Nat) : (setCache g p l s).variant = s.variant := rfl
@[simp] theorem setCache_ring (g p : Nat) (l : List Nat) : (setCache g p l s).ring = s.ring := rfl
@[simp] theorem setCache_clock (g p : Nat) (l : List Nat) : (setCache g p l s).clock = s.clock := rfl
@[simp] theorem setCache_ran (g p : Nat) (l : List Nat) : (setCache g p l s).ran = s.ran := rfl
@[simp] theorem setCache_freeCtr (g p : Nat) (l : List Nat) : (setCache g p l s).freeCtr = s.freeCtr := rfl
@[simp] theorem setCache_items (g p : Nat) (l : List Nat) : (setCache g p l s).items = s.items := rfl
@[simp] theorem setCache_tim (g p : Nat) (l : List Nat) : (setCache g p l s).tim = s.tim := rfl
@[simp] theorem setCache_host (g p : Nat) (l : List Nat) : (setCache g p l s).host = s.host := rfl
@[simp] theorem setCache_lko (g p : Nat) (l : List Nat) : (setCache g p l s).lko = s.lko := rfl
@[simp] theorem setCache_md (g p : Nat) (l : List Nat) : (setCache g p l s).md = s.md := rfl
@[simp] theorem setCache_cmp (g p : Nat) (l : List Nat) : (setCache g p l s).cmp = s.cmp := rfl
@[simp] theorem setCache_trust (g p : Nat) (l : List Nat) : (setCache g p l s).trust = s.trust := rfl
@[simp] theorem setCache_link (g p : Nat) (l : List Nat) : (setCache g p l s).link = s.link := rfl
@[simp] theorem setCache_par (g p : Nat) (l : List Nat) : (setCache g p l s).par = s.par := rfl
@[simp] theorem setCache_cut (g p : Nat) (l : List Nat) : (setCache g p l s).cut = s.cut := rfl
@[simp] theorem setCache_em (g p : Nat) (l : List Nat) : (setCache g p l s).em = s.em := rfl
@[simp] theorem setCache_grv (g p : Nat) (l : List Nat) : (setCache g p l s).grv = s.grv := rfl
@[simp] theorem setCache_lnd (g p : Nat) (l : List Nat) : (setCache g p l s).lnd = s.lnd := rfl
@[simp] theorem setCache_krf (g p : Nat) (l : List Nat) : (setCache g p l s).krf = s.krf := rfl
@[simp] theorem setCache_sch (g p : Nat) (l : List Nat) : (setCache g p l s).sch = s.sch := rfl
@[simp] theorem setCache_dram (g p : Nat) (l : List Nat) : (setCache g p l s).dram = s.dram := rfl
@[simp] theorem setCache_cap (g p : Nat) (l : List Nat) : (setCache g p l s).cap = s.cap := rfl
@[simp] theorem setCache_ctr (g p : Nat) (l : List Nat) : (setCache g p l s).ctr = s.ctr := rfl
@[simp] theorem setCache_pair (g p : Nat) (l : List Nat) : (setCache g p l s).pair = s.pair := rfl
@[simp] theorem setCache_pwr (g p : Nat) (l : List Nat) : (setCache g p l s).pwr = s.pwr := rfl
@[simp] theorem setCache_saved (g p : Nat) (l : List Nat) : (setCache g p l s).saved = s.saved := rfl
@[simp] theorem setCache_snap (g p : Nat) (l : List Nat) : (setCache g p l s).snap = s.snap := rfl

/-! `modFrame` changes `lnd` alone. -/

@[simp] theorem modFrame_pending (n : Nat) (f : Frame → Frame) : (modFrame n f s).pending = s.pending := rfl
@[simp] theorem modFrame_variant (n : Nat) (f : Frame → Frame) : (modFrame n f s).variant = s.variant := rfl
@[simp] theorem modFrame_ring (n : Nat) (f : Frame → Frame) : (modFrame n f s).ring = s.ring := rfl
@[simp] theorem modFrame_clock (n : Nat) (f : Frame → Frame) : (modFrame n f s).clock = s.clock := rfl
@[simp] theorem modFrame_ran (n : Nat) (f : Frame → Frame) : (modFrame n f s).ran = s.ran := rfl
@[simp] theorem modFrame_freeCtr (n : Nat) (f : Frame → Frame) : (modFrame n f s).freeCtr = s.freeCtr := rfl
@[simp] theorem modFrame_items (n : Nat) (f : Frame → Frame) : (modFrame n f s).items = s.items := rfl
@[simp] theorem modFrame_tim (n : Nat) (f : Frame → Frame) : (modFrame n f s).tim = s.tim := rfl
@[simp] theorem modFrame_host (n : Nat) (f : Frame → Frame) : (modFrame n f s).host = s.host := rfl
@[simp] theorem modFrame_lko (n : Nat) (f : Frame → Frame) : (modFrame n f s).lko = s.lko := rfl
@[simp] theorem modFrame_md (n : Nat) (f : Frame → Frame) : (modFrame n f s).md = s.md := rfl
@[simp] theorem modFrame_cmp (n : Nat) (f : Frame → Frame) : (modFrame n f s).cmp = s.cmp := rfl
@[simp] theorem modFrame_trust (n : Nat) (f : Frame → Frame) : (modFrame n f s).trust = s.trust := rfl
@[simp] theorem modFrame_link (n : Nat) (f : Frame → Frame) : (modFrame n f s).link = s.link := rfl
@[simp] theorem modFrame_par (n : Nat) (f : Frame → Frame) : (modFrame n f s).par = s.par := rfl
@[simp] theorem modFrame_cut (n : Nat) (f : Frame → Frame) : (modFrame n f s).cut = s.cut := rfl
@[simp] theorem modFrame_em (n : Nat) (f : Frame → Frame) : (modFrame n f s).em = s.em := rfl
@[simp] theorem modFrame_grv (n : Nat) (f : Frame → Frame) : (modFrame n f s).grv = s.grv := rfl
@[simp] theorem modFrame_buf (n : Nat) (f : Frame → Frame) : (modFrame n f s).buf = s.buf := rfl
@[simp] theorem modFrame_krf (n : Nat) (f : Frame → Frame) : (modFrame n f s).krf = s.krf := rfl
@[simp] theorem modFrame_sch (n : Nat) (f : Frame → Frame) : (modFrame n f s).sch = s.sch := rfl
@[simp] theorem modFrame_dram (n : Nat) (f : Frame → Frame) : (modFrame n f s).dram = s.dram := rfl
@[simp] theorem modFrame_cap (n : Nat) (f : Frame → Frame) : (modFrame n f s).cap = s.cap := rfl
@[simp] theorem modFrame_ctr (n : Nat) (f : Frame → Frame) : (modFrame n f s).ctr = s.ctr := rfl
@[simp] theorem modFrame_pair (n : Nat) (f : Frame → Frame) : (modFrame n f s).pair = s.pair := rfl
@[simp] theorem modFrame_pwr (n : Nat) (f : Frame → Frame) : (modFrame n f s).pwr = s.pwr := rfl
@[simp] theorem modFrame_saved (n : Nat) (f : Frame → Frame) : (modFrame n f s).saved = s.saved := rfl
@[simp] theorem modFrame_snap (n : Nat) (f : Frame → Frame) : (modFrame n f s).snap = s.snap := rfl

/-! `setVoq` changes `lnd` alone. -/

@[simp] theorem setVoq_pending (k : Key) (v : Voq) : (setVoq k v s).pending = s.pending := rfl
@[simp] theorem setVoq_variant (k : Key) (v : Voq) : (setVoq k v s).variant = s.variant := rfl
@[simp] theorem setVoq_ring (k : Key) (v : Voq) : (setVoq k v s).ring = s.ring := rfl
@[simp] theorem setVoq_clock (k : Key) (v : Voq) : (setVoq k v s).clock = s.clock := rfl
@[simp] theorem setVoq_ran (k : Key) (v : Voq) : (setVoq k v s).ran = s.ran := rfl
@[simp] theorem setVoq_freeCtr (k : Key) (v : Voq) : (setVoq k v s).freeCtr = s.freeCtr := rfl
@[simp] theorem setVoq_items (k : Key) (v : Voq) : (setVoq k v s).items = s.items := rfl
@[simp] theorem setVoq_tim (k : Key) (v : Voq) : (setVoq k v s).tim = s.tim := rfl
@[simp] theorem setVoq_host (k : Key) (v : Voq) : (setVoq k v s).host = s.host := rfl
@[simp] theorem setVoq_lko (k : Key) (v : Voq) : (setVoq k v s).lko = s.lko := rfl
@[simp] theorem setVoq_md (k : Key) (v : Voq) : (setVoq k v s).md = s.md := rfl
@[simp] theorem setVoq_cmp (k : Key) (v : Voq) : (setVoq k v s).cmp = s.cmp := rfl
@[simp] theorem setVoq_trust (k : Key) (v : Voq) : (setVoq k v s).trust = s.trust := rfl
@[simp] theorem setVoq_link (k : Key) (v : Voq) : (setVoq k v s).link = s.link := rfl
@[simp] theorem setVoq_par (k : Key) (v : Voq) : (setVoq k v s).par = s.par := rfl
@[simp] theorem setVoq_cut (k : Key) (v : Voq) : (setVoq k v s).cut = s.cut := rfl
@[simp] theorem setVoq_em (k : Key) (v : Voq) : (setVoq k v s).em = s.em := rfl
@[simp] theorem setVoq_grv (k : Key) (v : Voq) : (setVoq k v s).grv = s.grv := rfl
@[simp] theorem setVoq_buf (k : Key) (v : Voq) : (setVoq k v s).buf = s.buf := rfl
@[simp] theorem setVoq_krf (k : Key) (v : Voq) : (setVoq k v s).krf = s.krf := rfl
@[simp] theorem setVoq_sch (k : Key) (v : Voq) : (setVoq k v s).sch = s.sch := rfl
@[simp] theorem setVoq_dram (k : Key) (v : Voq) : (setVoq k v s).dram = s.dram := rfl
@[simp] theorem setVoq_cap (k : Key) (v : Voq) : (setVoq k v s).cap = s.cap := rfl
@[simp] theorem setVoq_ctr (k : Key) (v : Voq) : (setVoq k v s).ctr = s.ctr := rfl
@[simp] theorem setVoq_pair (k : Key) (v : Voq) : (setVoq k v s).pair = s.pair := rfl
@[simp] theorem setVoq_pwr (k : Key) (v : Voq) : (setVoq k v s).pwr = s.pwr := rfl
@[simp] theorem setVoq_saved (k : Key) (v : Voq) : (setVoq k v s).saved = s.saved := rfl
@[simp] theorem setVoq_snap (k : Key) (v : Voq) : (setVoq k v s).snap = s.snap := rfl

/-! `setKeySlot` changes `trust` alone. -/

@[simp] theorem setKeySlot_pending (i : Nat) (k : KeySlot) : (setKeySlot i k s).pending = s.pending := rfl
@[simp] theorem setKeySlot_variant (i : Nat) (k : KeySlot) : (setKeySlot i k s).variant = s.variant := rfl
@[simp] theorem setKeySlot_ring (i : Nat) (k : KeySlot) : (setKeySlot i k s).ring = s.ring := rfl
@[simp] theorem setKeySlot_clock (i : Nat) (k : KeySlot) : (setKeySlot i k s).clock = s.clock := rfl
@[simp] theorem setKeySlot_ran (i : Nat) (k : KeySlot) : (setKeySlot i k s).ran = s.ran := rfl
@[simp] theorem setKeySlot_freeCtr (i : Nat) (k : KeySlot) : (setKeySlot i k s).freeCtr = s.freeCtr := rfl
@[simp] theorem setKeySlot_items (i : Nat) (k : KeySlot) : (setKeySlot i k s).items = s.items := rfl
@[simp] theorem setKeySlot_tim (i : Nat) (k : KeySlot) : (setKeySlot i k s).tim = s.tim := rfl
@[simp] theorem setKeySlot_host (i : Nat) (k : KeySlot) : (setKeySlot i k s).host = s.host := rfl
@[simp] theorem setKeySlot_lko (i : Nat) (k : KeySlot) : (setKeySlot i k s).lko = s.lko := rfl
@[simp] theorem setKeySlot_md (i : Nat) (k : KeySlot) : (setKeySlot i k s).md = s.md := rfl
@[simp] theorem setKeySlot_cmp (i : Nat) (k : KeySlot) : (setKeySlot i k s).cmp = s.cmp := rfl
@[simp] theorem setKeySlot_link (i : Nat) (k : KeySlot) : (setKeySlot i k s).link = s.link := rfl
@[simp] theorem setKeySlot_par (i : Nat) (k : KeySlot) : (setKeySlot i k s).par = s.par := rfl
@[simp] theorem setKeySlot_cut (i : Nat) (k : KeySlot) : (setKeySlot i k s).cut = s.cut := rfl
@[simp] theorem setKeySlot_em (i : Nat) (k : KeySlot) : (setKeySlot i k s).em = s.em := rfl
@[simp] theorem setKeySlot_grv (i : Nat) (k : KeySlot) : (setKeySlot i k s).grv = s.grv := rfl
@[simp] theorem setKeySlot_lnd (i : Nat) (k : KeySlot) : (setKeySlot i k s).lnd = s.lnd := rfl
@[simp] theorem setKeySlot_buf (i : Nat) (k : KeySlot) : (setKeySlot i k s).buf = s.buf := rfl
@[simp] theorem setKeySlot_krf (i : Nat) (k : KeySlot) : (setKeySlot i k s).krf = s.krf := rfl
@[simp] theorem setKeySlot_sch (i : Nat) (k : KeySlot) : (setKeySlot i k s).sch = s.sch := rfl
@[simp] theorem setKeySlot_dram (i : Nat) (k : KeySlot) : (setKeySlot i k s).dram = s.dram := rfl
@[simp] theorem setKeySlot_cap (i : Nat) (k : KeySlot) : (setKeySlot i k s).cap = s.cap := rfl
@[simp] theorem setKeySlot_ctr (i : Nat) (k : KeySlot) : (setKeySlot i k s).ctr = s.ctr := rfl
@[simp] theorem setKeySlot_pair (i : Nat) (k : KeySlot) : (setKeySlot i k s).pair = s.pair := rfl
@[simp] theorem setKeySlot_pwr (i : Nat) (k : KeySlot) : (setKeySlot i k s).pwr = s.pwr := rfl
@[simp] theorem setKeySlot_saved (i : Nat) (k : KeySlot) : (setKeySlot i k s).saved = s.saved := rfl
@[simp] theorem setKeySlot_snap (i : Nat) (k : KeySlot) : (setKeySlot i k s).snap = s.snap := rfl

/-! `setStage` changes `cut` alone. -/

@[simp] theorem setStage_pending (c : Nat) (x : Option Staging) : (setStage c x s).pending = s.pending := rfl
@[simp] theorem setStage_variant (c : Nat) (x : Option Staging) : (setStage c x s).variant = s.variant := rfl
@[simp] theorem setStage_ring (c : Nat) (x : Option Staging) : (setStage c x s).ring = s.ring := rfl
@[simp] theorem setStage_clock (c : Nat) (x : Option Staging) : (setStage c x s).clock = s.clock := rfl
@[simp] theorem setStage_ran (c : Nat) (x : Option Staging) : (setStage c x s).ran = s.ran := rfl
@[simp] theorem setStage_freeCtr (c : Nat) (x : Option Staging) : (setStage c x s).freeCtr = s.freeCtr := rfl
@[simp] theorem setStage_items (c : Nat) (x : Option Staging) : (setStage c x s).items = s.items := rfl
@[simp] theorem setStage_tim (c : Nat) (x : Option Staging) : (setStage c x s).tim = s.tim := rfl
@[simp] theorem setStage_host (c : Nat) (x : Option Staging) : (setStage c x s).host = s.host := rfl
@[simp] theorem setStage_lko (c : Nat) (x : Option Staging) : (setStage c x s).lko = s.lko := rfl
@[simp] theorem setStage_md (c : Nat) (x : Option Staging) : (setStage c x s).md = s.md := rfl
@[simp] theorem setStage_cmp (c : Nat) (x : Option Staging) : (setStage c x s).cmp = s.cmp := rfl
@[simp] theorem setStage_trust (c : Nat) (x : Option Staging) : (setStage c x s).trust = s.trust := rfl
@[simp] theorem setStage_link (c : Nat) (x : Option Staging) : (setStage c x s).link = s.link := rfl
@[simp] theorem setStage_par (c : Nat) (x : Option Staging) : (setStage c x s).par = s.par := rfl
@[simp] theorem setStage_em (c : Nat) (x : Option Staging) : (setStage c x s).em = s.em := rfl
@[simp] theorem setStage_grv (c : Nat) (x : Option Staging) : (setStage c x s).grv = s.grv := rfl
@[simp] theorem setStage_lnd (c : Nat) (x : Option Staging) : (setStage c x s).lnd = s.lnd := rfl
@[simp] theorem setStage_buf (c : Nat) (x : Option Staging) : (setStage c x s).buf = s.buf := rfl
@[simp] theorem setStage_krf (c : Nat) (x : Option Staging) : (setStage c x s).krf = s.krf := rfl
@[simp] theorem setStage_sch (c : Nat) (x : Option Staging) : (setStage c x s).sch = s.sch := rfl
@[simp] theorem setStage_dram (c : Nat) (x : Option Staging) : (setStage c x s).dram = s.dram := rfl
@[simp] theorem setStage_cap (c : Nat) (x : Option Staging) : (setStage c x s).cap = s.cap := rfl
@[simp] theorem setStage_ctr (c : Nat) (x : Option Staging) : (setStage c x s).ctr = s.ctr := rfl
@[simp] theorem setStage_pair (c : Nat) (x : Option Staging) : (setStage c x s).pair = s.pair := rfl
@[simp] theorem setStage_pwr (c : Nat) (x : Option Staging) : (setStage c x s).pwr = s.pwr := rfl
@[simp] theorem setStage_saved (c : Nat) (x : Option Staging) : (setStage c x s).saved = s.saved := rfl
@[simp] theorem setStage_snap (c : Nat) (x : Option Staging) : (setStage c x s).snap = s.snap := rfl

/-! `setBody` changes `cut` alone. -/

@[simp] theorem setBody_pending (c : Nat) (b : CutBody) : (setBody c b s).pending = s.pending := rfl
@[simp] theorem setBody_variant (c : Nat) (b : CutBody) : (setBody c b s).variant = s.variant := rfl
@[simp] theorem setBody_ring (c : Nat) (b : CutBody) : (setBody c b s).ring = s.ring := rfl
@[simp] theorem setBody_clock (c : Nat) (b : CutBody) : (setBody c b s).clock = s.clock := rfl
@[simp] theorem setBody_ran (c : Nat) (b : CutBody) : (setBody c b s).ran = s.ran := rfl
@[simp] theorem setBody_freeCtr (c : Nat) (b : CutBody) : (setBody c b s).freeCtr = s.freeCtr := rfl
@[simp] theorem setBody_items (c : Nat) (b : CutBody) : (setBody c b s).items = s.items := rfl
@[simp] theorem setBody_tim (c : Nat) (b : CutBody) : (setBody c b s).tim = s.tim := rfl
@[simp] theorem setBody_host (c : Nat) (b : CutBody) : (setBody c b s).host = s.host := rfl
@[simp] theorem setBody_lko (c : Nat) (b : CutBody) : (setBody c b s).lko = s.lko := rfl
@[simp] theorem setBody_md (c : Nat) (b : CutBody) : (setBody c b s).md = s.md := rfl
@[simp] theorem setBody_cmp (c : Nat) (b : CutBody) : (setBody c b s).cmp = s.cmp := rfl
@[simp] theorem setBody_trust (c : Nat) (b : CutBody) : (setBody c b s).trust = s.trust := rfl
@[simp] theorem setBody_link (c : Nat) (b : CutBody) : (setBody c b s).link = s.link := rfl
@[simp] theorem setBody_par (c : Nat) (b : CutBody) : (setBody c b s).par = s.par := rfl
@[simp] theorem setBody_em (c : Nat) (b : CutBody) : (setBody c b s).em = s.em := rfl
@[simp] theorem setBody_grv (c : Nat) (b : CutBody) : (setBody c b s).grv = s.grv := rfl
@[simp] theorem setBody_lnd (c : Nat) (b : CutBody) : (setBody c b s).lnd = s.lnd := rfl
@[simp] theorem setBody_buf (c : Nat) (b : CutBody) : (setBody c b s).buf = s.buf := rfl
@[simp] theorem setBody_krf (c : Nat) (b : CutBody) : (setBody c b s).krf = s.krf := rfl
@[simp] theorem setBody_sch (c : Nat) (b : CutBody) : (setBody c b s).sch = s.sch := rfl
@[simp] theorem setBody_dram (c : Nat) (b : CutBody) : (setBody c b s).dram = s.dram := rfl
@[simp] theorem setBody_cap (c : Nat) (b : CutBody) : (setBody c b s).cap = s.cap := rfl
@[simp] theorem setBody_ctr (c : Nat) (b : CutBody) : (setBody c b s).ctr = s.ctr := rfl
@[simp] theorem setBody_pair (c : Nat) (b : CutBody) : (setBody c b s).pair = s.pair := rfl
@[simp] theorem setBody_pwr (c : Nat) (b : CutBody) : (setBody c b s).pwr = s.pwr := rfl
@[simp] theorem setBody_saved (c : Nat) (b : CutBody) : (setBody c b s).saved = s.saved := rfl
@[simp] theorem setBody_snap (c : Nat) (b : CutBody) : (setBody c b s).snap = s.snap := rfl

/-! `modCv` changes `cap` alone. -/

@[simp] theorem modCv_pending (u : Nat) (f : Cv → Cv) : (modCv u f s).pending = s.pending := rfl
@[simp] theorem modCv_variant (u : Nat) (f : Cv → Cv) : (modCv u f s).variant = s.variant := rfl
@[simp] theorem modCv_ring (u : Nat) (f : Cv → Cv) : (modCv u f s).ring = s.ring := rfl
@[simp] theorem modCv_clock (u : Nat) (f : Cv → Cv) : (modCv u f s).clock = s.clock := rfl
@[simp] theorem modCv_ran (u : Nat) (f : Cv → Cv) : (modCv u f s).ran = s.ran := rfl
@[simp] theorem modCv_freeCtr (u : Nat) (f : Cv → Cv) : (modCv u f s).freeCtr = s.freeCtr := rfl
@[simp] theorem modCv_items (u : Nat) (f : Cv → Cv) : (modCv u f s).items = s.items := rfl
@[simp] theorem modCv_tim (u : Nat) (f : Cv → Cv) : (modCv u f s).tim = s.tim := rfl
@[simp] theorem modCv_host (u : Nat) (f : Cv → Cv) : (modCv u f s).host = s.host := rfl
@[simp] theorem modCv_lko (u : Nat) (f : Cv → Cv) : (modCv u f s).lko = s.lko := rfl
@[simp] theorem modCv_md (u : Nat) (f : Cv → Cv) : (modCv u f s).md = s.md := rfl
@[simp] theorem modCv_cmp (u : Nat) (f : Cv → Cv) : (modCv u f s).cmp = s.cmp := rfl
@[simp] theorem modCv_trust (u : Nat) (f : Cv → Cv) : (modCv u f s).trust = s.trust := rfl
@[simp] theorem modCv_link (u : Nat) (f : Cv → Cv) : (modCv u f s).link = s.link := rfl
@[simp] theorem modCv_par (u : Nat) (f : Cv → Cv) : (modCv u f s).par = s.par := rfl
@[simp] theorem modCv_cut (u : Nat) (f : Cv → Cv) : (modCv u f s).cut = s.cut := rfl
@[simp] theorem modCv_em (u : Nat) (f : Cv → Cv) : (modCv u f s).em = s.em := rfl
@[simp] theorem modCv_grv (u : Nat) (f : Cv → Cv) : (modCv u f s).grv = s.grv := rfl
@[simp] theorem modCv_lnd (u : Nat) (f : Cv → Cv) : (modCv u f s).lnd = s.lnd := rfl
@[simp] theorem modCv_buf (u : Nat) (f : Cv → Cv) : (modCv u f s).buf = s.buf := rfl
@[simp] theorem modCv_krf (u : Nat) (f : Cv → Cv) : (modCv u f s).krf = s.krf := rfl
@[simp] theorem modCv_sch (u : Nat) (f : Cv → Cv) : (modCv u f s).sch = s.sch := rfl
@[simp] theorem modCv_dram (u : Nat) (f : Cv → Cv) : (modCv u f s).dram = s.dram := rfl
@[simp] theorem modCv_ctr (u : Nat) (f : Cv → Cv) : (modCv u f s).ctr = s.ctr := rfl
@[simp] theorem modCv_pair (u : Nat) (f : Cv → Cv) : (modCv u f s).pair = s.pair := rfl
@[simp] theorem modCv_pwr (u : Nat) (f : Cv → Cv) : (modCv u f s).pwr = s.pwr := rfl
@[simp] theorem modCv_saved (u : Nat) (f : Cv → Cv) : (modCv u f s).saved = s.saved := rfl
@[simp] theorem modCv_snap (u : Nat) (f : Cv → Cv) : (modCv u f s).snap = s.snap := rfl

/-! `modTly` changes `cap` alone. -/

@[simp] theorem modTly_pending (c : Nat) (f : Tly → Tly) : (modTly c f s).pending = s.pending := rfl
@[simp] theorem modTly_variant (c : Nat) (f : Tly → Tly) : (modTly c f s).variant = s.variant := rfl
@[simp] theorem modTly_ring (c : Nat) (f : Tly → Tly) : (modTly c f s).ring = s.ring := rfl
@[simp] theorem modTly_clock (c : Nat) (f : Tly → Tly) : (modTly c f s).clock = s.clock := rfl
@[simp] theorem modTly_ran (c : Nat) (f : Tly → Tly) : (modTly c f s).ran = s.ran := rfl
@[simp] theorem modTly_freeCtr (c : Nat) (f : Tly → Tly) : (modTly c f s).freeCtr = s.freeCtr := rfl
@[simp] theorem modTly_items (c : Nat) (f : Tly → Tly) : (modTly c f s).items = s.items := rfl
@[simp] theorem modTly_tim (c : Nat) (f : Tly → Tly) : (modTly c f s).tim = s.tim := rfl
@[simp] theorem modTly_host (c : Nat) (f : Tly → Tly) : (modTly c f s).host = s.host := rfl
@[simp] theorem modTly_lko (c : Nat) (f : Tly → Tly) : (modTly c f s).lko = s.lko := rfl
@[simp] theorem modTly_md (c : Nat) (f : Tly → Tly) : (modTly c f s).md = s.md := rfl
@[simp] theorem modTly_cmp (c : Nat) (f : Tly → Tly) : (modTly c f s).cmp = s.cmp := rfl
@[simp] theorem modTly_trust (c : Nat) (f : Tly → Tly) : (modTly c f s).trust = s.trust := rfl
@[simp] theorem modTly_link (c : Nat) (f : Tly → Tly) : (modTly c f s).link = s.link := rfl
@[simp] theorem modTly_par (c : Nat) (f : Tly → Tly) : (modTly c f s).par = s.par := rfl
@[simp] theorem modTly_cut (c : Nat) (f : Tly → Tly) : (modTly c f s).cut = s.cut := rfl
@[simp] theorem modTly_em (c : Nat) (f : Tly → Tly) : (modTly c f s).em = s.em := rfl
@[simp] theorem modTly_grv (c : Nat) (f : Tly → Tly) : (modTly c f s).grv = s.grv := rfl
@[simp] theorem modTly_lnd (c : Nat) (f : Tly → Tly) : (modTly c f s).lnd = s.lnd := rfl
@[simp] theorem modTly_buf (c : Nat) (f : Tly → Tly) : (modTly c f s).buf = s.buf := rfl
@[simp] theorem modTly_krf (c : Nat) (f : Tly → Tly) : (modTly c f s).krf = s.krf := rfl
@[simp] theorem modTly_sch (c : Nat) (f : Tly → Tly) : (modTly c f s).sch = s.sch := rfl
@[simp] theorem modTly_dram (c : Nat) (f : Tly → Tly) : (modTly c f s).dram = s.dram := rfl
@[simp] theorem modTly_ctr (c : Nat) (f : Tly → Tly) : (modTly c f s).ctr = s.ctr := rfl
@[simp] theorem modTly_pair (c : Nat) (f : Tly → Tly) : (modTly c f s).pair = s.pair := rfl
@[simp] theorem modTly_pwr (c : Nat) (f : Tly → Tly) : (modTly c f s).pwr = s.pwr := rfl
@[simp] theorem modTly_saved (c : Nat) (f : Tly → Tly) : (modTly c f s).saved = s.saved := rfl
@[simp] theorem modTly_snap (c : Nat) (f : Tly → Tly) : (modTly c f s).snap = s.snap := rfl

/-! `modCart` changes `tim` alone. -/

@[simp] theorem modCart_pending (f : CartSt → CartSt) : (modCart f s).pending = s.pending := rfl
@[simp] theorem modCart_variant (f : CartSt → CartSt) : (modCart f s).variant = s.variant := rfl
@[simp] theorem modCart_ring (f : CartSt → CartSt) : (modCart f s).ring = s.ring := rfl
@[simp] theorem modCart_clock (f : CartSt → CartSt) : (modCart f s).clock = s.clock := rfl
@[simp] theorem modCart_ran (f : CartSt → CartSt) : (modCart f s).ran = s.ran := rfl
@[simp] theorem modCart_freeCtr (f : CartSt → CartSt) : (modCart f s).freeCtr = s.freeCtr := rfl
@[simp] theorem modCart_items (f : CartSt → CartSt) : (modCart f s).items = s.items := rfl
@[simp] theorem modCart_host (f : CartSt → CartSt) : (modCart f s).host = s.host := rfl
@[simp] theorem modCart_lko (f : CartSt → CartSt) : (modCart f s).lko = s.lko := rfl
@[simp] theorem modCart_md (f : CartSt → CartSt) : (modCart f s).md = s.md := rfl
@[simp] theorem modCart_cmp (f : CartSt → CartSt) : (modCart f s).cmp = s.cmp := rfl
@[simp] theorem modCart_trust (f : CartSt → CartSt) : (modCart f s).trust = s.trust := rfl
@[simp] theorem modCart_link (f : CartSt → CartSt) : (modCart f s).link = s.link := rfl
@[simp] theorem modCart_par (f : CartSt → CartSt) : (modCart f s).par = s.par := rfl
@[simp] theorem modCart_cut (f : CartSt → CartSt) : (modCart f s).cut = s.cut := rfl
@[simp] theorem modCart_em (f : CartSt → CartSt) : (modCart f s).em = s.em := rfl
@[simp] theorem modCart_grv (f : CartSt → CartSt) : (modCart f s).grv = s.grv := rfl
@[simp] theorem modCart_lnd (f : CartSt → CartSt) : (modCart f s).lnd = s.lnd := rfl
@[simp] theorem modCart_buf (f : CartSt → CartSt) : (modCart f s).buf = s.buf := rfl
@[simp] theorem modCart_krf (f : CartSt → CartSt) : (modCart f s).krf = s.krf := rfl
@[simp] theorem modCart_sch (f : CartSt → CartSt) : (modCart f s).sch = s.sch := rfl
@[simp] theorem modCart_dram (f : CartSt → CartSt) : (modCart f s).dram = s.dram := rfl
@[simp] theorem modCart_cap (f : CartSt → CartSt) : (modCart f s).cap = s.cap := rfl
@[simp] theorem modCart_ctr (f : CartSt → CartSt) : (modCart f s).ctr = s.ctr := rfl
@[simp] theorem modCart_pair (f : CartSt → CartSt) : (modCart f s).pair = s.pair := rfl
@[simp] theorem modCart_pwr (f : CartSt → CartSt) : (modCart f s).pwr = s.pwr := rfl
@[simp] theorem modCart_saved (f : CartSt → CartSt) : (modCart f s).saved = s.saved := rfl
@[simp] theorem modCart_snap (f : CartSt → CartSt) : (modCart f s).snap = s.snap := rfl

/-! `setSpdm` changes `trust` alone. -/

@[simp] theorem setSpdm_pending (t : Nat) (x : SpdmSt) : (setSpdm t x s).pending = s.pending := rfl
@[simp] theorem setSpdm_variant (t : Nat) (x : SpdmSt) : (setSpdm t x s).variant = s.variant := rfl
@[simp] theorem setSpdm_ring (t : Nat) (x : SpdmSt) : (setSpdm t x s).ring = s.ring := rfl
@[simp] theorem setSpdm_clock (t : Nat) (x : SpdmSt) : (setSpdm t x s).clock = s.clock := rfl
@[simp] theorem setSpdm_ran (t : Nat) (x : SpdmSt) : (setSpdm t x s).ran = s.ran := rfl
@[simp] theorem setSpdm_freeCtr (t : Nat) (x : SpdmSt) : (setSpdm t x s).freeCtr = s.freeCtr := rfl
@[simp] theorem setSpdm_items (t : Nat) (x : SpdmSt) : (setSpdm t x s).items = s.items := rfl
@[simp] theorem setSpdm_tim (t : Nat) (x : SpdmSt) : (setSpdm t x s).tim = s.tim := rfl
@[simp] theorem setSpdm_host (t : Nat) (x : SpdmSt) : (setSpdm t x s).host = s.host := rfl
@[simp] theorem setSpdm_lko (t : Nat) (x : SpdmSt) : (setSpdm t x s).lko = s.lko := rfl
@[simp] theorem setSpdm_md (t : Nat) (x : SpdmSt) : (setSpdm t x s).md = s.md := rfl
@[simp] theorem setSpdm_cmp (t : Nat) (x : SpdmSt) : (setSpdm t x s).cmp = s.cmp := rfl
@[simp] theorem setSpdm_link (t : Nat) (x : SpdmSt) : (setSpdm t x s).link = s.link := rfl
@[simp] theorem setSpdm_par (t : Nat) (x : SpdmSt) : (setSpdm t x s).par = s.par := rfl
@[simp] theorem setSpdm_cut (t : Nat) (x : SpdmSt) : (setSpdm t x s).cut = s.cut := rfl
@[simp] theorem setSpdm_em (t : Nat) (x : SpdmSt) : (setSpdm t x s).em = s.em := rfl
@[simp] theorem setSpdm_grv (t : Nat) (x : SpdmSt) : (setSpdm t x s).grv = s.grv := rfl
@[simp] theorem setSpdm_lnd (t : Nat) (x : SpdmSt) : (setSpdm t x s).lnd = s.lnd := rfl
@[simp] theorem setSpdm_buf (t : Nat) (x : SpdmSt) : (setSpdm t x s).buf = s.buf := rfl
@[simp] theorem setSpdm_krf (t : Nat) (x : SpdmSt) : (setSpdm t x s).krf = s.krf := rfl
@[simp] theorem setSpdm_sch (t : Nat) (x : SpdmSt) : (setSpdm t x s).sch = s.sch := rfl
@[simp] theorem setSpdm_dram (t : Nat) (x : SpdmSt) : (setSpdm t x s).dram = s.dram := rfl
@[simp] theorem setSpdm_cap (t : Nat) (x : SpdmSt) : (setSpdm t x s).cap = s.cap := rfl
@[simp] theorem setSpdm_ctr (t : Nat) (x : SpdmSt) : (setSpdm t x s).ctr = s.ctr := rfl
@[simp] theorem setSpdm_pair (t : Nat) (x : SpdmSt) : (setSpdm t x s).pair = s.pair := rfl
@[simp] theorem setSpdm_pwr (t : Nat) (x : SpdmSt) : (setSpdm t x s).pwr = s.pwr := rfl
@[simp] theorem setSpdm_saved (t : Nat) (x : SpdmSt) : (setSpdm t x s).saved = s.saved := rfl
@[simp] theorem setSpdm_snap (t : Nat) (x : SpdmSt) : (setSpdm t x s).snap = s.snap := rfl

/-! `keepReading` changes `pwr` alone. -/

@[simp] theorem keepReading_pending (k i : Nat) (v : Int) : (keepReading k i v s).pending = s.pending := rfl
@[simp] theorem keepReading_variant (k i : Nat) (v : Int) : (keepReading k i v s).variant = s.variant := rfl
@[simp] theorem keepReading_ring (k i : Nat) (v : Int) : (keepReading k i v s).ring = s.ring := rfl
@[simp] theorem keepReading_clock (k i : Nat) (v : Int) : (keepReading k i v s).clock = s.clock := rfl
@[simp] theorem keepReading_ran (k i : Nat) (v : Int) : (keepReading k i v s).ran = s.ran := rfl
@[simp] theorem keepReading_freeCtr (k i : Nat) (v : Int) : (keepReading k i v s).freeCtr = s.freeCtr := rfl
@[simp] theorem keepReading_items (k i : Nat) (v : Int) : (keepReading k i v s).items = s.items := rfl
@[simp] theorem keepReading_tim (k i : Nat) (v : Int) : (keepReading k i v s).tim = s.tim := rfl
@[simp] theorem keepReading_host (k i : Nat) (v : Int) : (keepReading k i v s).host = s.host := rfl
@[simp] theorem keepReading_lko (k i : Nat) (v : Int) : (keepReading k i v s).lko = s.lko := rfl
@[simp] theorem keepReading_md (k i : Nat) (v : Int) : (keepReading k i v s).md = s.md := rfl
@[simp] theorem keepReading_cmp (k i : Nat) (v : Int) : (keepReading k i v s).cmp = s.cmp := rfl
@[simp] theorem keepReading_trust (k i : Nat) (v : Int) : (keepReading k i v s).trust = s.trust := rfl
@[simp] theorem keepReading_link (k i : Nat) (v : Int) : (keepReading k i v s).link = s.link := rfl
@[simp] theorem keepReading_par (k i : Nat) (v : Int) : (keepReading k i v s).par = s.par := rfl
@[simp] theorem keepReading_cut (k i : Nat) (v : Int) : (keepReading k i v s).cut = s.cut := rfl
@[simp] theorem keepReading_em (k i : Nat) (v : Int) : (keepReading k i v s).em = s.em := rfl
@[simp] theorem keepReading_grv (k i : Nat) (v : Int) : (keepReading k i v s).grv = s.grv := rfl
@[simp] theorem keepReading_lnd (k i : Nat) (v : Int) : (keepReading k i v s).lnd = s.lnd := rfl
@[simp] theorem keepReading_buf (k i : Nat) (v : Int) : (keepReading k i v s).buf = s.buf := rfl
@[simp] theorem keepReading_krf (k i : Nat) (v : Int) : (keepReading k i v s).krf = s.krf := rfl
@[simp] theorem keepReading_sch (k i : Nat) (v : Int) : (keepReading k i v s).sch = s.sch := rfl
@[simp] theorem keepReading_dram (k i : Nat) (v : Int) : (keepReading k i v s).dram = s.dram := rfl
@[simp] theorem keepReading_cap (k i : Nat) (v : Int) : (keepReading k i v s).cap = s.cap := rfl
@[simp] theorem keepReading_ctr (k i : Nat) (v : Int) : (keepReading k i v s).ctr = s.ctr := rfl
@[simp] theorem keepReading_pair (k i : Nat) (v : Int) : (keepReading k i v s).pair = s.pair := rfl
@[simp] theorem keepReading_saved (k i : Nat) (v : Int) : (keepReading k i v s).saved = s.saved := rfl
@[simp] theorem keepReading_snap (k i : Nat) (v : Int) : (keepReading k i v s).snap = s.snap := rfl

/-! `closeSession` changes `trust` alone. -/

@[simp] theorem closeSession_pending (c : Nat) : (closeSession c s).pending = s.pending := rfl
@[simp] theorem closeSession_variant (c : Nat) : (closeSession c s).variant = s.variant := rfl
@[simp] theorem closeSession_ring (c : Nat) : (closeSession c s).ring = s.ring := rfl
@[simp] theorem closeSession_clock (c : Nat) : (closeSession c s).clock = s.clock := rfl
@[simp] theorem closeSession_ran (c : Nat) : (closeSession c s).ran = s.ran := rfl
@[simp] theorem closeSession_freeCtr (c : Nat) : (closeSession c s).freeCtr = s.freeCtr := rfl
@[simp] theorem closeSession_items (c : Nat) : (closeSession c s).items = s.items := rfl
@[simp] theorem closeSession_tim (c : Nat) : (closeSession c s).tim = s.tim := rfl
@[simp] theorem closeSession_host (c : Nat) : (closeSession c s).host = s.host := rfl
@[simp] theorem closeSession_lko (c : Nat) : (closeSession c s).lko = s.lko := rfl
@[simp] theorem closeSession_md (c : Nat) : (closeSession c s).md = s.md := rfl
@[simp] theorem closeSession_cmp (c : Nat) : (closeSession c s).cmp = s.cmp := rfl
@[simp] theorem closeSession_link (c : Nat) : (closeSession c s).link = s.link := rfl
@[simp] theorem closeSession_par (c : Nat) : (closeSession c s).par = s.par := rfl
@[simp] theorem closeSession_cut (c : Nat) : (closeSession c s).cut = s.cut := rfl
@[simp] theorem closeSession_em (c : Nat) : (closeSession c s).em = s.em := rfl
@[simp] theorem closeSession_grv (c : Nat) : (closeSession c s).grv = s.grv := rfl
@[simp] theorem closeSession_lnd (c : Nat) : (closeSession c s).lnd = s.lnd := rfl
@[simp] theorem closeSession_buf (c : Nat) : (closeSession c s).buf = s.buf := rfl
@[simp] theorem closeSession_krf (c : Nat) : (closeSession c s).krf = s.krf := rfl
@[simp] theorem closeSession_sch (c : Nat) : (closeSession c s).sch = s.sch := rfl
@[simp] theorem closeSession_dram (c : Nat) : (closeSession c s).dram = s.dram := rfl
@[simp] theorem closeSession_cap (c : Nat) : (closeSession c s).cap = s.cap := rfl
@[simp] theorem closeSession_ctr (c : Nat) : (closeSession c s).ctr = s.ctr := rfl
@[simp] theorem closeSession_pair (c : Nat) : (closeSession c s).pair = s.pair := rfl
@[simp] theorem closeSession_pwr (c : Nat) : (closeSession c s).pwr = s.pwr := rfl
@[simp] theorem closeSession_saved (c : Nat) : (closeSession c s).saved = s.saved := rfl
@[simp] theorem closeSession_snap (c : Nat) : (closeSession c s).snap = s.snap := rfl

/-! `restartBy` changes `lko` alone. -/

@[simp] theorem restartBy_pending (r : Nat) : (restartBy r s).pending = s.pending := rfl
@[simp] theorem restartBy_variant (r : Nat) : (restartBy r s).variant = s.variant := rfl
@[simp] theorem restartBy_ring (r : Nat) : (restartBy r s).ring = s.ring := rfl
@[simp] theorem restartBy_clock (r : Nat) : (restartBy r s).clock = s.clock := rfl
@[simp] theorem restartBy_ran (r : Nat) : (restartBy r s).ran = s.ran := rfl
@[simp] theorem restartBy_freeCtr (r : Nat) : (restartBy r s).freeCtr = s.freeCtr := rfl
@[simp] theorem restartBy_items (r : Nat) : (restartBy r s).items = s.items := rfl
@[simp] theorem restartBy_tim (r : Nat) : (restartBy r s).tim = s.tim := rfl
@[simp] theorem restartBy_host (r : Nat) : (restartBy r s).host = s.host := rfl
@[simp] theorem restartBy_md (r : Nat) : (restartBy r s).md = s.md := rfl
@[simp] theorem restartBy_cmp (r : Nat) : (restartBy r s).cmp = s.cmp := rfl
@[simp] theorem restartBy_trust (r : Nat) : (restartBy r s).trust = s.trust := rfl
@[simp] theorem restartBy_link (r : Nat) : (restartBy r s).link = s.link := rfl
@[simp] theorem restartBy_par (r : Nat) : (restartBy r s).par = s.par := rfl
@[simp] theorem restartBy_cut (r : Nat) : (restartBy r s).cut = s.cut := rfl
@[simp] theorem restartBy_em (r : Nat) : (restartBy r s).em = s.em := rfl
@[simp] theorem restartBy_grv (r : Nat) : (restartBy r s).grv = s.grv := rfl
@[simp] theorem restartBy_lnd (r : Nat) : (restartBy r s).lnd = s.lnd := rfl
@[simp] theorem restartBy_buf (r : Nat) : (restartBy r s).buf = s.buf := rfl
@[simp] theorem restartBy_krf (r : Nat) : (restartBy r s).krf = s.krf := rfl
@[simp] theorem restartBy_sch (r : Nat) : (restartBy r s).sch = s.sch := rfl
@[simp] theorem restartBy_dram (r : Nat) : (restartBy r s).dram = s.dram := rfl
@[simp] theorem restartBy_cap (r : Nat) : (restartBy r s).cap = s.cap := rfl
@[simp] theorem restartBy_ctr (r : Nat) : (restartBy r s).ctr = s.ctr := rfl
@[simp] theorem restartBy_pair (r : Nat) : (restartBy r s).pair = s.pair := rfl
@[simp] theorem restartBy_pwr (r : Nat) : (restartBy r s).pwr = s.pwr := rfl
@[simp] theorem restartBy_saved (r : Nat) : (restartBy r s).saved = s.saved := rfl
@[simp] theorem restartBy_snap (r : Nat) : (restartBy r s).snap = s.snap := rfl

/-! `settleMasks` changes `grv` alone. -/

@[simp] theorem settleMasks_pending  : (settleMasks  s).pending = s.pending := rfl
@[simp] theorem settleMasks_variant  : (settleMasks  s).variant = s.variant := rfl
@[simp] theorem settleMasks_ring  : (settleMasks  s).ring = s.ring := rfl
@[simp] theorem settleMasks_clock  : (settleMasks  s).clock = s.clock := rfl
@[simp] theorem settleMasks_ran  : (settleMasks  s).ran = s.ran := rfl
@[simp] theorem settleMasks_freeCtr  : (settleMasks  s).freeCtr = s.freeCtr := rfl
@[simp] theorem settleMasks_items  : (settleMasks  s).items = s.items := rfl
@[simp] theorem settleMasks_tim  : (settleMasks  s).tim = s.tim := rfl
@[simp] theorem settleMasks_host  : (settleMasks  s).host = s.host := rfl
@[simp] theorem settleMasks_lko  : (settleMasks  s).lko = s.lko := rfl
@[simp] theorem settleMasks_md  : (settleMasks  s).md = s.md := rfl
@[simp] theorem settleMasks_cmp  : (settleMasks  s).cmp = s.cmp := rfl
@[simp] theorem settleMasks_trust  : (settleMasks  s).trust = s.trust := rfl
@[simp] theorem settleMasks_link  : (settleMasks  s).link = s.link := rfl
@[simp] theorem settleMasks_par  : (settleMasks  s).par = s.par := rfl
@[simp] theorem settleMasks_cut  : (settleMasks  s).cut = s.cut := rfl
@[simp] theorem settleMasks_em  : (settleMasks  s).em = s.em := rfl
@[simp] theorem settleMasks_lnd  : (settleMasks  s).lnd = s.lnd := rfl
@[simp] theorem settleMasks_buf  : (settleMasks  s).buf = s.buf := rfl
@[simp] theorem settleMasks_krf  : (settleMasks  s).krf = s.krf := rfl
@[simp] theorem settleMasks_sch  : (settleMasks  s).sch = s.sch := rfl
@[simp] theorem settleMasks_dram  : (settleMasks  s).dram = s.dram := rfl
@[simp] theorem settleMasks_cap  : (settleMasks  s).cap = s.cap := rfl
@[simp] theorem settleMasks_ctr  : (settleMasks  s).ctr = s.ctr := rfl
@[simp] theorem settleMasks_pair  : (settleMasks  s).pair = s.pair := rfl
@[simp] theorem settleMasks_pwr  : (settleMasks  s).pwr = s.pwr := rfl
@[simp] theorem settleMasks_saved  : (settleMasks  s).saved = s.saved := rfl
@[simp] theorem settleMasks_snap  : (settleMasks  s).snap = s.snap := rfl

/-! `dropBack` changes `dram` alone. -/

@[simp] theorem dropBack_pending (p : Nat) : (dropBack p s).pending = s.pending := rfl
@[simp] theorem dropBack_variant (p : Nat) : (dropBack p s).variant = s.variant := rfl
@[simp] theorem dropBack_ring (p : Nat) : (dropBack p s).ring = s.ring := rfl
@[simp] theorem dropBack_clock (p : Nat) : (dropBack p s).clock = s.clock := rfl
@[simp] theorem dropBack_ran (p : Nat) : (dropBack p s).ran = s.ran := rfl
@[simp] theorem dropBack_freeCtr (p : Nat) : (dropBack p s).freeCtr = s.freeCtr := rfl
@[simp] theorem dropBack_items (p : Nat) : (dropBack p s).items = s.items := rfl
@[simp] theorem dropBack_tim (p : Nat) : (dropBack p s).tim = s.tim := rfl
@[simp] theorem dropBack_host (p : Nat) : (dropBack p s).host = s.host := rfl
@[simp] theorem dropBack_lko (p : Nat) : (dropBack p s).lko = s.lko := rfl
@[simp] theorem dropBack_md (p : Nat) : (dropBack p s).md = s.md := rfl
@[simp] theorem dropBack_cmp (p : Nat) : (dropBack p s).cmp = s.cmp := rfl
@[simp] theorem dropBack_trust (p : Nat) : (dropBack p s).trust = s.trust := rfl
@[simp] theorem dropBack_link (p : Nat) : (dropBack p s).link = s.link := rfl
@[simp] theorem dropBack_par (p : Nat) : (dropBack p s).par = s.par := rfl
@[simp] theorem dropBack_cut (p : Nat) : (dropBack p s).cut = s.cut := rfl
@[simp] theorem dropBack_em (p : Nat) : (dropBack p s).em = s.em := rfl
@[simp] theorem dropBack_grv (p : Nat) : (dropBack p s).grv = s.grv := rfl
@[simp] theorem dropBack_lnd (p : Nat) : (dropBack p s).lnd = s.lnd := rfl
@[simp] theorem dropBack_buf (p : Nat) : (dropBack p s).buf = s.buf := rfl
@[simp] theorem dropBack_krf (p : Nat) : (dropBack p s).krf = s.krf := rfl
@[simp] theorem dropBack_sch (p : Nat) : (dropBack p s).sch = s.sch := rfl
@[simp] theorem dropBack_cap (p : Nat) : (dropBack p s).cap = s.cap := rfl
@[simp] theorem dropBack_ctr (p : Nat) : (dropBack p s).ctr = s.ctr := rfl
@[simp] theorem dropBack_pair (p : Nat) : (dropBack p s).pair = s.pair := rfl
@[simp] theorem dropBack_pwr (p : Nat) : (dropBack p s).pwr = s.pwr := rfl
@[simp] theorem dropBack_saved (p : Nat) : (dropBack p s).saved = s.saved := rfl
@[simp] theorem dropBack_snap (p : Nat) : (dropBack p s).snap = s.snap := rfl

/-! `txRingEnd` changes `sch` alone. -/

@[simp] theorem txRingEnd_pending  : (txRingEnd  s).pending = s.pending := rfl
@[simp] theorem txRingEnd_variant  : (txRingEnd  s).variant = s.variant := rfl
@[simp] theorem txRingEnd_ring  : (txRingEnd  s).ring = s.ring := rfl
@[simp] theorem txRingEnd_clock  : (txRingEnd  s).clock = s.clock := rfl
@[simp] theorem txRingEnd_ran  : (txRingEnd  s).ran = s.ran := rfl
@[simp] theorem txRingEnd_freeCtr  : (txRingEnd  s).freeCtr = s.freeCtr := rfl
@[simp] theorem txRingEnd_items  : (txRingEnd  s).items = s.items := rfl
@[simp] theorem txRingEnd_tim  : (txRingEnd  s).tim = s.tim := rfl
@[simp] theorem txRingEnd_host  : (txRingEnd  s).host = s.host := rfl
@[simp] theorem txRingEnd_lko  : (txRingEnd  s).lko = s.lko := rfl
@[simp] theorem txRingEnd_md  : (txRingEnd  s).md = s.md := rfl
@[simp] theorem txRingEnd_cmp  : (txRingEnd  s).cmp = s.cmp := rfl
@[simp] theorem txRingEnd_trust  : (txRingEnd  s).trust = s.trust := rfl
@[simp] theorem txRingEnd_link  : (txRingEnd  s).link = s.link := rfl
@[simp] theorem txRingEnd_par  : (txRingEnd  s).par = s.par := rfl
@[simp] theorem txRingEnd_cut  : (txRingEnd  s).cut = s.cut := rfl
@[simp] theorem txRingEnd_em  : (txRingEnd  s).em = s.em := rfl
@[simp] theorem txRingEnd_grv  : (txRingEnd  s).grv = s.grv := rfl
@[simp] theorem txRingEnd_lnd  : (txRingEnd  s).lnd = s.lnd := rfl
@[simp] theorem txRingEnd_buf  : (txRingEnd  s).buf = s.buf := rfl
@[simp] theorem txRingEnd_krf  : (txRingEnd  s).krf = s.krf := rfl
@[simp] theorem txRingEnd_dram  : (txRingEnd  s).dram = s.dram := rfl
@[simp] theorem txRingEnd_cap  : (txRingEnd  s).cap = s.cap := rfl
@[simp] theorem txRingEnd_ctr  : (txRingEnd  s).ctr = s.ctr := rfl
@[simp] theorem txRingEnd_pair  : (txRingEnd  s).pair = s.pair := rfl
@[simp] theorem txRingEnd_pwr  : (txRingEnd  s).pwr = s.pwr := rfl
@[simp] theorem txRingEnd_saved  : (txRingEnd  s).saved = s.saved := rfl
@[simp] theorem txRingEnd_snap  : (txRingEnd  s).snap = s.snap := rfl

/-! `seqUsed` changes `trust` alone. -/

@[simp] theorem seqUsed_pending (c : Nat) : (seqUsed c s).pending = s.pending := rfl
@[simp] theorem seqUsed_variant (c : Nat) : (seqUsed c s).variant = s.variant := rfl
@[simp] theorem seqUsed_ring (c : Nat) : (seqUsed c s).ring = s.ring := rfl
@[simp] theorem seqUsed_clock (c : Nat) : (seqUsed c s).clock = s.clock := rfl
@[simp] theorem seqUsed_ran (c : Nat) : (seqUsed c s).ran = s.ran := rfl
@[simp] theorem seqUsed_freeCtr (c : Nat) : (seqUsed c s).freeCtr = s.freeCtr := rfl
@[simp] theorem seqUsed_items (c : Nat) : (seqUsed c s).items = s.items := rfl
@[simp] theorem seqUsed_tim (c : Nat) : (seqUsed c s).tim = s.tim := rfl
@[simp] theorem seqUsed_host (c : Nat) : (seqUsed c s).host = s.host := rfl
@[simp] theorem seqUsed_lko (c : Nat) : (seqUsed c s).lko = s.lko := rfl
@[simp] theorem seqUsed_md (c : Nat) : (seqUsed c s).md = s.md := rfl
@[simp] theorem seqUsed_cmp (c : Nat) : (seqUsed c s).cmp = s.cmp := rfl
@[simp] theorem seqUsed_link (c : Nat) : (seqUsed c s).link = s.link := rfl
@[simp] theorem seqUsed_par (c : Nat) : (seqUsed c s).par = s.par := rfl
@[simp] theorem seqUsed_cut (c : Nat) : (seqUsed c s).cut = s.cut := rfl
@[simp] theorem seqUsed_em (c : Nat) : (seqUsed c s).em = s.em := rfl
@[simp] theorem seqUsed_grv (c : Nat) : (seqUsed c s).grv = s.grv := rfl
@[simp] theorem seqUsed_lnd (c : Nat) : (seqUsed c s).lnd = s.lnd := rfl
@[simp] theorem seqUsed_buf (c : Nat) : (seqUsed c s).buf = s.buf := rfl
@[simp] theorem seqUsed_krf (c : Nat) : (seqUsed c s).krf = s.krf := rfl
@[simp] theorem seqUsed_sch (c : Nat) : (seqUsed c s).sch = s.sch := rfl
@[simp] theorem seqUsed_dram (c : Nat) : (seqUsed c s).dram = s.dram := rfl
@[simp] theorem seqUsed_cap (c : Nat) : (seqUsed c s).cap = s.cap := rfl
@[simp] theorem seqUsed_ctr (c : Nat) : (seqUsed c s).ctr = s.ctr := rfl
@[simp] theorem seqUsed_pair (c : Nat) : (seqUsed c s).pair = s.pair := rfl
@[simp] theorem seqUsed_pwr (c : Nat) : (seqUsed c s).pwr = s.pwr := rfl
@[simp] theorem seqUsed_saved (c : Nat) : (seqUsed c s).saved = s.saved := rfl
@[simp] theorem seqUsed_snap (c : Nat) : (seqUsed c s).snap = s.snap := rfl

/-! `fireVec` changes `host` alone. -/

@[simp] theorem fireVec_pending (c k : Nat) : (fireVec c k s).pending = s.pending := rfl
@[simp] theorem fireVec_variant (c k : Nat) : (fireVec c k s).variant = s.variant := rfl
@[simp] theorem fireVec_ring (c k : Nat) : (fireVec c k s).ring = s.ring := rfl
@[simp] theorem fireVec_clock (c k : Nat) : (fireVec c k s).clock = s.clock := rfl
@[simp] theorem fireVec_ran (c k : Nat) : (fireVec c k s).ran = s.ran := rfl
@[simp] theorem fireVec_freeCtr (c k : Nat) : (fireVec c k s).freeCtr = s.freeCtr := rfl
@[simp] theorem fireVec_items (c k : Nat) : (fireVec c k s).items = s.items := rfl
@[simp] theorem fireVec_tim (c k : Nat) : (fireVec c k s).tim = s.tim := rfl
@[simp] theorem fireVec_lko (c k : Nat) : (fireVec c k s).lko = s.lko := rfl
@[simp] theorem fireVec_md (c k : Nat) : (fireVec c k s).md = s.md := rfl
@[simp] theorem fireVec_cmp (c k : Nat) : (fireVec c k s).cmp = s.cmp := rfl
@[simp] theorem fireVec_trust (c k : Nat) : (fireVec c k s).trust = s.trust := rfl
@[simp] theorem fireVec_link (c k : Nat) : (fireVec c k s).link = s.link := rfl
@[simp] theorem fireVec_par (c k : Nat) : (fireVec c k s).par = s.par := rfl
@[simp] theorem fireVec_cut (c k : Nat) : (fireVec c k s).cut = s.cut := rfl
@[simp] theorem fireVec_em (c k : Nat) : (fireVec c k s).em = s.em := rfl
@[simp] theorem fireVec_grv (c k : Nat) : (fireVec c k s).grv = s.grv := rfl
@[simp] theorem fireVec_lnd (c k : Nat) : (fireVec c k s).lnd = s.lnd := rfl
@[simp] theorem fireVec_buf (c k : Nat) : (fireVec c k s).buf = s.buf := rfl
@[simp] theorem fireVec_krf (c k : Nat) : (fireVec c k s).krf = s.krf := rfl
@[simp] theorem fireVec_sch (c k : Nat) : (fireVec c k s).sch = s.sch := rfl
@[simp] theorem fireVec_dram (c k : Nat) : (fireVec c k s).dram = s.dram := rfl
@[simp] theorem fireVec_cap (c k : Nat) : (fireVec c k s).cap = s.cap := rfl
@[simp] theorem fireVec_ctr (c k : Nat) : (fireVec c k s).ctr = s.ctr := rfl
@[simp] theorem fireVec_pair (c k : Nat) : (fireVec c k s).pair = s.pair := rfl
@[simp] theorem fireVec_pwr (c k : Nat) : (fireVec c k s).pwr = s.pwr := rfl
@[simp] theorem fireVec_saved (c k : Nat) : (fireVec c k s).saved = s.saved := rfl
@[simp] theorem fireVec_snap (c k : Nat) : (fireVec c k s).snap = s.snap := rfl

/-! `takeSnap` changes `snap` alone, and `atSnap` gives back what it took. -/

@[simp] theorem takeSnap_pending : (takeSnap s).pending = s.pending := rfl
@[simp] theorem takeSnap_variant : (takeSnap s).variant = s.variant := rfl
@[simp] theorem takeSnap_ring : (takeSnap s).ring = s.ring := rfl
@[simp] theorem takeSnap_clock : (takeSnap s).clock = s.clock := rfl
@[simp] theorem takeSnap_ran : (takeSnap s).ran = s.ran := rfl
@[simp] theorem takeSnap_freeCtr : (takeSnap s).freeCtr = s.freeCtr := rfl
@[simp] theorem takeSnap_items : (takeSnap s).items = s.items := rfl
@[simp] theorem takeSnap_tim : (takeSnap s).tim = s.tim := rfl
@[simp] theorem takeSnap_host : (takeSnap s).host = s.host := rfl
@[simp] theorem takeSnap_lko : (takeSnap s).lko = s.lko := rfl
@[simp] theorem takeSnap_md : (takeSnap s).md = s.md := rfl
@[simp] theorem takeSnap_cmp : (takeSnap s).cmp = s.cmp := rfl
@[simp] theorem takeSnap_trust : (takeSnap s).trust = s.trust := rfl
@[simp] theorem takeSnap_link : (takeSnap s).link = s.link := rfl
@[simp] theorem takeSnap_par : (takeSnap s).par = s.par := rfl
@[simp] theorem takeSnap_cut : (takeSnap s).cut = s.cut := rfl
@[simp] theorem takeSnap_em : (takeSnap s).em = s.em := rfl
@[simp] theorem takeSnap_grv : (takeSnap s).grv = s.grv := rfl
@[simp] theorem takeSnap_lnd : (takeSnap s).lnd = s.lnd := rfl
@[simp] theorem takeSnap_buf : (takeSnap s).buf = s.buf := rfl
@[simp] theorem takeSnap_krf : (takeSnap s).krf = s.krf := rfl
@[simp] theorem takeSnap_sch : (takeSnap s).sch = s.sch := rfl
@[simp] theorem takeSnap_dram : (takeSnap s).dram = s.dram := rfl
@[simp] theorem takeSnap_cap : (takeSnap s).cap = s.cap := rfl
@[simp] theorem takeSnap_ctr : (takeSnap s).ctr = s.ctr := rfl
@[simp] theorem takeSnap_pair : (takeSnap s).pair = s.pair := rfl
@[simp] theorem takeSnap_pwr : (takeSnap s).pwr = s.pwr := rfl
@[simp] theorem takeSnap_saved : (takeSnap s).saved = s.saved := rfl
@[simp] theorem atSnap_pending : (atSnap s).pending = s.pending := rfl
@[simp] theorem atSnap_variant : (atSnap s).variant = s.variant := rfl
@[simp] theorem atSnap_ring : (atSnap s).ring = s.ring := rfl
@[simp] theorem atSnap_clock : (atSnap s).clock = 0 := rfl
@[simp] theorem atSnap_ran : (atSnap s).ran = s.ran := rfl
@[simp] theorem atSnap_freeCtr : (atSnap s).freeCtr = s.freeCtr := rfl
@[simp] theorem atSnap_items : (atSnap s).items = s.snap.items := rfl
@[simp] theorem atSnap_tim : (atSnap s).tim = s.snap.tim := rfl
@[simp] theorem atSnap_host : (atSnap s).host = s.snap.host := rfl
@[simp] theorem atSnap_lko : (atSnap s).lko = s.snap.lko := rfl
@[simp] theorem atSnap_md : (atSnap s).md = s.snap.md := rfl
@[simp] theorem atSnap_cmp : (atSnap s).cmp = s.snap.cmp := rfl
@[simp] theorem atSnap_trust : (atSnap s).trust = s.snap.trust := rfl
@[simp] theorem atSnap_link : (atSnap s).link = s.snap.link := rfl
@[simp] theorem atSnap_par : (atSnap s).par = s.snap.par := rfl
@[simp] theorem atSnap_cut : (atSnap s).cut = s.snap.cut := rfl
@[simp] theorem atSnap_em : (atSnap s).em = s.snap.em := rfl
@[simp] theorem atSnap_grv : (atSnap s).grv = s.snap.grv := rfl
@[simp] theorem atSnap_lnd : (atSnap s).lnd = s.snap.lnd := rfl
@[simp] theorem atSnap_buf : (atSnap s).buf = s.snap.buf := rfl
@[simp] theorem atSnap_krf : (atSnap s).krf = s.snap.krf := rfl
@[simp] theorem atSnap_sch : (atSnap s).sch = s.snap.sch := rfl
@[simp] theorem atSnap_dram : (atSnap s).dram = s.snap.dram := rfl
@[simp] theorem atSnap_cap : (atSnap s).cap = s.snap.cap := rfl
@[simp] theorem atSnap_ctr : (atSnap s).ctr = s.snap.ctr := rfl
@[simp] theorem atSnap_pair : (atSnap s).pair = s.snap.pair := rfl
@[simp] theorem atSnap_pwr : (atSnap s).pwr = s.snap.pwr := rfl
@[simp] theorem atSnap_saved : (atSnap s).saved = s.saved := rfl
@[simp] theorem atSnap_snap : (atSnap s).snap = s.snap := rfl

/-- At the boundary a read takes what stands there. -/
theorem atSnap_takeSnap : atSnap (takeSnap s) = { takeSnap s with clock := 0 } := rfl

/-! ## Reading after writing -/

@[simp] theorem port_modPort_self (p : Nat) (f : Port → Port) : port (modPort p f s) p = f (port s p) :=
  tget_tmod_self _ _ _ _

theorem port_modPort_ne {p d : Nat} (f : Port → Port) (h : d ≠ p) : port (modPort p f s) d = port s d :=
  tget_tmod_ne _ _ _ (by simpa using h)

@[simp] theorem unitSt_modUnit_self (u : Nat) (f : UnitSt → UnitSt) : unitSt (modUnit u f s) u = f (unitSt s u) :=
  tget_tmod_self _ _ _ _

theorem unitSt_modUnit_ne {u d : Nat} (f : UnitSt → UnitSt) (h : d ≠ u) : unitSt (modUnit u f s) d = unitSt s d :=
  tget_tmod_ne _ _ _ (by simpa using h)

@[simp] theorem cmpOf_modCmp_self (c : Nat) (f : Cmp → Cmp) : cmpOf (modCmp c f s) c = f (cmpOf s c) :=
  tget_tmod_self _ _ _ _

theorem cmpOf_modCmp_ne {c d : Nat} (f : Cmp → Cmp) (h : d ≠ c) : cmpOf (modCmp c f s) d = cmpOf s d :=
  tget_tmod_ne _ _ _ (by simpa using h)

@[simp] theorem mbxOf_modMbx_self (c : Nat) (f : Mbx → Mbx) : mbxOf (modMbx c f s) c = f (mbxOf s c) :=
  tget_tmod_self _ _ _ _

theorem mbxOf_modMbx_ne {c d : Nat} (f : Mbx → Mbx) (h : d ≠ c) : mbxOf (modMbx c f s) d = mbxOf s d :=
  tget_tmod_ne _ _ _ (by simpa using h)

@[simp] theorem srcOf_modSrc_self (c : Nat) (f : SrcSt → SrcSt) : srcOf (modSrc c f s) c = f (srcOf s c) :=
  tget_tmod_self _ _ _ _

theorem srcOf_modSrc_ne {c d : Nat} (f : SrcSt → SrcSt) (h : d ≠ c) : srcOf (modSrc c f s) d = srcOf s d :=
  tget_tmod_ne _ _ _ (by simpa using h)

@[simp] theorem cageOf_modCage_self (c : Nat) (f : Cage → Cage) : cageOf (modCage c f s) c = f (cageOf s c) :=
  tget_tmod_self _ _ _ _

theorem cageOf_modCage_ne {c d : Nat} (f : Cage → Cage) (h : d ≠ c) : cageOf (modCage c f s) d = cageOf s d :=
  tget_tmod_ne _ _ _ (by simpa using h)

@[simp] theorem poolOf_modPool_self (c : Nat) (f : Pool → Pool) : poolOf (modPool c f s) c = f (poolOf s c) :=
  tget_tmod_self _ _ _ _

theorem poolOf_modPool_ne {c d : Nat} (f : Pool → Pool) (h : d ≠ c) : poolOf (modPool c f s) d = poolOf s d :=
  tget_tmod_ne _ _ _ (by simpa using h)

@[simp] theorem cvOf_modCv_self (c : Nat) (f : Cv → Cv) : cvOf (modCv c f s) c = f (cvOf s c) :=
  tget_tmod_self _ _ _ _

theorem cvOf_modCv_ne {c d : Nat} (f : Cv → Cv) (h : d ≠ c) : cvOf (modCv c f s) d = cvOf s d :=
  tget_tmod_ne _ _ _ (by simpa using h)

@[simp] theorem tlyOf_modTly_self (c : Nat) (f : Tly → Tly) : tlyOf (modTly c f s) c = f (tlyOf s c) :=
  tget_tmod_self _ _ _ _

theorem tlyOf_modTly_ne {c d : Nat} (f : Tly → Tly) (h : d ≠ c) : tlyOf (modTly c f s) d = tlyOf s d :=
  tget_tmod_ne _ _ _ (by simpa using h)

@[simp] theorem vecOf_modVec_self (c k : Nat) (f : Vec → Vec) : vecOf (modVec c k f s) c k = f (vecOf s c k) :=
  tget_tmod_self _ _ _ _

theorem vecOf_modVec_ne {c k d j : Nat} (f : Vec → Vec) (h : d ≠ c ∨ j ≠ k) : vecOf (modVec c k f s) d j = vecOf s d j :=
  tget_tmod_ne _ _ _ (by simp; omega)

@[simp] theorem rankOf_modRank_self (c r : Nat) (f : Rank → Rank) : rankOf (modRank c r f s) c r = f (rankOf s c r) :=
  tget_tmod_self _ _ _ _

theorem rankOf_modRank_ne {c k d j : Nat} (f : Rank → Rank) (h : d ≠ c ∨ j ≠ k) : rankOf (modRank c k f s) d j = rankOf s d j :=
  tget_tmod_ne _ _ _ (by simp; omega)

@[simp] theorem secyOf_modSecy_self (c r : Nat) (f : SecY → SecY) : secyOf (modSecy c r f s) c r = f (secyOf s c r) :=
  tget_tmod_self _ _ _ _

@[simp] theorem mbxOf_modVec (c k d : Nat) (f : Vec → Vec) : mbxOf (modVec c k f s) d = mbxOf s d := rfl
@[simp] theorem mbxOf_fireVec (c k d : Nat) : mbxOf (fireVec c k s) d = mbxOf s d := rfl
@[simp] theorem vecOf_modMbx (c d k : Nat) (f : Mbx → Mbx) : vecOf (modMbx c f s) d k = vecOf s d k := rfl

theorem ctrGet_cnt_self (c : Ctr) (i j n : Nat) (h : c ≠ .timRej) :
    ctrGet (cnt c i j n s) c i j = (ctrGet s c i j + n) % 2 ^ 64 := by
  simp [ctrGet, cnt, h]

theorem ctrGet_cnt_ne {c d : Ctr} {i j a b : Nat} (n : Nat) (h : ctrKey d a b ≠ ctrKey c i j) :
    ctrGet (cnt c i j n s) d a b = ctrGet s d a b := by
  simp only [ctrGet, cnt]
  exact tget_tmod_ne _ _ _ h

/-! ## Folding -/

/-- What every step of a fold keeps, the fold keeps. -/
theorem foldS_keeps {α β : Type} (g : State → β) (f : α → State → State) (h : ∀ a t, g (f a t) = g t) (l : List α) :
    g (foldS l f s) = g s := by
  unfold foldS
  induction l generalizing s with
  | nil => rfl
  | cons a l ih => rw [List.foldl_cons, ih, h]

end Sys2Proof.Machine
end

