-- ==== Sys2Proof/Laws/Ops.lean ====
section
/-!
SUPPORT. Laws of the shared operations: which parts of the state each can change.
-/
namespace Sys2Proof.Machine

variable (s : State)

/-! `signal` changes `host` alone. -/

@[simp] theorem signal_pending (c k : Nat) : (signal c k s).pending = s.pending := by
  simp only [signal]; split <;> simp
@[simp] theorem signal_variant (c k : Nat) : (signal c k s).variant = s.variant := by
  simp only [signal]; split <;> simp
@[simp] theorem signal_ring (c k : Nat) : (signal c k s).ring = s.ring := by
  simp only [signal]; split <;> simp
@[simp] theorem signal_clock (c k : Nat) : (signal c k s).clock = s.clock := by
  simp only [signal]; split <;> simp
@[simp] theorem signal_ran (c k : Nat) : (signal c k s).ran = s.ran := by
  simp only [signal]; split <;> simp
@[simp] theorem signal_freeCtr (c k : Nat) : (signal c k s).freeCtr = s.freeCtr := by
  simp only [signal]; split <;> simp
@[simp] theorem signal_items (c k : Nat) : (signal c k s).items = s.items := by
  simp only [signal]; split <;> simp
@[simp] theorem signal_tim (c k : Nat) : (signal c k s).tim = s.tim := by
  simp only [signal]; split <;> simp
@[simp] theorem signal_lko (c k : Nat) : (signal c k s).lko = s.lko := by
  simp only [signal]; split <;> simp
@[simp] theorem signal_md (c k : Nat) : (signal c k s).md = s.md := by
  simp only [signal]; split <;> simp
@[simp] theorem signal_cmp (c k : Nat) : (signal c k s).cmp = s.cmp := by
  simp only [signal]; split <;> simp
@[simp] theorem signal_trust (c k : Nat) : (signal c k s).trust = s.trust := by
  simp only [signal]; split <;> simp
@[simp] theorem signal_link (c k : Nat) : (signal c k s).link = s.link := by
  simp only [signal]; split <;> simp
@[simp] theorem signal_par (c k : Nat) : (signal c k s).par = s.par := by
  simp only [signal]; split <;> simp
@[simp] theorem signal_cut (c k : Nat) : (signal c k s).cut = s.cut := by
  simp only [signal]; split <;> simp
@[simp] theorem signal_em (c k : Nat) : (signal c k s).em = s.em := by
  simp only [signal]; split <;> simp
@[simp] theorem signal_grv (c k : Nat) : (signal c k s).grv = s.grv := by
  simp only [signal]; split <;> simp
@[simp] theorem signal_lnd (c k : Nat) : (signal c k s).lnd = s.lnd := by
  simp only [signal]; split <;> simp
@[simp] theorem signal_buf (c k : Nat) : (signal c k s).buf = s.buf := by
  simp only [signal]; split <;> simp
@[simp] theorem signal_krf (c k : Nat) : (signal c k s).krf = s.krf := by
  simp only [signal]; split <;> simp
@[simp] theorem signal_sch (c k : Nat) : (signal c k s).sch = s.sch := by
  simp only [signal]; split <;> simp
@[simp] theorem signal_dram (c k : Nat) : (signal c k s).dram = s.dram := by
  simp only [signal]; split <;> simp
@[simp] theorem signal_cap (c k : Nat) : (signal c k s).cap = s.cap := by
  simp only [signal]; split <;> simp
@[simp] theorem signal_ctr (c k : Nat) : (signal c k s).ctr = s.ctr := by
  simp only [signal]; split <;> simp
@[simp] theorem signal_pair (c k : Nat) : (signal c k s).pair = s.pair := by
  simp only [signal]; split <;> simp
@[simp] theorem signal_pwr (c k : Nat) : (signal c k s).pwr = s.pwr := by
  simp only [signal]; split <;> simp
@[simp] theorem signal_saved (c k : Nat) : (signal c k s).saved = s.saved := by
  simp only [signal]; split <;> simp
@[simp] theorem signal_snap (c k : Nat) : (signal c k s).snap = s.snap := by
  simp only [signal]; split <;> simp

/-! `setMbxFault` changes `host` alone. -/

@[simp] theorem setMbxFault_pending (c k : Nat) : (setMbxFault c k s).pending = s.pending := by
  simp only [setMbxFault]; split <;> simp
@[simp] theorem setMbxFault_variant (c k : Nat) : (setMbxFault c k s).variant = s.variant := by
  simp only [setMbxFault]; split <;> simp
@[simp] theorem setMbxFault_ring (c k : Nat) : (setMbxFault c k s).ring = s.ring := by
  simp only [setMbxFault]; split <;> simp
@[simp] theorem setMbxFault_clock (c k : Nat) : (setMbxFault c k s).clock = s.clock := by
  simp only [setMbxFault]; split <;> simp
@[simp] theorem setMbxFault_ran (c k : Nat) : (setMbxFault c k s).ran = s.ran := by
  simp only [setMbxFault]; split <;> simp
@[simp] theorem setMbxFault_freeCtr (c k : Nat) : (setMbxFault c k s).freeCtr = s.freeCtr := by
  simp only [setMbxFault]; split <;> simp
@[simp] theorem setMbxFault_items (c k : Nat) : (setMbxFault c k s).items = s.items := by
  simp only [setMbxFault]; split <;> simp
@[simp] theorem setMbxFault_tim (c k : Nat) : (setMbxFault c k s).tim = s.tim := by
  simp only [setMbxFault]; split <;> simp
@[simp] theorem setMbxFault_lko (c k : Nat) : (setMbxFault c k s).lko = s.lko := by
  simp only [setMbxFault]; split <;> simp
@[simp] theorem setMbxFault_md (c k : Nat) : (setMbxFault c k s).md = s.md := by
  simp only [setMbxFault]; split <;> simp
@[simp] theorem setMbxFault_cmp (c k : Nat) : (setMbxFault c k s).cmp = s.cmp := by
  simp only [setMbxFault]; split <;> simp
@[simp] theorem setMbxFault_trust (c k : Nat) : (setMbxFault c k s).trust = s.trust := by
  simp only [setMbxFault]; split <;> simp
@[simp] theorem setMbxFault_link (c k : Nat) : (setMbxFault c k s).link = s.link := by
  simp only [setMbxFault]; split <;> simp
@[simp] theorem setMbxFault_par (c k : Nat) : (setMbxFault c k s).par = s.par := by
  simp only [setMbxFault]; split <;> simp
@[simp] theorem setMbxFault_cut (c k : Nat) : (setMbxFault c k s).cut = s.cut := by
  simp only [setMbxFault]; split <;> simp
@[simp] theorem setMbxFault_em (c k : Nat) : (setMbxFault c k s).em = s.em := by
  simp only [setMbxFault]; split <;> simp
@[simp] theorem setMbxFault_grv (c k : Nat) : (setMbxFault c k s).grv = s.grv := by
  simp only [setMbxFault]; split <;> simp
@[simp] theorem setMbxFault_lnd (c k : Nat) : (setMbxFault c k s).lnd = s.lnd := by
  simp only [setMbxFault]; split <;> simp
@[simp] theorem setMbxFault_buf (c k : Nat) : (setMbxFault c k s).buf = s.buf := by
  simp only [setMbxFault]; split <;> simp
@[simp] theorem setMbxFault_krf (c k : Nat) : (setMbxFault c k s).krf = s.krf := by
  simp only [setMbxFault]; split <;> simp
@[simp] theorem setMbxFault_sch (c k : Nat) : (setMbxFault c k s).sch = s.sch := by
  simp only [setMbxFault]; split <;> simp
@[simp] theorem setMbxFault_dram (c k : Nat) : (setMbxFault c k s).dram = s.dram := by
  simp only [setMbxFault]; split <;> simp
@[simp] theorem setMbxFault_cap (c k : Nat) : (setMbxFault c k s).cap = s.cap := by
  simp only [setMbxFault]; split <;> simp
@[simp] theorem setMbxFault_ctr (c k : Nat) : (setMbxFault c k s).ctr = s.ctr := by
  simp only [setMbxFault]; split <;> simp
@[simp] theorem setMbxFault_pair (c k : Nat) : (setMbxFault c k s).pair = s.pair := by
  simp only [setMbxFault]; split <;> simp
@[simp] theorem setMbxFault_pwr (c k : Nat) : (setMbxFault c k s).pwr = s.pwr := by
  simp only [setMbxFault]; split <;> simp
@[simp] theorem setMbxFault_saved (c k : Nat) : (setMbxFault c k s).saved = s.saved := by
  simp only [setMbxFault]; split <;> simp
@[simp] theorem setMbxFault_snap (c k : Nat) : (setMbxFault c k s).snap = s.snap := by
  simp only [setMbxFault]; split <;> simp

/-! `writeEvt` changes `host trust` alone. -/

@[simp] theorem writeEvt_pending (c k : Nat) (b : List Byte) : (writeEvt c k b s).pending = s.pending := by
  simp only [writeEvt, signal_pending, modMbx_pending]; split <;> rfl
@[simp] theorem writeEvt_variant (c k : Nat) (b : List Byte) : (writeEvt c k b s).variant = s.variant := by
  simp only [writeEvt, signal_variant, modMbx_variant]; split <;> rfl
@[simp] theorem writeEvt_ring (c k : Nat) (b : List Byte) : (writeEvt c k b s).ring = s.ring := by
  simp only [writeEvt, signal_ring, modMbx_ring]; split <;> rfl
@[simp] theorem writeEvt_clock (c k : Nat) (b : List Byte) : (writeEvt c k b s).clock = s.clock := by
  simp only [writeEvt, signal_clock, modMbx_clock]; split <;> rfl
@[simp] theorem writeEvt_ran (c k : Nat) (b : List Byte) : (writeEvt c k b s).ran = s.ran := by
  simp only [writeEvt, signal_ran, modMbx_ran]; split <;> rfl
@[simp] theorem writeEvt_freeCtr (c k : Nat) (b : List Byte) : (writeEvt c k b s).freeCtr = s.freeCtr := by
  simp only [writeEvt, signal_freeCtr, modMbx_freeCtr]; split <;> rfl
@[simp] theorem writeEvt_items (c k : Nat) (b : List Byte) : (writeEvt c k b s).items = s.items := by
  simp only [writeEvt, signal_items, modMbx_items]; split <;> rfl
@[simp] theorem writeEvt_tim (c k : Nat) (b : List Byte) : (writeEvt c k b s).tim = s.tim := by
  simp only [writeEvt, signal_tim, modMbx_tim]; split <;> rfl
@[simp] theorem writeEvt_lko (c k : Nat) (b : List Byte) : (writeEvt c k b s).lko = s.lko := by
  simp only [writeEvt, signal_lko, modMbx_lko]; split <;> rfl
@[simp] theorem writeEvt_md (c k : Nat) (b : List Byte) : (writeEvt c k b s).md = s.md := by
  simp only [writeEvt, signal_md, modMbx_md]; split <;> rfl
@[simp] theorem writeEvt_cmp (c k : Nat) (b : List Byte) : (writeEvt c k b s).cmp = s.cmp := by
  simp only [writeEvt, signal_cmp, modMbx_cmp]; split <;> rfl
@[simp] theorem writeEvt_link (c k : Nat) (b : List Byte) : (writeEvt c k b s).link = s.link := by
  simp only [writeEvt, signal_link, modMbx_link]; split <;> rfl
@[simp] theorem writeEvt_par (c k : Nat) (b : List Byte) : (writeEvt c k b s).par = s.par := by
  simp only [writeEvt, signal_par, modMbx_par]; split <;> rfl
@[simp] theorem writeEvt_cut (c k : Nat) (b : List Byte) : (writeEvt c k b s).cut = s.cut := by
  simp only [writeEvt, signal_cut, modMbx_cut]; split <;> rfl
@[simp] theorem writeEvt_em (c k : Nat) (b : List Byte) : (writeEvt c k b s).em = s.em := by
  simp only [writeEvt, signal_em, modMbx_em]; split <;> rfl
@[simp] theorem writeEvt_grv (c k : Nat) (b : List Byte) : (writeEvt c k b s).grv = s.grv := by
  simp only [writeEvt, signal_grv, modMbx_grv]; split <;> rfl
@[simp] theorem writeEvt_lnd (c k : Nat) (b : List Byte) : (writeEvt c k b s).lnd = s.lnd := by
  simp only [writeEvt, signal_lnd, modMbx_lnd]; split <;> rfl
@[simp] theorem writeEvt_buf (c k : Nat) (b : List Byte) : (writeEvt c k b s).buf = s.buf := by
  simp only [writeEvt, signal_buf, modMbx_buf]; split <;> rfl
@[simp] theorem writeEvt_krf (c k : Nat) (b : List Byte) : (writeEvt c k b s).krf = s.krf := by
  simp only [writeEvt, signal_krf, modMbx_krf]; split <;> rfl
@[simp] theorem writeEvt_sch (c k : Nat) (b : List Byte) : (writeEvt c k b s).sch = s.sch := by
  simp only [writeEvt, signal_sch, modMbx_sch]; split <;> rfl
@[simp] theorem writeEvt_dram (c k : Nat) (b : List Byte) : (writeEvt c k b s).dram = s.dram := by
  simp only [writeEvt, signal_dram, modMbx_dram]; split <;> rfl
@[simp] theorem writeEvt_cap (c k : Nat) (b : List Byte) : (writeEvt c k b s).cap = s.cap := by
  simp only [writeEvt, signal_cap, modMbx_cap]; split <;> rfl
@[simp] theorem writeEvt_ctr (c k : Nat) (b : List Byte) : (writeEvt c k b s).ctr = s.ctr := by
  simp only [writeEvt, signal_ctr, modMbx_ctr]; split <;> rfl
@[simp] theorem writeEvt_pair (c k : Nat) (b : List Byte) : (writeEvt c k b s).pair = s.pair := by
  simp only [writeEvt, signal_pair, modMbx_pair]; split <;> rfl
@[simp] theorem writeEvt_pwr (c k : Nat) (b : List Byte) : (writeEvt c k b s).pwr = s.pwr := by
  simp only [writeEvt, signal_pwr, modMbx_pwr]; split <;> rfl
@[simp] theorem writeEvt_saved (c k : Nat) (b : List Byte) : (writeEvt c k b s).saved = s.saved := by
  simp only [writeEvt, signal_saved, modMbx_saved]; split <;> rfl
@[simp] theorem writeEvt_snap (c k : Nat) (b : List Byte) : (writeEvt c k b s).snap = s.snap := by
  simp only [writeEvt, signal_snap, modMbx_snap]; split <;> rfl

/-! `flushLost` changes `host trust` alone. -/

@[simp] theorem flushLost_pending (c : Nat) : (flushLost c s).pending = s.pending := by
  simp only [flushLost]; split <;> simp
@[simp] theorem flushLost_variant (c : Nat) : (flushLost c s).variant = s.variant := by
  simp only [flushLost]; split <;> simp
@[simp] theorem flushLost_ring (c : Nat) : (flushLost c s).ring = s.ring := by
  simp only [flushLost]; split <;> simp
@[simp] theorem flushLost_clock (c : Nat) : (flushLost c s).clock = s.clock := by
  simp only [flushLost]; split <;> simp
@[simp] theorem flushLost_ran (c : Nat) : (flushLost c s).ran = s.ran := by
  simp only [flushLost]; split <;> simp
@[simp] theorem flushLost_freeCtr (c : Nat) : (flushLost c s).freeCtr = s.freeCtr := by
  simp only [flushLost]; split <;> simp
@[simp] theorem flushLost_items (c : Nat) : (flushLost c s).items = s.items := by
  simp only [flushLost]; split <;> simp
@[simp] theorem flushLost_tim (c : Nat) : (flushLost c s).tim = s.tim := by
  simp only [flushLost]; split <;> simp
@[simp] theorem flushLost_lko (c : Nat) : (flushLost c s).lko = s.lko := by
  simp only [flushLost]; split <;> simp
@[simp] theorem flushLost_md (c : Nat) : (flushLost c s).md = s.md := by
  simp only [flushLost]; split <;> simp
@[simp] theorem flushLost_cmp (c : Nat) : (flushLost c s).cmp = s.cmp := by
  simp only [flushLost]; split <;> simp
@[simp] theorem flushLost_link (c : Nat) : (flushLost c s).link = s.link := by
  simp only [flushLost]; split <;> simp
@[simp] theorem flushLost_par (c : Nat) : (flushLost c s).par = s.par := by
  simp only [flushLost]; split <;> simp
@[simp] theorem flushLost_cut (c : Nat) : (flushLost c s).cut = s.cut := by
  simp only [flushLost]; split <;> simp
@[simp] theorem flushLost_em (c : Nat) : (flushLost c s).em = s.em := by
  simp only [flushLost]; split <;> simp
@[simp] theorem flushLost_grv (c : Nat) : (flushLost c s).grv = s.grv := by
  simp only [flushLost]; split <;> simp
@[simp] theorem flushLost_lnd (c : Nat) : (flushLost c s).lnd = s.lnd := by
  simp only [flushLost]; split <;> simp
@[simp] theorem flushLost_buf (c : Nat) : (flushLost c s).buf = s.buf := by
  simp only [flushLost]; split <;> simp
@[simp] theorem flushLost_krf (c : Nat) : (flushLost c s).krf = s.krf := by
  simp only [flushLost]; split <;> simp
@[simp] theorem flushLost_sch (c : Nat) : (flushLost c s).sch = s.sch := by
  simp only [flushLost]; split <;> simp
@[simp] theorem flushLost_dram (c : Nat) : (flushLost c s).dram = s.dram := by
  simp only [flushLost]; split <;> simp
@[simp] theorem flushLost_cap (c : Nat) : (flushLost c s).cap = s.cap := by
  simp only [flushLost]; split <;> simp
@[simp] theorem flushLost_ctr (c : Nat) : (flushLost c s).ctr = s.ctr := by
  simp only [flushLost]; split <;> simp
@[simp] theorem flushLost_pair (c : Nat) : (flushLost c s).pair = s.pair := by
  simp only [flushLost]; split <;> simp
@[simp] theorem flushLost_pwr (c : Nat) : (flushLost c s).pwr = s.pwr := by
  simp only [flushLost]; split <;> simp
@[simp] theorem flushLost_saved (c : Nat) : (flushLost c s).saved = s.saved := by
  simp only [flushLost]; split <;> simp
@[simp] theorem flushLost_snap (c : Nat) : (flushLost c s).snap = s.snap := by
  simp only [flushLost]; split <;> simp

/-! `post` changes `host trust ctr` alone. -/

@[simp] theorem post_pending (c k : Nat) (b : List Byte) : (post c k b s).pending = s.pending := by
  simp only [post]; split <;> [rfl; (split <;> [rfl; (split <;> simp)])]
@[simp] theorem post_variant (c k : Nat) (b : List Byte) : (post c k b s).variant = s.variant := by
  simp only [post]; split <;> [rfl; (split <;> [rfl; (split <;> simp)])]
@[simp] theorem post_ring (c k : Nat) (b : List Byte) : (post c k b s).ring = s.ring := by
  simp only [post]; split <;> [rfl; (split <;> [rfl; (split <;> simp)])]
@[simp] theorem post_clock (c k : Nat) (b : List Byte) : (post c k b s).clock = s.clock := by
  simp only [post]; split <;> [rfl; (split <;> [rfl; (split <;> simp)])]
@[simp] theorem post_ran (c k : Nat) (b : List Byte) : (post c k b s).ran = s.ran := by
  simp only [post]; split <;> [rfl; (split <;> [rfl; (split <;> simp)])]
@[simp] theorem post_freeCtr (c k : Nat) (b : List Byte) : (post c k b s).freeCtr = s.freeCtr := by
  simp only [post]; split <;> [rfl; (split <;> [rfl; (split <;> simp)])]
@[simp] theorem post_items (c k : Nat) (b : List Byte) : (post c k b s).items = s.items := by
  simp only [post]; split <;> [rfl; (split <;> [rfl; (split <;> simp)])]
@[simp] theorem post_tim (c k : Nat) (b : List Byte) : (post c k b s).tim = s.tim := by
  simp only [post]; split <;> [rfl; (split <;> [rfl; (split <;> simp)])]
@[simp] theorem post_lko (c k : Nat) (b : List Byte) : (post c k b s).lko = s.lko := by
  simp only [post]; split <;> [rfl; (split <;> [rfl; (split <;> simp)])]
@[simp] theorem post_md (c k : Nat) (b : List Byte) : (post c k b s).md = s.md := by
  simp only [post]; split <;> [rfl; (split <;> [rfl; (split <;> simp)])]
@[simp] theorem post_cmp (c k : Nat) (b : List Byte) : (post c k b s).cmp = s.cmp := by
  simp only [post]; split <;> [rfl; (split <;> [rfl; (split <;> simp)])]
@[simp] theorem post_link (c k : Nat) (b : List Byte) : (post c k b s).link = s.link := by
  simp only [post]; split <;> [rfl; (split <;> [rfl; (split <;> simp)])]
@[simp] theorem post_par (c k : Nat) (b : List Byte) : (post c k b s).par = s.par := by
  simp only [post]; split <;> [rfl; (split <;> [rfl; (split <;> simp)])]
@[simp] theorem post_cut (c k : Nat) (b : List Byte) : (post c k b s).cut = s.cut := by
  simp only [post]; split <;> [rfl; (split <;> [rfl; (split <;> simp)])]
@[simp] theorem post_em (c k : Nat) (b : List Byte) : (post c k b s).em = s.em := by
  simp only [post]; split <;> [rfl; (split <;> [rfl; (split <;> simp)])]
@[simp] theorem post_grv (c k : Nat) (b : List Byte) : (post c k b s).grv = s.grv := by
  simp only [post]; split <;> [rfl; (split <;> [rfl; (split <;> simp)])]
@[simp] theorem post_lnd (c k : Nat) (b : List Byte) : (post c k b s).lnd = s.lnd := by
  simp only [post]; split <;> [rfl; (split <;> [rfl; (split <;> simp)])]
@[simp] theorem post_buf (c k : Nat) (b : List Byte) : (post c k b s).buf = s.buf := by
  simp only [post]; split <;> [rfl; (split <;> [rfl; (split <;> simp)])]
@[simp] theorem post_krf (c k : Nat) (b : List Byte) : (post c k b s).krf = s.krf := by
  simp only [post]; split <;> [rfl; (split <;> [rfl; (split <;> simp)])]
@[simp] theorem post_sch (c k : Nat) (b : List Byte) : (post c k b s).sch = s.sch := by
  simp only [post]; split <;> [rfl; (split <;> [rfl; (split <;> simp)])]
@[simp] theorem post_dram (c k : Nat) (b : List Byte) : (post c k b s).dram = s.dram := by
  simp only [post]; split <;> [rfl; (split <;> [rfl; (split <;> simp)])]
@[simp] theorem post_cap (c k : Nat) (b : List Byte) : (post c k b s).cap = s.cap := by
  simp only [post]; split <;> [rfl; (split <;> [rfl; (split <;> simp)])]
@[simp] theorem post_pair (c k : Nat) (b : List Byte) : (post c k b s).pair = s.pair := by
  simp only [post]; split <;> [rfl; (split <;> [rfl; (split <;> simp)])]
@[simp] theorem post_pwr (c k : Nat) (b : List Byte) : (post c k b s).pwr = s.pwr := by
  simp only [post]; split <;> [rfl; (split <;> [rfl; (split <;> simp)])]
@[simp] theorem post_saved (c k : Nat) (b : List Byte) : (post c k b s).saved = s.saved := by
  simp only [post]; split <;> [rfl; (split <;> [rfl; (split <;> simp)])]
@[simp] theorem post_snap (c k : Nat) (b : List Byte) : (post c k b s).snap = s.snap := by
  simp only [post]; split <;> [rfl; (split <;> [rfl; (split <;> simp)])]

/-! `postTo` changes `host trust ctr` alone. -/

@[simp] theorem postTo_pending (l : List Nat) (k : Nat) (b : List Byte) : (postTo l k b s).pending = s.pending := by
  exact foldS_keeps s State.pending _ (fun c t => post_pending t c k b) l
@[simp] theorem postTo_variant (l : List Nat) (k : Nat) (b : List Byte) : (postTo l k b s).variant = s.variant := by
  exact foldS_keeps s State.variant _ (fun c t => post_variant t c k b) l
@[simp] theorem postTo_ring (l : List Nat) (k : Nat) (b : List Byte) : (postTo l k b s).ring = s.ring := by
  exact foldS_keeps s State.ring _ (fun c t => post_ring t c k b) l
@[simp] theorem postTo_clock (l : List Nat) (k : Nat) (b : List Byte) : (postTo l k b s).clock = s.clock := by
  exact foldS_keeps s State.clock _ (fun c t => post_clock t c k b) l
@[simp] theorem postTo_ran (l : List Nat) (k : Nat) (b : List Byte) : (postTo l k b s).ran = s.ran := by
  exact foldS_keeps s State.ran _ (fun c t => post_ran t c k b) l
@[simp] theorem postTo_freeCtr (l : List Nat) (k : Nat) (b : List Byte) : (postTo l k b s).freeCtr = s.freeCtr := by
  exact foldS_keeps s State.freeCtr _ (fun c t => post_freeCtr t c k b) l
@[simp] theorem postTo_items (l : List Nat) (k : Nat) (b : List Byte) : (postTo l k b s).items = s.items := by
  exact foldS_keeps s State.items _ (fun c t => post_items t c k b) l
@[simp] theorem postTo_tim (l : List Nat) (k : Nat) (b : List Byte) : (postTo l k b s).tim = s.tim := by
  exact foldS_keeps s State.tim _ (fun c t => post_tim t c k b) l
@[simp] theorem postTo_lko (l : List Nat) (k : Nat) (b : List Byte) : (postTo l k b s).lko = s.lko := by
  exact foldS_keeps s State.lko _ (fun c t => post_lko t c k b) l
@[simp] theorem postTo_md (l : List Nat) (k : Nat) (b : List Byte) : (postTo l k b s).md = s.md := by
  exact foldS_keeps s State.md _ (fun c t => post_md t c k b) l
@[simp] theorem postTo_cmp (l : List Nat) (k : Nat) (b : List Byte) : (postTo l k b s).cmp = s.cmp := by
  exact foldS_keeps s State.cmp _ (fun c t => post_cmp t c k b) l
@[simp] theorem postTo_link (l : List Nat) (k : Nat) (b : List Byte) : (postTo l k b s).link = s.link := by
  exact foldS_keeps s State.link _ (fun c t => post_link t c k b) l
@[simp] theorem postTo_par (l : List Nat) (k : Nat) (b : List Byte) : (postTo l k b s).par = s.par := by
  exact foldS_keeps s State.par _ (fun c t => post_par t c k b) l
@[simp] theorem postTo_cut (l : List Nat) (k : Nat) (b : List Byte) : (postTo l k b s).cut = s.cut := by
  exact foldS_keeps s State.cut _ (fun c t => post_cut t c k b) l
@[simp] theorem postTo_em (l : List Nat) (k : Nat) (b : List Byte) : (postTo l k b s).em = s.em := by
  exact foldS_keeps s State.em _ (fun c t => post_em t c k b) l
@[simp] theorem postTo_grv (l : List Nat) (k : Nat) (b : List Byte) : (postTo l k b s).grv = s.grv := by
  exact foldS_keeps s State.grv _ (fun c t => post_grv t c k b) l
@[simp] theorem postTo_lnd (l : List Nat) (k : Nat) (b : List Byte) : (postTo l k b s).lnd = s.lnd := by
  exact foldS_keeps s State.lnd _ (fun c t => post_lnd t c k b) l
@[simp] theorem postTo_buf (l : List Nat) (k : Nat) (b : List Byte) : (postTo l k b s).buf = s.buf := by
  exact foldS_keeps s State.buf _ (fun c t => post_buf t c k b) l
@[simp] theorem postTo_krf (l : List Nat) (k : Nat) (b : List Byte) : (postTo l k b s).krf = s.krf := by
  exact foldS_keeps s State.krf _ (fun c t => post_krf t c k b) l
@[simp] theorem postTo_sch (l : List Nat) (k : Nat) (b : List Byte) : (postTo l k b s).sch = s.sch := by
  exact foldS_keeps s State.sch _ (fun c t => post_sch t c k b) l
@[simp] theorem postTo_dram (l : List Nat) (k : Nat) (b : List Byte) : (postTo l k b s).dram = s.dram := by
  exact foldS_keeps s State.dram _ (fun c t => post_dram t c k b) l
@[simp] theorem postTo_cap (l : List Nat) (k : Nat) (b : List Byte) : (postTo l k b s).cap = s.cap := by
  exact foldS_keeps s State.cap _ (fun c t => post_cap t c k b) l
@[simp] theorem postTo_pair (l : List Nat) (k : Nat) (b : List Byte) : (postTo l k b s).pair = s.pair := by
  exact foldS_keeps s State.pair _ (fun c t => post_pair t c k b) l
@[simp] theorem postTo_pwr (l : List Nat) (k : Nat) (b : List Byte) : (postTo l k b s).pwr = s.pwr := by
  exact foldS_keeps s State.pwr _ (fun c t => post_pwr t c k b) l
@[simp] theorem postTo_saved (l : List Nat) (k : Nat) (b : List Byte) : (postTo l k b s).saved = s.saved := by
  exact foldS_keeps s State.saved _ (fun c t => post_saved t c k b) l
@[simp] theorem postTo_snap (l : List Nat) (k : Nat) (b : List Byte) : (postTo l k b s).snap = s.snap := by
  exact foldS_keeps s State.snap _ (fun c t => post_snap t c k b) l

/-! `newRec` changes `lko ctr` alone. -/

@[simp] theorem newRec_pending (a u k c e : Nat) (d : List Nat) : (newRec a u k c e d s).pending = s.pending := by
  simp only [newRec]; split <;> rfl
@[simp] theorem newRec_variant (a u k c e : Nat) (d : List Nat) : (newRec a u k c e d s).variant = s.variant := by
  simp only [newRec]; split <;> rfl
@[simp] theorem newRec_ring (a u k c e : Nat) (d : List Nat) : (newRec a u k c e d s).ring = s.ring := by
  simp only [newRec]; split <;> rfl
@[simp] theorem newRec_clock (a u k c e : Nat) (d : List Nat) : (newRec a u k c e d s).clock = s.clock := by
  simp only [newRec]; split <;> rfl
@[simp] theorem newRec_ran (a u k c e : Nat) (d : List Nat) : (newRec a u k c e d s).ran = s.ran := by
  simp only [newRec]; split <;> rfl
@[simp] theorem newRec_freeCtr (a u k c e : Nat) (d : List Nat) : (newRec a u k c e d s).freeCtr = s.freeCtr := by
  simp only [newRec]; split <;> rfl
@[simp] theorem newRec_items (a u k c e : Nat) (d : List Nat) : (newRec a u k c e d s).items = s.items := by
  simp only [newRec]; split <;> rfl
@[simp] theorem newRec_tim (a u k c e : Nat) (d : List Nat) : (newRec a u k c e d s).tim = s.tim := by
  simp only [newRec]; split <;> rfl
@[simp] theorem newRec_host (a u k c e : Nat) (d : List Nat) : (newRec a u k c e d s).host = s.host := by
  simp only [newRec]; split <;> rfl
@[simp] theorem newRec_md (a u k c e : Nat) (d : List Nat) : (newRec a u k c e d s).md = s.md := by
  simp only [newRec]; split <;> rfl
@[simp] theorem newRec_cmp (a u k c e : Nat) (d : List Nat) : (newRec a u k c e d s).cmp = s.cmp := by
  simp only [newRec]; split <;> rfl
@[simp] theorem newRec_trust (a u k c e : Nat) (d : List Nat) : (newRec a u k c e d s).trust = s.trust := by
  simp only [newRec]; split <;> rfl
@[simp] theorem newRec_link (a u k c e : Nat) (d : List Nat) : (newRec a u k c e d s).link = s.link := by
  simp only [newRec]; split <;> rfl
@[simp] theorem newRec_par (a u k c e : Nat) (d : List Nat) : (newRec a u k c e d s).par = s.par := by
  simp only [newRec]; split <;> rfl
@[simp] theorem newRec_cut (a u k c e : Nat) (d : List Nat) : (newRec a u k c e d s).cut = s.cut := by
  simp only [newRec]; split <;> rfl
@[simp] theorem newRec_em (a u k c e : Nat) (d : List Nat) : (newRec a u k c e d s).em = s.em := by
  simp only [newRec]; split <;> rfl
@[simp] theorem newRec_grv (a u k c e : Nat) (d : List Nat) : (newRec a u k c e d s).grv = s.grv := by
  simp only [newRec]; split <;> rfl
@[simp] theorem newRec_lnd (a u k c e : Nat) (d : List Nat) : (newRec a u k c e d s).lnd = s.lnd := by
  simp only [newRec]; split <;> rfl
@[simp] theorem newRec_buf (a u k c e : Nat) (d : List Nat) : (newRec a u k c e d s).buf = s.buf := by
  simp only [newRec]; split <;> rfl
@[simp] theorem newRec_krf (a u k c e : Nat) (d : List Nat) : (newRec a u k c e d s).krf = s.krf := by
  simp only [newRec]; split <;> rfl
@[simp] theorem newRec_sch (a u k c e : Nat) (d : List Nat) : (newRec a u k c e d s).sch = s.sch := by
  simp only [newRec]; split <;> rfl
@[simp] theorem newRec_dram (a u k c e : Nat) (d : List Nat) : (newRec a u k c e d s).dram = s.dram := by
  simp only [newRec]; split <;> rfl
@[simp] theorem newRec_cap (a u k c e : Nat) (d : List Nat) : (newRec a u k c e d s).cap = s.cap := by
  simp only [newRec]; split <;> rfl
@[simp] theorem newRec_pair (a u k c e : Nat) (d : List Nat) : (newRec a u k c e d s).pair = s.pair := by
  simp only [newRec]; split <;> rfl
@[simp] theorem newRec_pwr (a u k c e : Nat) (d : List Nat) : (newRec a u k c e d s).pwr = s.pwr := by
  simp only [newRec]; split <;> rfl
@[simp] theorem newRec_saved (a u k c e : Nat) (d : List Nat) : (newRec a u k c e d s).saved = s.saved := by
  simp only [newRec]; split <;> rfl
@[simp] theorem newRec_snap (a u k c e : Nat) (d : List Nat) : (newRec a u k c e d s).snap = s.snap := by
  simp only [newRec]; split <;> rfl

/-! `note` changes `lko ctr` alone. -/

@[simp] theorem note_pending (u k c : Nat) (d : List Nat) : (note u k c d s).pending = s.pending := by
  simp only [note]; split <;> simp
@[simp] theorem note_variant (u k c : Nat) (d : List Nat) : (note u k c d s).variant = s.variant := by
  simp only [note]; split <;> simp
@[simp] theorem note_ring (u k c : Nat) (d : List Nat) : (note u k c d s).ring = s.ring := by
  simp only [note]; split <;> simp
@[simp] theorem note_clock (u k c : Nat) (d : List Nat) : (note u k c d s).clock = s.clock := by
  simp only [note]; split <;> simp
@[simp] theorem note_ran (u k c : Nat) (d : List Nat) : (note u k c d s).ran = s.ran := by
  simp only [note]; split <;> simp
@[simp] theorem note_freeCtr (u k c : Nat) (d : List Nat) : (note u k c d s).freeCtr = s.freeCtr := by
  simp only [note]; split <;> simp
@[simp] theorem note_items (u k c : Nat) (d : List Nat) : (note u k c d s).items = s.items := by
  simp only [note]; split <;> simp
@[simp] theorem note_tim (u k c : Nat) (d : List Nat) : (note u k c d s).tim = s.tim := by
  simp only [note]; split <;> simp
@[simp] theorem note_host (u k c : Nat) (d : List Nat) : (note u k c d s).host = s.host := by
  simp only [note]; split <;> simp
@[simp] theorem note_md (u k c : Nat) (d : List Nat) : (note u k c d s).md = s.md := by
  simp only [note]; split <;> simp
@[simp] theorem note_cmp (u k c : Nat) (d : List Nat) : (note u k c d s).cmp = s.cmp := by
  simp only [note]; split <;> simp
@[simp] theorem note_trust (u k c : Nat) (d : List Nat) : (note u k c d s).trust = s.trust := by
  simp only [note]; split <;> simp
@[simp] theorem note_link (u k c : Nat) (d : List Nat) : (note u k c d s).link = s.link := by
  simp only [note]; split <;> simp
@[simp] theorem note_par (u k c : Nat) (d : List Nat) : (note u k c d s).par = s.par := by
  simp only [note]; split <;> simp
@[simp] theorem note_cut (u k c : Nat) (d : List Nat) : (note u k c d s).cut = s.cut := by
  simp only [note]; split <;> simp
@[simp] theorem note_em (u k c : Nat) (d : List Nat) : (note u k c d s).em = s.em := by
  simp only [note]; split <;> simp
@[simp] theorem note_grv (u k c : Nat) (d : List Nat) : (note u k c d s).grv = s.grv := by
  simp only [note]; split <;> simp
@[simp] theorem note_lnd (u k c : Nat) (d : List Nat) : (note u k c d s).lnd = s.lnd := by
  simp only [note]; split <;> simp
@[simp] theorem note_buf (u k c : Nat) (d : List Nat) : (note u k c d s).buf = s.buf := by
  simp only [note]; split <;> simp
@[simp] theorem note_krf (u k c : Nat) (d : List Nat) : (note u k c d s).krf = s.krf := by
  simp only [note]; split <;> simp
@[simp] theorem note_sch (u k c : Nat) (d : List Nat) : (note u k c d s).sch = s.sch := by
  simp only [note]; split <;> simp
@[simp] theorem note_dram (u k c : Nat) (d : List Nat) : (note u k c d s).dram = s.dram := by
  simp only [note]; split <;> simp
@[simp] theorem note_cap (u k c : Nat) (d : List Nat) : (note u k c d s).cap = s.cap := by
  simp only [note]; split <;> simp
@[simp] theorem note_pair (u k c : Nat) (d : List Nat) : (note u k c d s).pair = s.pair := by
  simp only [note]; split <;> simp
@[simp] theorem note_pwr (u k c : Nat) (d : List Nat) : (note u k c d s).pwr = s.pwr := by
  simp only [note]; split <;> simp
@[simp] theorem note_saved (u k c : Nat) (d : List Nat) : (note u k c d s).saved = s.saved := by
  simp only [note]; split <;> simp
@[simp] theorem note_snap (u k c : Nat) (d : List Nat) : (note u k c d s).snap = s.snap := by
  simp only [note]; split <;> simp

/-! `restartFault` changes `lko ctr host` alone. -/

@[simp] theorem restartFault_pending (u k c : Nat) (d : List Nat) : (restartFault u k c d s).pending = s.pending := by
  simp [restartFault]
@[simp] theorem restartFault_variant (u k c : Nat) (d : List Nat) : (restartFault u k c d s).variant = s.variant := by
  simp [restartFault]
@[simp] theorem restartFault_ring (u k c : Nat) (d : List Nat) : (restartFault u k c d s).ring = s.ring := by
  simp [restartFault]
@[simp] theorem restartFault_clock (u k c : Nat) (d : List Nat) : (restartFault u k c d s).clock = s.clock := by
  simp [restartFault]
@[simp] theorem restartFault_ran (u k c : Nat) (d : List Nat) : (restartFault u k c d s).ran = s.ran := by
  simp [restartFault]
@[simp] theorem restartFault_freeCtr (u k c : Nat) (d : List Nat) : (restartFault u k c d s).freeCtr = s.freeCtr := by
  simp [restartFault]
@[simp] theorem restartFault_items (u k c : Nat) (d : List Nat) : (restartFault u k c d s).items = s.items := by
  simp [restartFault]
@[simp] theorem restartFault_tim (u k c : Nat) (d : List Nat) : (restartFault u k c d s).tim = s.tim := by
  simp [restartFault]
@[simp] theorem restartFault_md (u k c : Nat) (d : List Nat) : (restartFault u k c d s).md = s.md := by
  simp [restartFault]
@[simp] theorem restartFault_cmp (u k c : Nat) (d : List Nat) : (restartFault u k c d s).cmp = s.cmp := by
  simp [restartFault]
@[simp] theorem restartFault_trust (u k c : Nat) (d : List Nat) : (restartFault u k c d s).trust = s.trust := by
  simp [restartFault]
@[simp] theorem restartFault_link (u k c : Nat) (d : List Nat) : (restartFault u k c d s).link = s.link := by
  simp [restartFault]
@[simp] theorem restartFault_par (u k c : Nat) (d : List Nat) : (restartFault u k c d s).par = s.par := by
  simp [restartFault]
@[simp] theorem restartFault_cut (u k c : Nat) (d : List Nat) : (restartFault u k c d s).cut = s.cut := by
  simp [restartFault]
@[simp] theorem restartFault_em (u k c : Nat) (d : List Nat) : (restartFault u k c d s).em = s.em := by
  simp [restartFault]
@[simp] theorem restartFault_grv (u k c : Nat) (d : List Nat) : (restartFault u k c d s).grv = s.grv := by
  simp [restartFault]
@[simp] theorem restartFault_lnd (u k c : Nat) (d : List Nat) : (restartFault u k c d s).lnd = s.lnd := by
  simp [restartFault]
@[simp] theorem restartFault_buf (u k c : Nat) (d : List Nat) : (restartFault u k c d s).buf = s.buf := by
  simp [restartFault]
@[simp] theorem restartFault_krf (u k c : Nat) (d : List Nat) : (restartFault u k c d s).krf = s.krf := by
  simp [restartFault]
@[simp] theorem restartFault_sch (u k c : Nat) (d : List Nat) : (restartFault u k c d s).sch = s.sch := by
  simp [restartFault]
@[simp] theorem restartFault_dram (u k c : Nat) (d : List Nat) : (restartFault u k c d s).dram = s.dram := by
  simp [restartFault]
@[simp] theorem restartFault_cap (u k c : Nat) (d : List Nat) : (restartFault u k c d s).cap = s.cap := by
  simp [restartFault]
@[simp] theorem restartFault_pair (u k c : Nat) (d : List Nat) : (restartFault u k c d s).pair = s.pair := by
  simp [restartFault]
@[simp] theorem restartFault_pwr (u k c : Nat) (d : List Nat) : (restartFault u k c d s).pwr = s.pwr := by
  simp [restartFault]
@[simp] theorem restartFault_saved (u k c : Nat) (d : List Nat) : (restartFault u k c d s).saved = s.saved := by
  simp [restartFault]
@[simp] theorem restartFault_snap (u k c : Nat) (d : List Nat) : (restartFault u k c d s).snap = s.snap := by
  simp [restartFault]

/-! `fenceFault` changes `lko ctr host` alone. -/

@[simp] theorem fenceFault_pending (u k c : Nat) (d : List Nat) : (fenceFault u k c d s).pending = s.pending := by
  simp only [fenceFault]; split <;> [simp; (split <;> simp)]
@[simp] theorem fenceFault_variant (u k c : Nat) (d : List Nat) : (fenceFault u k c d s).variant = s.variant := by
  simp only [fenceFault]; split <;> [simp; (split <;> simp)]
@[simp] theorem fenceFault_ring (u k c : Nat) (d : List Nat) : (fenceFault u k c d s).ring = s.ring := by
  simp only [fenceFault]; split <;> [simp; (split <;> simp)]
@[simp] theorem fenceFault_clock (u k c : Nat) (d : List Nat) : (fenceFault u k c d s).clock = s.clock := by
  simp only [fenceFault]; split <;> [simp; (split <;> simp)]
@[simp] theorem fenceFault_ran (u k c : Nat) (d : List Nat) : (fenceFault u k c d s).ran = s.ran := by
  simp only [fenceFault]; split <;> [simp; (split <;> simp)]
@[simp] theorem fenceFault_freeCtr (u k c : Nat) (d : List Nat) : (fenceFault u k c d s).freeCtr = s.freeCtr := by
  simp only [fenceFault]; split <;> [simp; (split <;> simp)]
@[simp] theorem fenceFault_items (u k c : Nat) (d : List Nat) : (fenceFault u k c d s).items = s.items := by
  simp only [fenceFault]; split <;> [simp; (split <;> simp)]
@[simp] theorem fenceFault_tim (u k c : Nat) (d : List Nat) : (fenceFault u k c d s).tim = s.tim := by
  simp only [fenceFault]; split <;> [simp; (split <;> simp)]
@[simp] theorem fenceFault_md (u k c : Nat) (d : List Nat) : (fenceFault u k c d s).md = s.md := by
  simp only [fenceFault]; split <;> [simp; (split <;> simp)]
@[simp] theorem fenceFault_cmp (u k c : Nat) (d : List Nat) : (fenceFault u k c d s).cmp = s.cmp := by
  simp only [fenceFault]; split <;> [simp; (split <;> simp)]
@[simp] theorem fenceFault_trust (u k c : Nat) (d : List Nat) : (fenceFault u k c d s).trust = s.trust := by
  simp only [fenceFault]; split <;> [simp; (split <;> simp)]
@[simp] theorem fenceFault_link (u k c : Nat) (d : List Nat) : (fenceFault u k c d s).link = s.link := by
  simp only [fenceFault]; split <;> [simp; (split <;> simp)]
@[simp] theorem fenceFault_par (u k c : Nat) (d : List Nat) : (fenceFault u k c d s).par = s.par := by
  simp only [fenceFault]; split <;> [simp; (split <;> simp)]
@[simp] theorem fenceFault_cut (u k c : Nat) (d : List Nat) : (fenceFault u k c d s).cut = s.cut := by
  simp only [fenceFault]; split <;> [simp; (split <;> simp)]
@[simp] theorem fenceFault_em (u k c : Nat) (d : List Nat) : (fenceFault u k c d s).em = s.em := by
  simp only [fenceFault]; split <;> [simp; (split <;> simp)]
@[simp] theorem fenceFault_grv (u k c : Nat) (d : List Nat) : (fenceFault u k c d s).grv = s.grv := by
  simp only [fenceFault]; split <;> [simp; (split <;> simp)]
@[simp] theorem fenceFault_lnd (u k c : Nat) (d : List Nat) : (fenceFault u k c d s).lnd = s.lnd := by
  simp only [fenceFault]; split <;> [simp; (split <;> simp)]
@[simp] theorem fenceFault_buf (u k c : Nat) (d : List Nat) : (fenceFault u k c d s).buf = s.buf := by
  simp only [fenceFault]; split <;> [simp; (split <;> simp)]
@[simp] theorem fenceFault_krf (u k c : Nat) (d : List Nat) : (fenceFault u k c d s).krf = s.krf := by
  simp only [fenceFault]; split <;> [simp; (split <;> simp)]
@[simp] theorem fenceFault_sch (u k c : Nat) (d : List Nat) : (fenceFault u k c d s).sch = s.sch := by
  simp only [fenceFault]; split <;> [simp; (split <;> simp)]
@[simp] theorem fenceFault_dram (u k c : Nat) (d : List Nat) : (fenceFault u k c d s).dram = s.dram := by
  simp only [fenceFault]; split <;> [simp; (split <;> simp)]
@[simp] theorem fenceFault_cap (u k c : Nat) (d : List Nat) : (fenceFault u k c d s).cap = s.cap := by
  simp only [fenceFault]; split <;> [simp; (split <;> simp)]
@[simp] theorem fenceFault_pair (u k c : Nat) (d : List Nat) : (fenceFault u k c d s).pair = s.pair := by
  simp only [fenceFault]; split <;> [simp; (split <;> simp)]
@[simp] theorem fenceFault_pwr (u k c : Nat) (d : List Nat) : (fenceFault u k c d s).pwr = s.pwr := by
  simp only [fenceFault]; split <;> [simp; (split <;> simp)]
@[simp] theorem fenceFault_saved (u k c : Nat) (d : List Nat) : (fenceFault u k c d s).saved = s.saved := by
  simp only [fenceFault]; split <;> [simp; (split <;> simp)]
@[simp] theorem fenceFault_snap (u k c : Nat) (d : List Nat) : (fenceFault u k c d s).snap = s.snap := by
  simp only [fenceFault]; split <;> [simp; (split <;> simp)]

/-! `haltFault` changes `lko ctr md trust link items` alone. -/

@[simp] theorem haltFault_pending (u k c : Nat) (d : List Nat) : (haltFault u k c d s).pending = s.pending := by
  simp [haltFault, enterHalted, zeroiseKeys]
@[simp] theorem haltFault_variant (u k c : Nat) (d : List Nat) : (haltFault u k c d s).variant = s.variant := by
  simp [haltFault, enterHalted, zeroiseKeys]
@[simp] theorem haltFault_ring (u k c : Nat) (d : List Nat) : (haltFault u k c d s).ring = s.ring := by
  simp [haltFault, enterHalted, zeroiseKeys]
@[simp] theorem haltFault_clock (u k c : Nat) (d : List Nat) : (haltFault u k c d s).clock = s.clock := by
  simp [haltFault, enterHalted, zeroiseKeys]
@[simp] theorem haltFault_ran (u k c : Nat) (d : List Nat) : (haltFault u k c d s).ran = s.ran := by
  simp [haltFault, enterHalted, zeroiseKeys]
@[simp] theorem haltFault_freeCtr (u k c : Nat) (d : List Nat) : (haltFault u k c d s).freeCtr = s.freeCtr := by
  simp [haltFault, enterHalted, zeroiseKeys]
@[simp] theorem haltFault_tim (u k c : Nat) (d : List Nat) : (haltFault u k c d s).tim = s.tim := by
  simp [haltFault, enterHalted, zeroiseKeys]
@[simp] theorem haltFault_host (u k c : Nat) (d : List Nat) : (haltFault u k c d s).host = s.host := by
  simp [haltFault, enterHalted, zeroiseKeys]
@[simp] theorem haltFault_cmp (u k c : Nat) (d : List Nat) : (haltFault u k c d s).cmp = s.cmp := by
  simp [haltFault, enterHalted, zeroiseKeys]
@[simp] theorem haltFault_par (u k c : Nat) (d : List Nat) : (haltFault u k c d s).par = s.par := by
  simp [haltFault, enterHalted, zeroiseKeys]
@[simp] theorem haltFault_cut (u k c : Nat) (d : List Nat) : (haltFault u k c d s).cut = s.cut := by
  simp [haltFault, enterHalted, zeroiseKeys]
@[simp] theorem haltFault_em (u k c : Nat) (d : List Nat) : (haltFault u k c d s).em = s.em := by
  simp [haltFault, enterHalted, zeroiseKeys]
@[simp] theorem haltFault_grv (u k c : Nat) (d : List Nat) : (haltFault u k c d s).grv = s.grv := by
  simp [haltFault, enterHalted, zeroiseKeys]
@[simp] theorem haltFault_lnd (u k c : Nat) (d : List Nat) : (haltFault u k c d s).lnd = s.lnd := by
  simp [haltFault, enterHalted, zeroiseKeys]
@[simp] theorem haltFault_buf (u k c : Nat) (d : List Nat) : (haltFault u k c d s).buf = s.buf := by
  simp [haltFault, enterHalted, zeroiseKeys]
@[simp] theorem haltFault_krf (u k c : Nat) (d : List Nat) : (haltFault u k c d s).krf = s.krf := by
  simp [haltFault, enterHalted, zeroiseKeys]
@[simp] theorem haltFault_sch (u k c : Nat) (d : List Nat) : (haltFault u k c d s).sch = s.sch := by
  simp [haltFault, enterHalted, zeroiseKeys]
@[simp] theorem haltFault_dram (u k c : Nat) (d : List Nat) : (haltFault u k c d s).dram = s.dram := by
  simp [haltFault, enterHalted, zeroiseKeys]
@[simp] theorem haltFault_cap (u k c : Nat) (d : List Nat) : (haltFault u k c d s).cap = s.cap := by
  simp [haltFault, enterHalted, zeroiseKeys]
@[simp] theorem haltFault_pair (u k c : Nat) (d : List Nat) : (haltFault u k c d s).pair = s.pair := by
  simp [haltFault, enterHalted, zeroiseKeys]
@[simp] theorem haltFault_pwr (u k c : Nat) (d : List Nat) : (haltFault u k c d s).pwr = s.pwr := by
  simp [haltFault, enterHalted, zeroiseKeys]
@[simp] theorem haltFault_saved (u k c : Nat) (d : List Nat) : (haltFault u k c d s).saved = s.saved := by
  simp [haltFault, enterHalted, zeroiseKeys]
@[simp] theorem haltFault_snap (u k c : Nat) (d : List Nat) : (haltFault u k c d s).snap = s.snap := by
  simp [haltFault, enterHalted, zeroiseKeys]

/-! `windowCount` changes `lko ctr host` alone. -/

@[simp] theorem windowCount_pending (u a b : Nat) : (windowCount u a b s).pending = s.pending := by
  simp only [windowCount]; split <;> simp
@[simp] theorem windowCount_variant (u a b : Nat) : (windowCount u a b s).variant = s.variant := by
  simp only [windowCount]; split <;> simp
@[simp] theorem windowCount_ring (u a b : Nat) : (windowCount u a b s).ring = s.ring := by
  simp only [windowCount]; split <;> simp
@[simp] theorem windowCount_clock (u a b : Nat) : (windowCount u a b s).clock = s.clock := by
  simp only [windowCount]; split <;> simp
@[simp] theorem windowCount_ran (u a b : Nat) : (windowCount u a b s).ran = s.ran := by
  simp only [windowCount]; split <;> simp
@[simp] theorem windowCount_freeCtr (u a b : Nat) : (windowCount u a b s).freeCtr = s.freeCtr := by
  simp only [windowCount]; split <;> simp
@[simp] theorem windowCount_items (u a b : Nat) : (windowCount u a b s).items = s.items := by
  simp only [windowCount]; split <;> simp
@[simp] theorem windowCount_tim (u a b : Nat) : (windowCount u a b s).tim = s.tim := by
  simp only [windowCount]; split <;> simp
@[simp] theorem windowCount_md (u a b : Nat) : (windowCount u a b s).md = s.md := by
  simp only [windowCount]; split <;> simp
@[simp] theorem windowCount_cmp (u a b : Nat) : (windowCount u a b s).cmp = s.cmp := by
  simp only [windowCount]; split <;> simp
@[simp] theorem windowCount_trust (u a b : Nat) : (windowCount u a b s).trust = s.trust := by
  simp only [windowCount]; split <;> simp
@[simp] theorem windowCount_link (u a b : Nat) : (windowCount u a b s).link = s.link := by
  simp only [windowCount]; split <;> simp
@[simp] theorem windowCount_par (u a b : Nat) : (windowCount u a b s).par = s.par := by
  simp only [windowCount]; split <;> simp
@[simp] theorem windowCount_cut (u a b : Nat) : (windowCount u a b s).cut = s.cut := by
  simp only [windowCount]; split <;> simp
@[simp] theorem windowCount_em (u a b : Nat) : (windowCount u a b s).em = s.em := by
  simp only [windowCount]; split <;> simp
@[simp] theorem windowCount_grv (u a b : Nat) : (windowCount u a b s).grv = s.grv := by
  simp only [windowCount]; split <;> simp
@[simp] theorem windowCount_lnd (u a b : Nat) : (windowCount u a b s).lnd = s.lnd := by
  simp only [windowCount]; split <;> simp
@[simp] theorem windowCount_buf (u a b : Nat) : (windowCount u a b s).buf = s.buf := by
  simp only [windowCount]; split <;> simp
@[simp] theorem windowCount_krf (u a b : Nat) : (windowCount u a b s).krf = s.krf := by
  simp only [windowCount]; split <;> simp
@[simp] theorem windowCount_sch (u a b : Nat) : (windowCount u a b s).sch = s.sch := by
  simp only [windowCount]; split <;> simp
@[simp] theorem windowCount_dram (u a b : Nat) : (windowCount u a b s).dram = s.dram := by
  simp only [windowCount]; split <;> simp
@[simp] theorem windowCount_cap (u a b : Nat) : (windowCount u a b s).cap = s.cap := by
  simp only [windowCount]; split <;> simp
@[simp] theorem windowCount_pair (u a b : Nat) : (windowCount u a b s).pair = s.pair := by
  simp only [windowCount]; split <;> simp
@[simp] theorem windowCount_pwr (u a b : Nat) : (windowCount u a b s).pwr = s.pwr := by
  simp only [windowCount]; split <;> simp
@[simp] theorem windowCount_saved (u a b : Nat) : (windowCount u a b s).saved = s.saved := by
  simp only [windowCount]; split <;> simp
@[simp] theorem windowCount_snap (u a b : Nat) : (windowCount u a b s).snap = s.snap := by
  simp only [windowCount]; split <;> simp

/-! `writeRsp` changes `host lko` alone. -/

@[simp] theorem writeRsp_pending (c : Nat) (x : Slot) : (writeRsp c x s).pending = s.pending := by
  simp only [writeRsp]; split <;> simp
@[simp] theorem writeRsp_variant (c : Nat) (x : Slot) : (writeRsp c x s).variant = s.variant := by
  simp only [writeRsp]; split <;> simp
@[simp] theorem writeRsp_ring (c : Nat) (x : Slot) : (writeRsp c x s).ring = s.ring := by
  simp only [writeRsp]; split <;> simp
@[simp] theorem writeRsp_clock (c : Nat) (x : Slot) : (writeRsp c x s).clock = s.clock := by
  simp only [writeRsp]; split <;> simp
@[simp] theorem writeRsp_ran (c : Nat) (x : Slot) : (writeRsp c x s).ran = s.ran := by
  simp only [writeRsp]; split <;> simp
@[simp] theorem writeRsp_freeCtr (c : Nat) (x : Slot) : (writeRsp c x s).freeCtr = s.freeCtr := by
  simp only [writeRsp]; split <;> simp
@[simp] theorem writeRsp_items (c : Nat) (x : Slot) : (writeRsp c x s).items = s.items := by
  simp only [writeRsp]; split <;> simp
@[simp] theorem writeRsp_tim (c : Nat) (x : Slot) : (writeRsp c x s).tim = s.tim := by
  simp only [writeRsp]; split <;> simp
@[simp] theorem writeRsp_md (c : Nat) (x : Slot) : (writeRsp c x s).md = s.md := by
  simp only [writeRsp]; split <;> simp
@[simp] theorem writeRsp_cmp (c : Nat) (x : Slot) : (writeRsp c x s).cmp = s.cmp := by
  simp only [writeRsp]; split <;> simp
@[simp] theorem writeRsp_trust (c : Nat) (x : Slot) : (writeRsp c x s).trust = s.trust := by
  simp only [writeRsp]; split <;> simp
@[simp] theorem writeRsp_link (c : Nat) (x : Slot) : (writeRsp c x s).link = s.link := by
  simp only [writeRsp]; split <;> simp
@[simp] theorem writeRsp_par (c : Nat) (x : Slot) : (writeRsp c x s).par = s.par := by
  simp only [writeRsp]; split <;> simp
@[simp] theorem writeRsp_cut (c : Nat) (x : Slot) : (writeRsp c x s).cut = s.cut := by
  simp only [writeRsp]; split <;> simp
@[simp] theorem writeRsp_em (c : Nat) (x : Slot) : (writeRsp c x s).em = s.em := by
  simp only [writeRsp]; split <;> simp
@[simp] theorem writeRsp_grv (c : Nat) (x : Slot) : (writeRsp c x s).grv = s.grv := by
  simp only [writeRsp]; split <;> simp
@[simp] theorem writeRsp_lnd (c : Nat) (x : Slot) : (writeRsp c x s).lnd = s.lnd := by
  simp only [writeRsp]; split <;> simp
@[simp] theorem writeRsp_buf (c : Nat) (x : Slot) : (writeRsp c x s).buf = s.buf := by
  simp only [writeRsp]; split <;> simp
@[simp] theorem writeRsp_krf (c : Nat) (x : Slot) : (writeRsp c x s).krf = s.krf := by
  simp only [writeRsp]; split <;> simp
@[simp] theorem writeRsp_sch (c : Nat) (x : Slot) : (writeRsp c x s).sch = s.sch := by
  simp only [writeRsp]; split <;> simp
@[simp] theorem writeRsp_dram (c : Nat) (x : Slot) : (writeRsp c x s).dram = s.dram := by
  simp only [writeRsp]; split <;> simp
@[simp] theorem writeRsp_cap (c : Nat) (x : Slot) : (writeRsp c x s).cap = s.cap := by
  simp only [writeRsp]; split <;> simp
@[simp] theorem writeRsp_ctr (c : Nat) (x : Slot) : (writeRsp c x s).ctr = s.ctr := by
  simp only [writeRsp]; split <;> simp
@[simp] theorem writeRsp_pair (c : Nat) (x : Slot) : (writeRsp c x s).pair = s.pair := by
  simp only [writeRsp]; split <;> simp
@[simp] theorem writeRsp_pwr (c : Nat) (x : Slot) : (writeRsp c x s).pwr = s.pwr := by
  simp only [writeRsp]; split <;> simp
@[simp] theorem writeRsp_saved (c : Nat) (x : Slot) : (writeRsp c x s).saved = s.saved := by
  simp only [writeRsp]; split <;> simp
@[simp] theorem writeRsp_snap (c : Nat) (x : Slot) : (writeRsp c x s).snap = s.snap := by
  simp only [writeRsp]; split <;> simp

/-! `flushLate` changes `host trust ctr` alone. -/

@[simp] theorem flushLate_pending (c : Nat) : (flushLate c s).pending = s.pending := by
  simp only [flushLate]; split
  · rfl
  · rw [foldS_keeps _ State.pending (fun e : Nat × List Byte => post c e.1 e.2) (fun (a : Nat × List Byte) t => post_pending t c a.1 a.2) (mbxOf s c).late, modMbx_pending]
@[simp] theorem flushLate_variant (c : Nat) : (flushLate c s).variant = s.variant := by
  simp only [flushLate]; split
  · rfl
  · rw [foldS_keeps _ State.variant (fun e : Nat × List Byte => post c e.1 e.2) (fun (a : Nat × List Byte) t => post_variant t c a.1 a.2) (mbxOf s c).late, modMbx_variant]
@[simp] theorem flushLate_ring (c : Nat) : (flushLate c s).ring = s.ring := by
  simp only [flushLate]; split
  · rfl
  · rw [foldS_keeps _ State.ring (fun e : Nat × List Byte => post c e.1 e.2) (fun (a : Nat × List Byte) t => post_ring t c a.1 a.2) (mbxOf s c).late, modMbx_ring]
@[simp] theorem flushLate_clock (c : Nat) : (flushLate c s).clock = s.clock := by
  simp only [flushLate]; split
  · rfl
  · rw [foldS_keeps _ State.clock (fun e : Nat × List Byte => post c e.1 e.2) (fun (a : Nat × List Byte) t => post_clock t c a.1 a.2) (mbxOf s c).late, modMbx_clock]
@[simp] theorem flushLate_ran (c : Nat) : (flushLate c s).ran = s.ran := by
  simp only [flushLate]; split
  · rfl
  · rw [foldS_keeps _ State.ran (fun e : Nat × List Byte => post c e.1 e.2) (fun (a : Nat × List Byte) t => post_ran t c a.1 a.2) (mbxOf s c).late, modMbx_ran]
@[simp] theorem flushLate_freeCtr (c : Nat) : (flushLate c s).freeCtr = s.freeCtr := by
  simp only [flushLate]; split
  · rfl
  · rw [foldS_keeps _ State.freeCtr (fun e : Nat × List Byte => post c e.1 e.2) (fun (a : Nat × List Byte) t => post_freeCtr t c a.1 a.2) (mbxOf s c).late, modMbx_freeCtr]
@[simp] theorem flushLate_items (c : Nat) : (flushLate c s).items = s.items := by
  simp only [flushLate]; split
  · rfl
  · rw [foldS_keeps _ State.items (fun e : Nat × List Byte => post c e.1 e.2) (fun (a : Nat × List Byte) t => post_items t c a.1 a.2) (mbxOf s c).late, modMbx_items]
@[simp] theorem flushLate_tim (c : Nat) : (flushLate c s).tim = s.tim := by
  simp only [flushLate]; split
  · rfl
  · rw [foldS_keeps _ State.tim (fun e : Nat × List Byte => post c e.1 e.2) (fun (a : Nat × List Byte) t => post_tim t c a.1 a.2) (mbxOf s c).late, modMbx_tim]
@[simp] theorem flushLate_lko (c : Nat) : (flushLate c s).lko = s.lko := by
  simp only [flushLate]; split
  · rfl
  · rw [foldS_keeps _ State.lko (fun e : Nat × List Byte => post c e.1 e.2) (fun (a : Nat × List Byte) t => post_lko t c a.1 a.2) (mbxOf s c).late, modMbx_lko]
@[simp] theorem flushLate_md (c : Nat) : (flushLate c s).md = s.md := by
  simp only [flushLate]; split
  · rfl
  · rw [foldS_keeps _ State.md (fun e : Nat × List Byte => post c e.1 e.2) (fun (a : Nat × List Byte) t => post_md t c a.1 a.2) (mbxOf s c).late, modMbx_md]
@[simp] theorem flushLate_cmp (c : Nat) : (flushLate c s).cmp = s.cmp := by
  simp only [flushLate]; split
  · rfl
  · rw [foldS_keeps _ State.cmp (fun e : Nat × List Byte => post c e.1 e.2) (fun (a : Nat × List Byte) t => post_cmp t c a.1 a.2) (mbxOf s c).late, modMbx_cmp]
@[simp] theorem flushLate_link (c : Nat) : (flushLate c s).link = s.link := by
  simp only [flushLate]; split
  · rfl
  · rw [foldS_keeps _ State.link (fun e : Nat × List Byte => post c e.1 e.2) (fun (a : Nat × List Byte) t => post_link t c a.1 a.2) (mbxOf s c).late, modMbx_link]
@[simp] theorem flushLate_par (c : Nat) : (flushLate c s).par = s.par := by
  simp only [flushLate]; split
  · rfl
  · rw [foldS_keeps _ State.par (fun e : Nat × List Byte => post c e.1 e.2) (fun (a : Nat × List Byte) t => post_par t c a.1 a.2) (mbxOf s c).late, modMbx_par]
@[simp] theorem flushLate_cut (c : Nat) : (flushLate c s).cut = s.cut := by
  simp only [flushLate]; split
  · rfl
  · rw [foldS_keeps _ State.cut (fun e : Nat × List Byte => post c e.1 e.2) (fun (a : Nat × List Byte) t => post_cut t c a.1 a.2) (mbxOf s c).late, modMbx_cut]
@[simp] theorem flushLate_em (c : Nat) : (flushLate c s).em = s.em := by
  simp only [flushLate]; split
  · rfl
  · rw [foldS_keeps _ State.em (fun e : Nat × List Byte => post c e.1 e.2) (fun (a : Nat × List Byte) t => post_em t c a.1 a.2) (mbxOf s c).late, modMbx_em]
@[simp] theorem flushLate_grv (c : Nat) : (flushLate c s).grv = s.grv := by
  simp only [flushLate]; split
  · rfl
  · rw [foldS_keeps _ State.grv (fun e : Nat × List Byte => post c e.1 e.2) (fun (a : Nat × List Byte) t => post_grv t c a.1 a.2) (mbxOf s c).late, modMbx_grv]
@[simp] theorem flushLate_lnd (c : Nat) : (flushLate c s).lnd = s.lnd := by
  simp only [flushLate]; split
  · rfl
  · rw [foldS_keeps _ State.lnd (fun e : Nat × List Byte => post c e.1 e.2) (fun (a : Nat × List Byte) t => post_lnd t c a.1 a.2) (mbxOf s c).late, modMbx_lnd]
@[simp] theorem flushLate_buf (c : Nat) : (flushLate c s).buf = s.buf := by
  simp only [flushLate]; split
  · rfl
  · rw [foldS_keeps _ State.buf (fun e : Nat × List Byte => post c e.1 e.2) (fun (a : Nat × List Byte) t => post_buf t c a.1 a.2) (mbxOf s c).late, modMbx_buf]
@[simp] theorem flushLate_krf (c : Nat) : (flushLate c s).krf = s.krf := by
  simp only [flushLate]; split
  · rfl
  · rw [foldS_keeps _ State.krf (fun e : Nat × List Byte => post c e.1 e.2) (fun (a : Nat × List Byte) t => post_krf t c a.1 a.2) (mbxOf s c).late, modMbx_krf]
@[simp] theorem flushLate_sch (c : Nat) : (flushLate c s).sch = s.sch := by
  simp only [flushLate]; split
  · rfl
  · rw [foldS_keeps _ State.sch (fun e : Nat × List Byte => post c e.1 e.2) (fun (a : Nat × List Byte) t => post_sch t c a.1 a.2) (mbxOf s c).late, modMbx_sch]
@[simp] theorem flushLate_dram (c : Nat) : (flushLate c s).dram = s.dram := by
  simp only [flushLate]; split
  · rfl
  · rw [foldS_keeps _ State.dram (fun e : Nat × List Byte => post c e.1 e.2) (fun (a : Nat × List Byte) t => post_dram t c a.1 a.2) (mbxOf s c).late, modMbx_dram]
@[simp] theorem flushLate_cap (c : Nat) : (flushLate c s).cap = s.cap := by
  simp only [flushLate]; split
  · rfl
  · rw [foldS_keeps _ State.cap (fun e : Nat × List Byte => post c e.1 e.2) (fun (a : Nat × List Byte) t => post_cap t c a.1 a.2) (mbxOf s c).late, modMbx_cap]
@[simp] theorem flushLate_pair (c : Nat) : (flushLate c s).pair = s.pair := by
  simp only [flushLate]; split
  · rfl
  · rw [foldS_keeps _ State.pair (fun e : Nat × List Byte => post c e.1 e.2) (fun (a : Nat × List Byte) t => post_pair t c a.1 a.2) (mbxOf s c).late, modMbx_pair]
@[simp] theorem flushLate_pwr (c : Nat) : (flushLate c s).pwr = s.pwr := by
  simp only [flushLate]; split
  · rfl
  · rw [foldS_keeps _ State.pwr (fun e : Nat × List Byte => post c e.1 e.2) (fun (a : Nat × List Byte) t => post_pwr t c a.1 a.2) (mbxOf s c).late, modMbx_pwr]
@[simp] theorem flushLate_saved (c : Nat) : (flushLate c s).saved = s.saved := by
  simp only [flushLate]; split
  · rfl
  · rw [foldS_keeps _ State.saved (fun e : Nat × List Byte => post c e.1 e.2) (fun (a : Nat × List Byte) t => post_saved t c a.1 a.2) (mbxOf s c).late, modMbx_saved]
@[simp] theorem flushLate_snap (c : Nat) : (flushLate c s).snap = s.snap := by
  simp only [flushLate]; split
  · rfl
  · rw [foldS_keeps _ State.snap (fun e : Nat × List Byte => post c e.1 e.2) (fun (a : Nat × List Byte) t => post_snap t c a.1 a.2) (mbxOf s c).late, modMbx_snap]

/-! `flushRsp` changes `host lko trust ctr` alone. -/

@[simp] theorem flushRsp_pending (c : Nat) : (flushRsp c s).pending = s.pending := by
  simp only [flushRsp]; split
  · rw [flushLate_pending, foldS_keeps _ State.pending (writeRsp c) (fun a t => writeRsp_pending t c a) _, modMbx_pending]
  · rfl
@[simp] theorem flushRsp_variant (c : Nat) : (flushRsp c s).variant = s.variant := by
  simp only [flushRsp]; split
  · rw [flushLate_variant, foldS_keeps _ State.variant (writeRsp c) (fun a t => writeRsp_variant t c a) _, modMbx_variant]
  · rfl
@[simp] theorem flushRsp_ring (c : Nat) : (flushRsp c s).ring = s.ring := by
  simp only [flushRsp]; split
  · rw [flushLate_ring, foldS_keeps _ State.ring (writeRsp c) (fun a t => writeRsp_ring t c a) _, modMbx_ring]
  · rfl
@[simp] theorem flushRsp_clock (c : Nat) : (flushRsp c s).clock = s.clock := by
  simp only [flushRsp]; split
  · rw [flushLate_clock, foldS_keeps _ State.clock (writeRsp c) (fun a t => writeRsp_clock t c a) _, modMbx_clock]
  · rfl
@[simp] theorem flushRsp_ran (c : Nat) : (flushRsp c s).ran = s.ran := by
  simp only [flushRsp]; split
  · rw [flushLate_ran, foldS_keeps _ State.ran (writeRsp c) (fun a t => writeRsp_ran t c a) _, modMbx_ran]
  · rfl
@[simp] theorem flushRsp_freeCtr (c : Nat) : (flushRsp c s).freeCtr = s.freeCtr := by
  simp only [flushRsp]; split
  · rw [flushLate_freeCtr, foldS_keeps _ State.freeCtr (writeRsp c) (fun a t => writeRsp_freeCtr t c a) _, modMbx_freeCtr]
  · rfl
@[simp] theorem flushRsp_items (c : Nat) : (flushRsp c s).items = s.items := by
  simp only [flushRsp]; split
  · rw [flushLate_items, foldS_keeps _ State.items (writeRsp c) (fun a t => writeRsp_items t c a) _, modMbx_items]
  · rfl
@[simp] theorem flushRsp_tim (c : Nat) : (flushRsp c s).tim = s.tim := by
  simp only [flushRsp]; split
  · rw [flushLate_tim, foldS_keeps _ State.tim (writeRsp c) (fun a t => writeRsp_tim t c a) _, modMbx_tim]
  · rfl
@[simp] theorem flushRsp_md (c : Nat) : (flushRsp c s).md = s.md := by
  simp only [flushRsp]; split
  · rw [flushLate_md, foldS_keeps _ State.md (writeRsp c) (fun a t => writeRsp_md t c a) _, modMbx_md]
  · rfl
@[simp] theorem flushRsp_cmp (c : Nat) : (flushRsp c s).cmp = s.cmp := by
  simp only [flushRsp]; split
  · rw [flushLate_cmp, foldS_keeps _ State.cmp (writeRsp c) (fun a t => writeRsp_cmp t c a) _, modMbx_cmp]
  · rfl
@[simp] theorem flushRsp_link (c : Nat) : (flushRsp c s).link = s.link := by
  simp only [flushRsp]; split
  · rw [flushLate_link, foldS_keeps _ State.link (writeRsp c) (fun a t => writeRsp_link t c a) _, modMbx_link]
  · rfl
@[simp] theorem flushRsp_par (c : Nat) : (flushRsp c s).par = s.par := by
  simp only [flushRsp]; split
  · rw [flushLate_par, foldS_keeps _ State.par (writeRsp c) (fun a t => writeRsp_par t c a) _, modMbx_par]
  · rfl
@[simp] theorem flushRsp_cut (c : Nat) : (flushRsp c s).cut = s.cut := by
  simp only [flushRsp]; split
  · rw [flushLate_cut, foldS_keeps _ State.cut (writeRsp c) (fun a t => writeRsp_cut t c a) _, modMbx_cut]
  · rfl
@[simp] theorem flushRsp_em (c : Nat) : (flushRsp c s).em = s.em := by
  simp only [flushRsp]; split
  · rw [flushLate_em, foldS_keeps _ State.em (writeRsp c) (fun a t => writeRsp_em t c a) _, modMbx_em]
  · rfl
@[simp] theorem flushRsp_grv (c : Nat) : (flushRsp c s).grv = s.grv := by
  simp only [flushRsp]; split
  · rw [flushLate_grv, foldS_keeps _ State.grv (writeRsp c) (fun a t => writeRsp_grv t c a) _, modMbx_grv]
  · rfl
@[simp] theorem flushRsp_lnd (c : Nat) : (flushRsp c s).lnd = s.lnd := by
  simp only [flushRsp]; split
  · rw [flushLate_lnd, foldS_keeps _ State.lnd (writeRsp c) (fun a t => writeRsp_lnd t c a) _, modMbx_lnd]
  · rfl
@[simp] theorem flushRsp_buf (c : Nat) : (flushRsp c s).buf = s.buf := by
  simp only [flushRsp]; split
  · rw [flushLate_buf, foldS_keeps _ State.buf (writeRsp c) (fun a t => writeRsp_buf t c a) _, modMbx_buf]
  · rfl
@[simp] theorem flushRsp_krf (c : Nat) : (flushRsp c s).krf = s.krf := by
  simp only [flushRsp]; split
  · rw [flushLate_krf, foldS_keeps _ State.krf (writeRsp c) (fun a t => writeRsp_krf t c a) _, modMbx_krf]
  · rfl
@[simp] theorem flushRsp_sch (c : Nat) : (flushRsp c s).sch = s.sch := by
  simp only [flushRsp]; split
  · rw [flushLate_sch, foldS_keeps _ State.sch (writeRsp c) (fun a t => writeRsp_sch t c a) _, modMbx_sch]
  · rfl
@[simp] theorem flushRsp_dram (c : Nat) : (flushRsp c s).dram = s.dram := by
  simp only [flushRsp]; split
  · rw [flushLate_dram, foldS_keeps _ State.dram (writeRsp c) (fun a t => writeRsp_dram t c a) _, modMbx_dram]
  · rfl
@[simp] theorem flushRsp_cap (c : Nat) : (flushRsp c s).cap = s.cap := by
  simp only [flushRsp]; split
  · rw [flushLate_cap, foldS_keeps _ State.cap (writeRsp c) (fun a t => writeRsp_cap t c a) _, modMbx_cap]
  · rfl
@[simp] theorem flushRsp_pair (c : Nat) : (flushRsp c s).pair = s.pair := by
  simp only [flushRsp]; split
  · rw [flushLate_pair, foldS_keeps _ State.pair (writeRsp c) (fun a t => writeRsp_pair t c a) _, modMbx_pair]
  · rfl
@[simp] theorem flushRsp_pwr (c : Nat) : (flushRsp c s).pwr = s.pwr := by
  simp only [flushRsp]; split
  · rw [flushLate_pwr, foldS_keeps _ State.pwr (writeRsp c) (fun a t => writeRsp_pwr t c a) _, modMbx_pwr]
  · rfl
@[simp] theorem flushRsp_saved (c : Nat) : (flushRsp c s).saved = s.saved := by
  simp only [flushRsp]; split
  · rw [flushLate_saved, foldS_keeps _ State.saved (writeRsp c) (fun a t => writeRsp_saved t c a) _, modMbx_saved]
  · rfl
@[simp] theorem flushRsp_snap (c : Nat) : (flushRsp c s).snap = s.snap := by
  simp only [flushRsp]; split
  · rw [flushLate_snap, foldS_keeps _ State.snap (writeRsp c) (fun a t => writeRsp_snap t c a) _, modMbx_snap]
  · rfl

/-! `deliver` changes `host lko trust ctr` alone. -/

@[simp] theorem deliver_pending (c : Nat) (x : Slot) : (deliver c x s).pending = s.pending := by
  simp only [deliver]; split <;> [simp; (split <;> simp)]
@[simp] theorem deliver_variant (c : Nat) (x : Slot) : (deliver c x s).variant = s.variant := by
  simp only [deliver]; split <;> [simp; (split <;> simp)]
@[simp] theorem deliver_ring (c : Nat) (x : Slot) : (deliver c x s).ring = s.ring := by
  simp only [deliver]; split <;> [simp; (split <;> simp)]
@[simp] theorem deliver_clock (c : Nat) (x : Slot) : (deliver c x s).clock = s.clock := by
  simp only [deliver]; split <;> [simp; (split <;> simp)]
@[simp] theorem deliver_ran (c : Nat) (x : Slot) : (deliver c x s).ran = s.ran := by
  simp only [deliver]; split <;> [simp; (split <;> simp)]
@[simp] theorem deliver_freeCtr (c : Nat) (x : Slot) : (deliver c x s).freeCtr = s.freeCtr := by
  simp only [deliver]; split <;> [simp; (split <;> simp)]
@[simp] theorem deliver_items (c : Nat) (x : Slot) : (deliver c x s).items = s.items := by
  simp only [deliver]; split <;> [simp; (split <;> simp)]
@[simp] theorem deliver_tim (c : Nat) (x : Slot) : (deliver c x s).tim = s.tim := by
  simp only [deliver]; split <;> [simp; (split <;> simp)]
@[simp] theorem deliver_md (c : Nat) (x : Slot) : (deliver c x s).md = s.md := by
  simp only [deliver]; split <;> [simp; (split <;> simp)]
@[simp] theorem deliver_cmp (c : Nat) (x : Slot) : (deliver c x s).cmp = s.cmp := by
  simp only [deliver]; split <;> [simp; (split <;> simp)]
@[simp] theorem deliver_link (c : Nat) (x : Slot) : (deliver c x s).link = s.link := by
  simp only [deliver]; split <;> [simp; (split <;> simp)]
@[simp] theorem deliver_par (c : Nat) (x : Slot) : (deliver c x s).par = s.par := by
  simp only [deliver]; split <;> [simp; (split <;> simp)]
@[simp] theorem deliver_cut (c : Nat) (x : Slot) : (deliver c x s).cut = s.cut := by
  simp only [deliver]; split <;> [simp; (split <;> simp)]
@[simp] theorem deliver_em (c : Nat) (x : Slot) : (deliver c x s).em = s.em := by
  simp only [deliver]; split <;> [simp; (split <;> simp)]
@[simp] theorem deliver_grv (c : Nat) (x : Slot) : (deliver c x s).grv = s.grv := by
  simp only [deliver]; split <;> [simp; (split <;> simp)]
@[simp] theorem deliver_lnd (c : Nat) (x : Slot) : (deliver c x s).lnd = s.lnd := by
  simp only [deliver]; split <;> [simp; (split <;> simp)]
@[simp] theorem deliver_buf (c : Nat) (x : Slot) : (deliver c x s).buf = s.buf := by
  simp only [deliver]; split <;> [simp; (split <;> simp)]
@[simp] theorem deliver_krf (c : Nat) (x : Slot) : (deliver c x s).krf = s.krf := by
  simp only [deliver]; split <;> [simp; (split <;> simp)]
@[simp] theorem deliver_sch (c : Nat) (x : Slot) : (deliver c x s).sch = s.sch := by
  simp only [deliver]; split <;> [simp; (split <;> simp)]
@[simp] theorem deliver_dram (c : Nat) (x : Slot) : (deliver c x s).dram = s.dram := by
  simp only [deliver]; split <;> [simp; (split <;> simp)]
@[simp] theorem deliver_cap (c : Nat) (x : Slot) : (deliver c x s).cap = s.cap := by
  simp only [deliver]; split <;> [simp; (split <;> simp)]
@[simp] theorem deliver_pair (c : Nat) (x : Slot) : (deliver c x s).pair = s.pair := by
  simp only [deliver]; split <;> [simp; (split <;> simp)]
@[simp] theorem deliver_pwr (c : Nat) (x : Slot) : (deliver c x s).pwr = s.pwr := by
  simp only [deliver]; split <;> [simp; (split <;> simp)]
@[simp] theorem deliver_saved (c : Nat) (x : Slot) : (deliver c x s).saved = s.saved := by
  simp only [deliver]; split <;> [simp; (split <;> simp)]
@[simp] theorem deliver_snap (c : Nat) (x : Slot) : (deliver c x s).snap = s.snap := by
  simp only [deliver]; split <;> [simp; (split <;> simp)]

/-! `progEvt` changes `ctr` alone. -/

@[simp] theorem progEvt_pending (u k c q n : Nat) : (progEvt u k c q n s).pending = s.pending := by
  simp only [progEvt]; split <;> rfl
@[simp] theorem progEvt_variant (u k c q n : Nat) : (progEvt u k c q n s).variant = s.variant := by
  simp only [progEvt]; split <;> rfl
@[simp] theorem progEvt_ring (u k c q n : Nat) : (progEvt u k c q n s).ring = s.ring := by
  simp only [progEvt]; split <;> rfl
@[simp] theorem progEvt_clock (u k c q n : Nat) : (progEvt u k c q n s).clock = s.clock := by
  simp only [progEvt]; split <;> rfl
@[simp] theorem progEvt_ran (u k c q n : Nat) : (progEvt u k c q n s).ran = s.ran := by
  simp only [progEvt]; split <;> rfl
@[simp] theorem progEvt_freeCtr (u k c q n : Nat) : (progEvt u k c q n s).freeCtr = s.freeCtr := by
  simp only [progEvt]; split <;> rfl
@[simp] theorem progEvt_items (u k c q n : Nat) : (progEvt u k c q n s).items = s.items := by
  simp only [progEvt]; split <;> rfl
@[simp] theorem progEvt_tim (u k c q n : Nat) : (progEvt u k c q n s).tim = s.tim := by
  simp only [progEvt]; split <;> rfl
@[simp] theorem progEvt_host (u k c q n : Nat) : (progEvt u k c q n s).host = s.host := by
  simp only [progEvt]; split <;> rfl
@[simp] theorem progEvt_lko (u k c q n : Nat) : (progEvt u k c q n s).lko = s.lko := by
  simp only [progEvt]; split <;> rfl
@[simp] theorem progEvt_md (u k c q n : Nat) : (progEvt u k c q n s).md = s.md := by
  simp only [progEvt]; split <;> rfl
@[simp] theorem progEvt_cmp (u k c q n : Nat) : (progEvt u k c q n s).cmp = s.cmp := by
  simp only [progEvt]; split <;> rfl
@[simp] theorem progEvt_trust (u k c q n : Nat) : (progEvt u k c q n s).trust = s.trust := by
  simp only [progEvt]; split <;> rfl
@[simp] theorem progEvt_link (u k c q n : Nat) : (progEvt u k c q n s).link = s.link := by
  simp only [progEvt]; split <;> rfl
@[simp] theorem progEvt_par (u k c q n : Nat) : (progEvt u k c q n s).par = s.par := by
  simp only [progEvt]; split <;> rfl
@[simp] theorem progEvt_cut (u k c q n : Nat) : (progEvt u k c q n s).cut = s.cut := by
  simp only [progEvt]; split <;> rfl
@[simp] theorem progEvt_em (u k c q n : Nat) : (progEvt u k c q n s).em = s.em := by
  simp only [progEvt]; split <;> rfl
@[simp] theorem progEvt_grv (u k c q n : Nat) : (progEvt u k c q n s).grv = s.grv := by
  simp only [progEvt]; split <;> rfl
@[simp] theorem progEvt_lnd (u k c q n : Nat) : (progEvt u k c q n s).lnd = s.lnd := by
  simp only [progEvt]; split <;> rfl
@[simp] theorem progEvt_buf (u k c q n : Nat) : (progEvt u k c q n s).buf = s.buf := by
  simp only [progEvt]; split <;> rfl
@[simp] theorem progEvt_krf (u k c q n : Nat) : (progEvt u k c q n s).krf = s.krf := by
  simp only [progEvt]; split <;> rfl
@[simp] theorem progEvt_sch (u k c q n : Nat) : (progEvt u k c q n s).sch = s.sch := by
  simp only [progEvt]; split <;> rfl
@[simp] theorem progEvt_dram (u k c q n : Nat) : (progEvt u k c q n s).dram = s.dram := by
  simp only [progEvt]; split <;> rfl
@[simp] theorem progEvt_cap (u k c q n : Nat) : (progEvt u k c q n s).cap = s.cap := by
  simp only [progEvt]; split <;> rfl
@[simp] theorem progEvt_pair (u k c q n : Nat) : (progEvt u k c q n s).pair = s.pair := by
  simp only [progEvt]; split <;> rfl
@[simp] theorem progEvt_pwr (u k c q n : Nat) : (progEvt u k c q n s).pwr = s.pwr := by
  simp only [progEvt]; split <;> rfl
@[simp] theorem progEvt_saved (u k c q n : Nat) : (progEvt u k c q n s).saved = s.saved := by
  simp only [progEvt]; split <;> rfl
@[simp] theorem progEvt_snap (u k c q n : Nat) : (progEvt u k c q n s).snap = s.snap := by
  simp only [progEvt]; split <;> rfl

/-! `pfcSend` changes `link ctr` alone. -/

@[simp] theorem pfcSend_pending (p m q : Nat) : (pfcSend p m q s).pending = s.pending := by
  simp only [pfcSend]; split <;> simp [putWire]
@[simp] theorem pfcSend_variant (p m q : Nat) : (pfcSend p m q s).variant = s.variant := by
  simp only [pfcSend]; split <;> simp [putWire]
@[simp] theorem pfcSend_ring (p m q : Nat) : (pfcSend p m q s).ring = s.ring := by
  simp only [pfcSend]; split <;> simp [putWire]
@[simp] theorem pfcSend_clock (p m q : Nat) : (pfcSend p m q s).clock = s.clock := by
  simp only [pfcSend]; split <;> simp [putWire]
@[simp] theorem pfcSend_ran (p m q : Nat) : (pfcSend p m q s).ran = s.ran := by
  simp only [pfcSend]; split <;> simp [putWire]
@[simp] theorem pfcSend_freeCtr (p m q : Nat) : (pfcSend p m q s).freeCtr = s.freeCtr := by
  simp only [pfcSend]; split <;> simp [putWire]
@[simp] theorem pfcSend_items (p m q : Nat) : (pfcSend p m q s).items = s.items := by
  simp only [pfcSend]; split <;> simp [putWire]
@[simp] theorem pfcSend_tim (p m q : Nat) : (pfcSend p m q s).tim = s.tim := by
  simp only [pfcSend]; split <;> simp [putWire]
@[simp] theorem pfcSend_host (p m q : Nat) : (pfcSend p m q s).host = s.host := by
  simp only [pfcSend]; split <;> simp [putWire]
@[simp] theorem pfcSend_lko (p m q : Nat) : (pfcSend p m q s).lko = s.lko := by
  simp only [pfcSend]; split <;> simp [putWire]
@[simp] theorem pfcSend_md (p m q : Nat) : (pfcSend p m q s).md = s.md := by
  simp only [pfcSend]; split <;> simp [putWire]
@[simp] theorem pfcSend_cmp (p m q : Nat) : (pfcSend p m q s).cmp = s.cmp := by
  simp only [pfcSend]; split <;> simp [putWire]
@[simp] theorem pfcSend_trust (p m q : Nat) : (pfcSend p m q s).trust = s.trust := by
  simp only [pfcSend]; split <;> simp [putWire]
@[simp] theorem pfcSend_par (p m q : Nat) : (pfcSend p m q s).par = s.par := by
  simp only [pfcSend]; split <;> simp [putWire]
@[simp] theorem pfcSend_cut (p m q : Nat) : (pfcSend p m q s).cut = s.cut := by
  simp only [pfcSend]; split <;> simp [putWire]
@[simp] theorem pfcSend_em (p m q : Nat) : (pfcSend p m q s).em = s.em := by
  simp only [pfcSend]; split <;> simp [putWire]
@[simp] theorem pfcSend_grv (p m q : Nat) : (pfcSend p m q s).grv = s.grv := by
  simp only [pfcSend]; split <;> simp [putWire]
@[simp] theorem pfcSend_lnd (p m q : Nat) : (pfcSend p m q s).lnd = s.lnd := by
  simp only [pfcSend]; split <;> simp [putWire]
@[simp] theorem pfcSend_buf (p m q : Nat) : (pfcSend p m q s).buf = s.buf := by
  simp only [pfcSend]; split <;> simp [putWire]
@[simp] theorem pfcSend_krf (p m q : Nat) : (pfcSend p m q s).krf = s.krf := by
  simp only [pfcSend]; split <;> simp [putWire]
@[simp] theorem pfcSend_sch (p m q : Nat) : (pfcSend p m q s).sch = s.sch := by
  simp only [pfcSend]; split <;> simp [putWire]
@[simp] theorem pfcSend_dram (p m q : Nat) : (pfcSend p m q s).dram = s.dram := by
  simp only [pfcSend]; split <;> simp [putWire]
@[simp] theorem pfcSend_cap (p m q : Nat) : (pfcSend p m q s).cap = s.cap := by
  simp only [pfcSend]; split <;> simp [putWire]
@[simp] theorem pfcSend_pair (p m q : Nat) : (pfcSend p m q s).pair = s.pair := by
  simp only [pfcSend]; split <;> simp [putWire]
@[simp] theorem pfcSend_pwr (p m q : Nat) : (pfcSend p m q s).pwr = s.pwr := by
  simp only [pfcSend]; split <;> simp [putWire]
@[simp] theorem pfcSend_saved (p m q : Nat) : (pfcSend p m q s).saved = s.saved := by
  simp only [pfcSend]; split <;> simp [putWire]
@[simp] theorem pfcSend_snap (p m q : Nat) : (pfcSend p m q s).snap = s.snap := by
  simp only [pfcSend]; split <;> simp [putWire]

/-! `pfcXoff` changes `link ctr` alone. -/

@[simp] theorem pfcXoff_pending (p m : Nat) : (pfcXoff p m s).pending = s.pending := by
  simp [pfcXoff]
@[simp] theorem pfcXoff_variant (p m : Nat) : (pfcXoff p m s).variant = s.variant := by
  simp [pfcXoff]
@[simp] theorem pfcXoff_ring (p m : Nat) : (pfcXoff p m s).ring = s.ring := by
  simp [pfcXoff]
@[simp] theorem pfcXoff_clock (p m : Nat) : (pfcXoff p m s).clock = s.clock := by
  simp [pfcXoff]
@[simp] theorem pfcXoff_ran (p m : Nat) : (pfcXoff p m s).ran = s.ran := by
  simp [pfcXoff]
@[simp] theorem pfcXoff_freeCtr (p m : Nat) : (pfcXoff p m s).freeCtr = s.freeCtr := by
  simp [pfcXoff]
@[simp] theorem pfcXoff_items (p m : Nat) : (pfcXoff p m s).items = s.items := by
  simp [pfcXoff]
@[simp] theorem pfcXoff_tim (p m : Nat) : (pfcXoff p m s).tim = s.tim := by
  simp [pfcXoff]
@[simp] theorem pfcXoff_host (p m : Nat) : (pfcXoff p m s).host = s.host := by
  simp [pfcXoff]
@[simp] theorem pfcXoff_lko (p m : Nat) : (pfcXoff p m s).lko = s.lko := by
  simp [pfcXoff]
@[simp] theorem pfcXoff_md (p m : Nat) : (pfcXoff p m s).md = s.md := by
  simp [pfcXoff]
@[simp] theorem pfcXoff_cmp (p m : Nat) : (pfcXoff p m s).cmp = s.cmp := by
  simp [pfcXoff]
@[simp] theorem pfcXoff_trust (p m : Nat) : (pfcXoff p m s).trust = s.trust := by
  simp [pfcXoff]
@[simp] theorem pfcXoff_par (p m : Nat) : (pfcXoff p m s).par = s.par := by
  simp [pfcXoff]
@[simp] theorem pfcXoff_cut (p m : Nat) : (pfcXoff p m s).cut = s.cut := by
  simp [pfcXoff]
@[simp] theorem pfcXoff_em (p m : Nat) : (pfcXoff p m s).em = s.em := by
  simp [pfcXoff]
@[simp] theorem pfcXoff_grv (p m : Nat) : (pfcXoff p m s).grv = s.grv := by
  simp [pfcXoff]
@[simp] theorem pfcXoff_lnd (p m : Nat) : (pfcXoff p m s).lnd = s.lnd := by
  simp [pfcXoff]
@[simp] theorem pfcXoff_buf (p m : Nat) : (pfcXoff p m s).buf = s.buf := by
  simp [pfcXoff]
@[simp] theorem pfcXoff_krf (p m : Nat) : (pfcXoff p m s).krf = s.krf := by
  simp [pfcXoff]
@[simp] theorem pfcXoff_sch (p m : Nat) : (pfcXoff p m s).sch = s.sch := by
  simp [pfcXoff]
@[simp] theorem pfcXoff_dram (p m : Nat) : (pfcXoff p m s).dram = s.dram := by
  simp [pfcXoff]
@[simp] theorem pfcXoff_cap (p m : Nat) : (pfcXoff p m s).cap = s.cap := by
  simp [pfcXoff]
@[simp] theorem pfcXoff_pair (p m : Nat) : (pfcXoff p m s).pair = s.pair := by
  simp [pfcXoff]
@[simp] theorem pfcXoff_pwr (p m : Nat) : (pfcXoff p m s).pwr = s.pwr := by
  simp [pfcXoff]
@[simp] theorem pfcXoff_saved (p m : Nat) : (pfcXoff p m s).saved = s.saved := by
  simp [pfcXoff]
@[simp] theorem pfcXoff_snap (p m : Nat) : (pfcXoff p m s).snap = s.snap := by
  simp [pfcXoff]

/-! `pfcTo` changes `link ctr` alone. -/

@[simp] theorem pfcTo_pending (b : Bool) (p : Nat) : (pfcTo b p s).pending = s.pending := by
  simp only [pfcTo]
  repeat' split
  all_goals simp
@[simp] theorem pfcTo_variant (b : Bool) (p : Nat) : (pfcTo b p s).variant = s.variant := by
  simp only [pfcTo]
  repeat' split
  all_goals simp
@[simp] theorem pfcTo_ring (b : Bool) (p : Nat) : (pfcTo b p s).ring = s.ring := by
  simp only [pfcTo]
  repeat' split
  all_goals simp
@[simp] theorem pfcTo_clock (b : Bool) (p : Nat) : (pfcTo b p s).clock = s.clock := by
  simp only [pfcTo]
  repeat' split
  all_goals simp
@[simp] theorem pfcTo_ran (b : Bool) (p : Nat) : (pfcTo b p s).ran = s.ran := by
  simp only [pfcTo]
  repeat' split
  all_goals simp
@[simp] theorem pfcTo_freeCtr (b : Bool) (p : Nat) : (pfcTo b p s).freeCtr = s.freeCtr := by
  simp only [pfcTo]
  repeat' split
  all_goals simp
@[simp] theorem pfcTo_items (b : Bool) (p : Nat) : (pfcTo b p s).items = s.items := by
  simp only [pfcTo]
  repeat' split
  all_goals simp
@[simp] theorem pfcTo_tim (b : Bool) (p : Nat) : (pfcTo b p s).tim = s.tim := by
  simp only [pfcTo]
  repeat' split
  all_goals simp
@[simp] theorem pfcTo_host (b : Bool) (p : Nat) : (pfcTo b p s).host = s.host := by
  simp only [pfcTo]
  repeat' split
  all_goals simp
@[simp] theorem pfcTo_lko (b : Bool) (p : Nat) : (pfcTo b p s).lko = s.lko := by
  simp only [pfcTo]
  repeat' split
  all_goals simp
@[simp] theorem pfcTo_md (b : Bool) (p : Nat) : (pfcTo b p s).md = s.md := by
  simp only [pfcTo]
  repeat' split
  all_goals simp
@[simp] theorem pfcTo_cmp (b : Bool) (p : Nat) : (pfcTo b p s).cmp = s.cmp := by
  simp only [pfcTo]
  repeat' split
  all_goals simp
@[simp] theorem pfcTo_trust (b : Bool) (p : Nat) : (pfcTo b p s).trust = s.trust := by
  simp only [pfcTo]
  repeat' split
  all_goals simp
@[simp] theorem pfcTo_par (b : Bool) (p : Nat) : (pfcTo b p s).par = s.par := by
  simp only [pfcTo]
  repeat' split
  all_goals simp
@[simp] theorem pfcTo_cut (b : Bool) (p : Nat) : (pfcTo b p s).cut = s.cut := by
  simp only [pfcTo]
  repeat' split
  all_goals simp
@[simp] theorem pfcTo_em (b : Bool) (p : Nat) : (pfcTo b p s).em = s.em := by
  simp only [pfcTo]
  repeat' split
  all_goals simp
@[simp] theorem pfcTo_grv (b : Bool) (p : Nat) : (pfcTo b p s).grv = s.grv := by
  simp only [pfcTo]
  repeat' split
  all_goals simp
@[simp] theorem pfcTo_lnd (b : Bool) (p : Nat) : (pfcTo b p s).lnd = s.lnd := by
  simp only [pfcTo]
  repeat' split
  all_goals simp
@[simp] theorem pfcTo_buf (b : Bool) (p : Nat) : (pfcTo b p s).buf = s.buf := by
  simp only [pfcTo]
  repeat' split
  all_goals simp
@[simp] theorem pfcTo_krf (b : Bool) (p : Nat) : (pfcTo b p s).krf = s.krf := by
  simp only [pfcTo]
  repeat' split
  all_goals simp
@[simp] theorem pfcTo_sch (b : Bool) (p : Nat) : (pfcTo b p s).sch = s.sch := by
  simp only [pfcTo]
  repeat' split
  all_goals simp
@[simp] theorem pfcTo_dram (b : Bool) (p : Nat) : (pfcTo b p s).dram = s.dram := by
  simp only [pfcTo]
  repeat' split
  all_goals simp
@[simp] theorem pfcTo_cap (b : Bool) (p : Nat) : (pfcTo b p s).cap = s.cap := by
  simp only [pfcTo]
  repeat' split
  all_goals simp
@[simp] theorem pfcTo_pair (b : Bool) (p : Nat) : (pfcTo b p s).pair = s.pair := by
  simp only [pfcTo]
  repeat' split
  all_goals simp
@[simp] theorem pfcTo_pwr (b : Bool) (p : Nat) : (pfcTo b p s).pwr = s.pwr := by
  simp only [pfcTo]
  repeat' split
  all_goals simp
@[simp] theorem pfcTo_saved (b : Bool) (p : Nat) : (pfcTo b p s).saved = s.saved := by
  simp only [pfcTo]
  repeat' split
  all_goals simp
@[simp] theorem pfcTo_snap (b : Bool) (p : Nat) : (pfcTo b p s).snap = s.snap := by
  simp only [pfcTo]
  repeat' split
  all_goals simp

/-! `poolEval` changes `buf link ctr` alone. -/

@[simp] theorem poolEval_pending (p : Nat) : (poolEval p s).pending = s.pending := by
  simp only [poolEval]; split <;> split
  all_goals first | rfl | exact (foldS_keeps _ State.pending (pfcTo _) (fun a t => pfcTo_pending t _ a) _).trans rfl
@[simp] theorem poolEval_variant (p : Nat) : (poolEval p s).variant = s.variant := by
  simp only [poolEval]; split <;> split
  all_goals first | rfl | exact (foldS_keeps _ State.variant (pfcTo _) (fun a t => pfcTo_variant t _ a) _).trans rfl
@[simp] theorem poolEval_ring (p : Nat) : (poolEval p s).ring = s.ring := by
  simp only [poolEval]; split <;> split
  all_goals first | rfl | exact (foldS_keeps _ State.ring (pfcTo _) (fun a t => pfcTo_ring t _ a) _).trans rfl
@[simp] theorem poolEval_clock (p : Nat) : (poolEval p s).clock = s.clock := by
  simp only [poolEval]; split <;> split
  all_goals first | rfl | exact (foldS_keeps _ State.clock (pfcTo _) (fun a t => pfcTo_clock t _ a) _).trans rfl
@[simp] theorem poolEval_ran (p : Nat) : (poolEval p s).ran = s.ran := by
  simp only [poolEval]; split <;> split
  all_goals first | rfl | exact (foldS_keeps _ State.ran (pfcTo _) (fun a t => pfcTo_ran t _ a) _).trans rfl
@[simp] theorem poolEval_freeCtr (p : Nat) : (poolEval p s).freeCtr = s.freeCtr := by
  simp only [poolEval]; split <;> split
  all_goals first | rfl | exact (foldS_keeps _ State.freeCtr (pfcTo _) (fun a t => pfcTo_freeCtr t _ a) _).trans rfl
@[simp] theorem poolEval_items (p : Nat) : (poolEval p s).items = s.items := by
  simp only [poolEval]; split <;> split
  all_goals first | rfl | exact (foldS_keeps _ State.items (pfcTo _) (fun a t => pfcTo_items t _ a) _).trans rfl
@[simp] theorem poolEval_tim (p : Nat) : (poolEval p s).tim = s.tim := by
  simp only [poolEval]; split <;> split
  all_goals first | rfl | exact (foldS_keeps _ State.tim (pfcTo _) (fun a t => pfcTo_tim t _ a) _).trans rfl
@[simp] theorem poolEval_host (p : Nat) : (poolEval p s).host = s.host := by
  simp only [poolEval]; split <;> split
  all_goals first | rfl | exact (foldS_keeps _ State.host (pfcTo _) (fun a t => pfcTo_host t _ a) _).trans rfl
@[simp] theorem poolEval_lko (p : Nat) : (poolEval p s).lko = s.lko := by
  simp only [poolEval]; split <;> split
  all_goals first | rfl | exact (foldS_keeps _ State.lko (pfcTo _) (fun a t => pfcTo_lko t _ a) _).trans rfl
@[simp] theorem poolEval_md (p : Nat) : (poolEval p s).md = s.md := by
  simp only [poolEval]; split <;> split
  all_goals first | rfl | exact (foldS_keeps _ State.md (pfcTo _) (fun a t => pfcTo_md t _ a) _).trans rfl
@[simp] theorem poolEval_cmp (p : Nat) : (poolEval p s).cmp = s.cmp := by
  simp only [poolEval]; split <;> split
  all_goals first | rfl | exact (foldS_keeps _ State.cmp (pfcTo _) (fun a t => pfcTo_cmp t _ a) _).trans rfl
@[simp] theorem poolEval_trust (p : Nat) : (poolEval p s).trust = s.trust := by
  simp only [poolEval]; split <;> split
  all_goals first | rfl | exact (foldS_keeps _ State.trust (pfcTo _) (fun a t => pfcTo_trust t _ a) _).trans rfl
@[simp] theorem poolEval_par (p : Nat) : (poolEval p s).par = s.par := by
  simp only [poolEval]; split <;> split
  all_goals first | rfl | exact (foldS_keeps _ State.par (pfcTo _) (fun a t => pfcTo_par t _ a) _).trans rfl
@[simp] theorem poolEval_cut (p : Nat) : (poolEval p s).cut = s.cut := by
  simp only [poolEval]; split <;> split
  all_goals first | rfl | exact (foldS_keeps _ State.cut (pfcTo _) (fun a t => pfcTo_cut t _ a) _).trans rfl
@[simp] theorem poolEval_em (p : Nat) : (poolEval p s).em = s.em := by
  simp only [poolEval]; split <;> split
  all_goals first | rfl | exact (foldS_keeps _ State.em (pfcTo _) (fun a t => pfcTo_em t _ a) _).trans rfl
@[simp] theorem poolEval_grv (p : Nat) : (poolEval p s).grv = s.grv := by
  simp only [poolEval]; split <;> split
  all_goals first | rfl | exact (foldS_keeps _ State.grv (pfcTo _) (fun a t => pfcTo_grv t _ a) _).trans rfl
@[simp] theorem poolEval_lnd (p : Nat) : (poolEval p s).lnd = s.lnd := by
  simp only [poolEval]; split <;> split
  all_goals first | rfl | exact (foldS_keeps _ State.lnd (pfcTo _) (fun a t => pfcTo_lnd t _ a) _).trans rfl
@[simp] theorem poolEval_krf (p : Nat) : (poolEval p s).krf = s.krf := by
  simp only [poolEval]; split <;> split
  all_goals first | rfl | exact (foldS_keeps _ State.krf (pfcTo _) (fun a t => pfcTo_krf t _ a) _).trans rfl
@[simp] theorem poolEval_sch (p : Nat) : (poolEval p s).sch = s.sch := by
  simp only [poolEval]; split <;> split
  all_goals first | rfl | exact (foldS_keeps _ State.sch (pfcTo _) (fun a t => pfcTo_sch t _ a) _).trans rfl
@[simp] theorem poolEval_dram (p : Nat) : (poolEval p s).dram = s.dram := by
  simp only [poolEval]; split <;> split
  all_goals first | rfl | exact (foldS_keeps _ State.dram (pfcTo _) (fun a t => pfcTo_dram t _ a) _).trans rfl
@[simp] theorem poolEval_cap (p : Nat) : (poolEval p s).cap = s.cap := by
  simp only [poolEval]; split <;> split
  all_goals first | rfl | exact (foldS_keeps _ State.cap (pfcTo _) (fun a t => pfcTo_cap t _ a) _).trans rfl
@[simp] theorem poolEval_pair (p : Nat) : (poolEval p s).pair = s.pair := by
  simp only [poolEval]; split <;> split
  all_goals first | rfl | exact (foldS_keeps _ State.pair (pfcTo _) (fun a t => pfcTo_pair t _ a) _).trans rfl
@[simp] theorem poolEval_pwr (p : Nat) : (poolEval p s).pwr = s.pwr := by
  simp only [poolEval]; split <;> split
  all_goals first | rfl | exact (foldS_keeps _ State.pwr (pfcTo _) (fun a t => pfcTo_pwr t _ a) _).trans rfl
@[simp] theorem poolEval_saved (p : Nat) : (poolEval p s).saved = s.saved := by
  simp only [poolEval]; split <;> split
  all_goals first | rfl | exact (foldS_keeps _ State.saved (pfcTo _) (fun a t => pfcTo_saved t _ a) _).trans rfl
@[simp] theorem poolEval_snap (p : Nat) : (poolEval p s).snap = s.snap := by
  simp only [poolEval]; split <;> split
  all_goals first | rfl | exact (foldS_keeps _ State.snap (pfcTo _) (fun a t => pfcTo_snap t _ a) _).trans rfl

/-! `accPaused` changes `link ctr` alone. -/

@[simp] theorem accPaused_pending (p n : Nat) : (accPaused p n s).pending = s.pending := by
  simp only [accPaused]
  exact (foldS_keeps _ State.pending _ (fun a t => progEvt_pending t _ _ _ _ _) _).trans rfl
@[simp] theorem accPaused_variant (p n : Nat) : (accPaused p n s).variant = s.variant := by
  simp only [accPaused]
  exact (foldS_keeps _ State.variant _ (fun a t => progEvt_variant t _ _ _ _ _) _).trans rfl
@[simp] theorem accPaused_ring (p n : Nat) : (accPaused p n s).ring = s.ring := by
  simp only [accPaused]
  exact (foldS_keeps _ State.ring _ (fun a t => progEvt_ring t _ _ _ _ _) _).trans rfl
@[simp] theorem accPaused_clock (p n : Nat) : (accPaused p n s).clock = s.clock := by
  simp only [accPaused]
  exact (foldS_keeps _ State.clock _ (fun a t => progEvt_clock t _ _ _ _ _) _).trans rfl
@[simp] theorem accPaused_ran (p n : Nat) : (accPaused p n s).ran = s.ran := by
  simp only [accPaused]
  exact (foldS_keeps _ State.ran _ (fun a t => progEvt_ran t _ _ _ _ _) _).trans rfl
@[simp] theorem accPaused_freeCtr (p n : Nat) : (accPaused p n s).freeCtr = s.freeCtr := by
  simp only [accPaused]
  exact (foldS_keeps _ State.freeCtr _ (fun a t => progEvt_freeCtr t _ _ _ _ _) _).trans rfl
@[simp] theorem accPaused_items (p n : Nat) : (accPaused p n s).items = s.items := by
  simp only [accPaused]
  exact (foldS_keeps _ State.items _ (fun a t => progEvt_items t _ _ _ _ _) _).trans rfl
@[simp] theorem accPaused_tim (p n : Nat) : (accPaused p n s).tim = s.tim := by
  simp only [accPaused]
  exact (foldS_keeps _ State.tim _ (fun a t => progEvt_tim t _ _ _ _ _) _).trans rfl
@[simp] theorem accPaused_host (p n : Nat) : (accPaused p n s).host = s.host := by
  simp only [accPaused]
  exact (foldS_keeps _ State.host _ (fun a t => progEvt_host t _ _ _ _ _) _).trans rfl
@[simp] theorem accPaused_lko (p n : Nat) : (accPaused p n s).lko = s.lko := by
  simp only [accPaused]
  exact (foldS_keeps _ State.lko _ (fun a t => progEvt_lko t _ _ _ _ _) _).trans rfl
@[simp] theorem accPaused_md (p n : Nat) : (accPaused p n s).md = s.md := by
  simp only [accPaused]
  exact (foldS_keeps _ State.md _ (fun a t => progEvt_md t _ _ _ _ _) _).trans rfl
@[simp] theorem accPaused_cmp (p n : Nat) : (accPaused p n s).cmp = s.cmp := by
  simp only [accPaused]
  exact (foldS_keeps _ State.cmp _ (fun a t => progEvt_cmp t _ _ _ _ _) _).trans rfl
@[simp] theorem accPaused_trust (p n : Nat) : (accPaused p n s).trust = s.trust := by
  simp only [accPaused]
  exact (foldS_keeps _ State.trust _ (fun a t => progEvt_trust t _ _ _ _ _) _).trans rfl
@[simp] theorem accPaused_par (p n : Nat) : (accPaused p n s).par = s.par := by
  simp only [accPaused]
  exact (foldS_keeps _ State.par _ (fun a t => progEvt_par t _ _ _ _ _) _).trans rfl
@[simp] theorem accPaused_cut (p n : Nat) : (accPaused p n s).cut = s.cut := by
  simp only [accPaused]
  exact (foldS_keeps _ State.cut _ (fun a t => progEvt_cut t _ _ _ _ _) _).trans rfl
@[simp] theorem accPaused_em (p n : Nat) : (accPaused p n s).em = s.em := by
  simp only [accPaused]
  exact (foldS_keeps _ State.em _ (fun a t => progEvt_em t _ _ _ _ _) _).trans rfl
@[simp] theorem accPaused_grv (p n : Nat) : (accPaused p n s).grv = s.grv := by
  simp only [accPaused]
  exact (foldS_keeps _ State.grv _ (fun a t => progEvt_grv t _ _ _ _ _) _).trans rfl
@[simp] theorem accPaused_lnd (p n : Nat) : (accPaused p n s).lnd = s.lnd := by
  simp only [accPaused]
  exact (foldS_keeps _ State.lnd _ (fun a t => progEvt_lnd t _ _ _ _ _) _).trans rfl
@[simp] theorem accPaused_buf (p n : Nat) : (accPaused p n s).buf = s.buf := by
  simp only [accPaused]
  exact (foldS_keeps _ State.buf _ (fun a t => progEvt_buf t _ _ _ _ _) _).trans rfl
@[simp] theorem accPaused_krf (p n : Nat) : (accPaused p n s).krf = s.krf := by
  simp only [accPaused]
  exact (foldS_keeps _ State.krf _ (fun a t => progEvt_krf t _ _ _ _ _) _).trans rfl
@[simp] theorem accPaused_sch (p n : Nat) : (accPaused p n s).sch = s.sch := by
  simp only [accPaused]
  exact (foldS_keeps _ State.sch _ (fun a t => progEvt_sch t _ _ _ _ _) _).trans rfl
@[simp] theorem accPaused_dram (p n : Nat) : (accPaused p n s).dram = s.dram := by
  simp only [accPaused]
  exact (foldS_keeps _ State.dram _ (fun a t => progEvt_dram t _ _ _ _ _) _).trans rfl
@[simp] theorem accPaused_cap (p n : Nat) : (accPaused p n s).cap = s.cap := by
  simp only [accPaused]
  exact (foldS_keeps _ State.cap _ (fun a t => progEvt_cap t _ _ _ _ _) _).trans rfl
@[simp] theorem accPaused_pair (p n : Nat) : (accPaused p n s).pair = s.pair := by
  simp only [accPaused]
  exact (foldS_keeps _ State.pair _ (fun a t => progEvt_pair t _ _ _ _ _) _).trans rfl
@[simp] theorem accPaused_pwr (p n : Nat) : (accPaused p n s).pwr = s.pwr := by
  simp only [accPaused]
  exact (foldS_keeps _ State.pwr _ (fun a t => progEvt_pwr t _ _ _ _ _) _).trans rfl
@[simp] theorem accPaused_saved (p n : Nat) : (accPaused p n s).saved = s.saved := by
  simp only [accPaused]
  exact (foldS_keeps _ State.saved _ (fun a t => progEvt_saved t _ _ _ _ _) _).trans rfl
@[simp] theorem accPaused_snap (p n : Nat) : (accPaused p n s).snap = s.snap := by
  simp only [accPaused]
  exact (foldS_keeps _ State.snap _ (fun a t => progEvt_snap t _ _ _ _ _) _).trans rfl

/-! `timReject` changes `lko ctr` alone. -/

@[simp] theorem timReject_pending (k : Nat) : (timReject k s).pending = s.pending := by
  simp [timReject]
@[simp] theorem timReject_variant (k : Nat) : (timReject k s).variant = s.variant := by
  simp [timReject]
@[simp] theorem timReject_ring (k : Nat) : (timReject k s).ring = s.ring := by
  simp [timReject]
@[simp] theorem timReject_clock (k : Nat) : (timReject k s).clock = s.clock := by
  simp [timReject]
@[simp] theorem timReject_ran (k : Nat) : (timReject k s).ran = s.ran := by
  simp [timReject]
@[simp] theorem timReject_freeCtr (k : Nat) : (timReject k s).freeCtr = s.freeCtr := by
  simp [timReject]
@[simp] theorem timReject_items (k : Nat) : (timReject k s).items = s.items := by
  simp [timReject]
@[simp] theorem timReject_tim (k : Nat) : (timReject k s).tim = s.tim := by
  simp [timReject]
@[simp] theorem timReject_host (k : Nat) : (timReject k s).host = s.host := by
  simp [timReject]
@[simp] theorem timReject_md (k : Nat) : (timReject k s).md = s.md := by
  simp [timReject]
@[simp] theorem timReject_cmp (k : Nat) : (timReject k s).cmp = s.cmp := by
  simp [timReject]
@[simp] theorem timReject_trust (k : Nat) : (timReject k s).trust = s.trust := by
  simp [timReject]
@[simp] theorem timReject_link (k : Nat) : (timReject k s).link = s.link := by
  simp [timReject]
@[simp] theorem timReject_par (k : Nat) : (timReject k s).par = s.par := by
  simp [timReject]
@[simp] theorem timReject_cut (k : Nat) : (timReject k s).cut = s.cut := by
  simp [timReject]
@[simp] theorem timReject_em (k : Nat) : (timReject k s).em = s.em := by
  simp [timReject]
@[simp] theorem timReject_grv (k : Nat) : (timReject k s).grv = s.grv := by
  simp [timReject]
@[simp] theorem timReject_lnd (k : Nat) : (timReject k s).lnd = s.lnd := by
  simp [timReject]
@[simp] theorem timReject_buf (k : Nat) : (timReject k s).buf = s.buf := by
  simp [timReject]
@[simp] theorem timReject_krf (k : Nat) : (timReject k s).krf = s.krf := by
  simp [timReject]
@[simp] theorem timReject_sch (k : Nat) : (timReject k s).sch = s.sch := by
  simp [timReject]
@[simp] theorem timReject_dram (k : Nat) : (timReject k s).dram = s.dram := by
  simp [timReject]
@[simp] theorem timReject_cap (k : Nat) : (timReject k s).cap = s.cap := by
  simp [timReject]
@[simp] theorem timReject_pair (k : Nat) : (timReject k s).pair = s.pair := by
  simp [timReject]
@[simp] theorem timReject_pwr (k : Nat) : (timReject k s).pwr = s.pwr := by
  simp [timReject]
@[simp] theorem timReject_saved (k : Nat) : (timReject k s).saved = s.saved := by
  simp [timReject]
@[simp] theorem timReject_snap (k : Nat) : (timReject k s).snap = s.snap := by
  simp [timReject]

/-! ## What the shared operations do -/

/-- A merged record keeps everything but its count. -/
theorem mem_mergeRec {p : FaultRec → Bool} {l : List FaultRec} (h : l.any p = true) :
    ∃ r, p r = true ∧ { r with count := r.count + 1 } ∈ mergeRec p l := by
  induction l with
  | nil => simp at h
  | cons x l ih =>
    simp only [mergeRec]
    by_cases hx : p x = true
    · exact ⟨x, hx, by simp [hx]⟩
    · obtain ⟨r, hr, hm⟩ := ih (by simpa [hx] using h)
      exact ⟨r, hr, by simp [hx, hm]⟩

/-- A new record stands first in the store. -/
theorem newRec_head (cls unit code cid epoch : Nat) (d : List Nat) :
    ∃ r, (newRec cls unit code cid epoch d s).lko.recs.head? = some r ∧ r.cls = cls ∧ r.unit = unit ∧ r.code = code ∧
      r.cid = cid ∧ r.ring = s.ring ∧ r.epoch = epoch ∧ r.count = 1 ∧ r.detail = d ∧ r.seq = s.lko.seq := by
  simp only [newRec]
  split <;> exact ⟨_, rfl, rfl, rfl, rfl, rfl, rfl, rfl, rfl, rfl, rfl⟩

/-- A NOTE leaves a record of its ring, unit, code and CID. -/
theorem note_recs (unit code cid : Nat) (d : List Nat) :
    ∃ r ∈ (note unit code cid d s).lko.recs, r.cls = 0 ∧ r.unit = unit ∧ r.code = code ∧ r.cid = cid ∧ r.ring = s.ring := by
  simp only [note]
  split
  · rename_i h
    obtain ⟨x, hx, hp⟩ := List.any_eq_true.1 h
    obtain ⟨r, hr, hm⟩ := mem_mergeRec (List.any_eq_true.2 ⟨x, List.mem_of_mem_take hx, hp⟩)
    refine ⟨_, hm, ?_⟩
    simp only [mergesWith, Bool.and_eq_true, beq_iff_eq] at hr
    obtain ⟨⟨⟨⟨⟨⟨a, b⟩, c⟩, d⟩, e⟩, -⟩, -⟩ := hr
    exact ⟨a, b, c, d, e⟩
  · obtain ⟨r, hr, a, b, c, d, e, -⟩ := newRec_head s 0 unit code cid (unitSt s unit).epoch d
    exact ⟨r, List.mem_of_mem_head? (by simp [hr]), a, b, c, d, e⟩

/-- A NOTE stands in the record store in its ring. -/
@[simp] theorem noted_note (u k c : Nat) (d : List Nat) : noted (note u k c d s) u k c = true := by
  obtain ⟨r, hm, a, b, c, d, e⟩ := note_recs s u k c d
  simp only [noted, List.any_eq_true]
  exact ⟨r, hm, by simp [a, b, c, d, e]⟩

@[simp] theorem mbxOf_signal (c k d : Nat) : mbxOf (signal c k s) d = mbxOf s d := by
  simp only [signal]; split <;> rfl

@[simp] theorem mbxOf_setMbxFault_self (c k : Nat) : mbxOf (setMbxFault c k s) c = { mbxOf s c with fault := k } := by
  simp only [setMbxFault]; split
  · rename_i h; rw [← h]
  · simp

theorem mbxOf_setMbxFault_ne {c d : Nat} (k : Nat) (h : d ≠ c) : mbxOf (setMbxFault c k s) d = mbxOf s d := by
  simp only [setMbxFault]; split
  · rfl
  · simp [mbxOf_modMbx_ne _ _ h]

/-- A NOTE changes no named counter but the count of records lost. -/
theorem ctrGet_note {k : Ctr} (i j u c cid : Nat) (d : List Nat) (h : k ≠ .lkoRecordsLost) :
    ctrGet (note u c cid d s) k i j = ctrGet s k i j := by
  have key : k.ctorIdx ≠ Ctr.lkoRecordsLost.ctorIdx := by cases k <;> first | contradiction | decide
  simp only [note]; split
  · rfl
  · simp only [newRec]; split
    · exact ctrGet_cnt_ne _ _ (by simp [ctrKey, key])
    · rfl

end Sys2Proof.Machine
end

