-- ==== Sys2Proof/WellFormed.lean ====
section
/-!
DEFINITION. Which commands are well formed: the operands that a list or a number carries have the size that the wire, the
memory or the payload gives them.
-/
namespace Sys2Proof

/-- A payload lies within the 16 MiB that `PAYLOAD_LEN` admits (R395). -/
def Req.wf (q : Req) : Bool := decide (q.payload.length ≤ 16777216)

/-- Notices of a NOTICE body: 1 to 24 of 49 bytes (R549). -/
def noticeWf (body : List Byte) : Bool :=
  decide (body.length % 49 = 0) && decide (0 < body.length) && decide (body.length ≤ 24 * 49)

/-- A command is well formed. Commands whose operands are all numbers of a fixed range always are. -/
def Instr.wf : Instr → Bool
  | .pfcReceive _ _ _ timers => timers.length == 8
  | .frameReceive _ _ rx => !rx.bytes.isEmpty
  | .sweeperVisit bank index _ => decide (index < if bank.val < 4 then 524288 else 256)
  | .groveScrub arr index _ => decide (index < if arr.val < 4 then 32768 else 4096)
  | .opticInsert _ id cls _ _ _ => id.all (fun l => l.length == 64) && decide (cls.val < 8)
  | .opticPoll _ _ _ bias power _ => bias.length == power.length && decide (bias.length ≤ 8)
  | .commandFetch _ hdr payload _ => hdr.length == 64 && decide (payload.length ≤ 16777216)
  | .keyOffer _ key => key.length == 96
  | .fwLoad _ _ _ image => decide (image.version < 65536)
  | .heartbeat _ _ body _ => body.length == 320
  | .notice _ _ body => noticeWf body
  | .restore q _ => q.wf
  | .tallyRead q _ => q.wf
  | .dramPageDone _ _ errs => errs.bursts.all (fun e => decide (e.2.2.2.length ≤ 4))
  | .spdm q _ => q.wf
  | .baseBundleLoad q => q.wf
  | .cmpBundleLoad q => q.wf
  | .grvWrite q => q.wf
  | .mgmtLaent _ q => q.wf
  | _ => true

end Sys2Proof
end

