-- ==== Sys2Proof/Tests/Slice0.lean ====
section
/-!
SUPPORT. Tests: for every statement with hypotheses a state and operands that meet them, ill-formed commands, and values
that the spec states.
-/
namespace Sys2Proof.Tests
open Machine

/-! ## Small states -/

/-- A module in STAGED at ring 1000 with CID 5 defined and attached to port 3, its staging area open, and its mailbox and that of
CID 0 in the middle of a SECURED command. -/
def base : State :=
  let c5 : Cmp := { factoryCid0 .f with pasid := 7, rotRing := 0 }
  let open_ : Mbx := { secOpen := some { tag := 9, outAddr := 0, outLen := 4096 } }
  { State.reset with
    ring := 1000, ran := 1000, md := { mode := .staged, since := 1, upDone := true },
    cmp := { cmp := [(k1 0, factoryCid0 .f), (k1 5, c5)], att := [{ port := 3, kind := 0, lo := 0, hi := 0, cid := 5 }] },
    host := { mbx := [(k1 0, open_), (k1 5, open_)] },
    cut := { stage := [(k1 5, some { num := 1, based := false, digest := [], body := {} })] },
    sch := { share := [(k2 5 3, some 0x40064#32)] } }

/-- CID 0's request. -/
def m (a0 a1 : Nat) (p : List Byte) : Req := { cid := 0, auth := true, arg0 := BitVec.ofNat 64 a0, arg1 := BitVec.ofNat 32 a1, payload := p }
/-- An inner request of CID 5. -/
def o (a0 a1 : Nat) (p : List Byte) : Req :=
  { cid := 5, inner := true, auth := true, arg0 := BitVec.ofNat 64 a0, arg1 := BitVec.ofNat 32 a1, payload := p }
/-- With an output buffer. -/
def out (n : Nat) (q : Req) : Req := { q with outAddr := 4096, outLen := BitVec.ofNat 32 n }

/-- The blob, the findings and the message of the rows that carry them. -/
def ex : Extra :=
  { blob := { srcCid := 5, ring := 1, nonce := 1, body := none, grove := [], learned := [], image := [], keys := [], cutKey := [],
              secys := [], tallyCfg := 0 }, msg := .getVersion, clk := 0 }

/-! ## States for single commands -/

def withPort : State := { base with link := { port := [(k1 3, { cfg := 0x27100028ffff2400000000ff4400#128 })] } }
def withSource : State :=
  { base with tim := { base.tim with src := [(k1 2, 0x40006400002c0404002#64)], srcs := [(k1 2, { qualified := true })] } }
def withFrozen : State :=
  { base with cmp := { base.cmp with cmp := [(k1 0, factoryCid0 .f), (k1 5, { factoryCid0 .f with pasid := 7, frozen := true, emptyPosted := true })] },
              cut := {}, host := { mbx := [(k1 5, base.host.mbx.head?.map Prod.snd |>.getD {})] } }
def withKey : State :=
  { base with trust := { keys := [(k1 4, { gen := 1, owner := some 5, typ := 1, exportable := true, key := List.replicate 32 1 })] } }
/-- The handle of slot 4 in `withKey`. -/
def key4 : Nat := handleOf withKey 4
def withSecy : State :=
  { withKey with link := { secy := [(k2 3 0, { rec_ := 0x25#128, scs := [(2, 0, true)], sas := [{ handle := key4, an := 1, tx := true, sc := 0, pn := 1, ssci := 0 }] })] } }
def withFence : State := { base with lko := { units := [(k1 0x11, { epoch := 1, epochRing := 900, fenced := true, with_ := 0x11, ready := true })] } }
def withPair : State :=
  { base with md := { base.md with mode := .forwarding },
              pair := { cfg := 1, live := true, linkUp := true, sentHello := true, hello := some (0, 3), role := true, peer := zeros 8 ++ [2] ++ zeros 311 } }
def withGraph : State := { base with par := { graph := { nodes := [(k1 0, 256#256)] } } }
def withEnt : State := takeSnap
  { base with grv := { ents := [{ arr := 4, index := 0, cid := 5, table := 0, width := 0, prio := 1, birth := 1, death := noDeath, id := 77,
                                  res := 0, value := 0, mask := 0 }] } }
def withCut : State :=
  { base with cut := { cuts := [{ handle := 3, cid := 5, number := 1, state := 1, signed := false, rotation := 0, target := 900, body := {} }] } }

/-- A request of each opcode that passes its checks, in a state in which it does. -/
def good (op : Op) : State × Req :=
  match op with
  | .identityRead => (base, out 64 (m 0 0 []))
  | .barrier => (base, m 0 5 [])
  | .portCfgWrite => (base, m 2000 3 (leBytes 16 0x27100028ffff2400000000ff0400))
  | .radioWinWrite => (withPort, m 2000 3 (leBytes 4 0x81))
  | .portReset => (withPort, m 2000 3 [])
  | .portRead => (withPort, out 32 (m 0 3 []))
  | .cageRead => (base, out 128 (m 0 12 []))
  | .timSrcWrite => (base, m 2000 2 (leBytes 8 0x80006400000402))
  | .timCtlWrite => (base, m 2000 0 (leBytes 16 0x250000000100640002))
  | .timRealign => (withSource, m 0 0 [])
  | .timSrcRead => (withSource, out 64 (m 0 0 []))
  | .bundleList => (base, out 64 (o 0 0 []))
  | .abortFrameRead => (base, out 168 (o 0 0 []))
  | .stageOpen => ({ base with cut := {} }, o 0 0 [])
  | .stageAbort => (base, o 0 0 [])
  | .cutCommit => (withGraph, o 2000 0 [])
  | .cutCommitSigned => ({ withGraph with trust := { ownerKeys := [[1]] } }, { o 2000 0 (zeros 96) with
      sig := { key := [1], msg := cutMsg 5 { num := 1, based := false, digest := [], body := {} } 2000 } })
  | .listWrite => (base, o 0 2 (zeros 32))
  | .actionWrite => (base, o 0 1 (zeros 16))
  | .actdataWrite => (base, o 0 1 (zeros 16))
  | .psetWrite => (base, o 0 1 (leBytes 8 3))
  | .cutHdrWrite => (base, o 0 0 (zeros 8))
  | .parseWrite => (base, o 0 0 (zeros 4))
  | .cutRead => (withCut, out 64 (o 0 5 []))
  | .emTblWrite => (base, o 0 1 (leBytes 8 0x80000000000))
  | .emStaticWrite => (base, o 0 0 (zeros 32))
  | .emLearnWrite => (base, o 0 0 (zeros 32))
  | .emFlush => (base, o 2000 1 [])
  | .emLookup => (base, out 16 (o 0 1 (zeros 20)))
  | .trieTblWrite => (base, o 0 1 (leBytes 8 1))
  | .trieAdd => (base, o 0 0 (zeros 32))
  | .trieDelete => (base, o 0 0 (zeros 32))
  | .trieLookup => (base, out 16 (o 0 1 (zeros 16)))
  | .grvPairWrite => (base, m 0 0 (leBytes 8 1))
  | .grvTblWrite => (base, o 0 0x10 (leBytes 8 1))
  | .grvGmaskWrite => (base, o 0 0x10 (zeros 20))
  | .grvRead => (withEnt, out 128 (o 77 0x10 []))
  | .poolCfgWrite => (base, m 2000 2 (leBytes 16 0x108004000e2900c35009c4011))
  | .lndCfgWrite => (base, m 2000 0 (leBytes 8 0x1400040))
  | .glistWrite => (base, m 0 0x103 (leBytes 8 0x10001 ++ leBytes 4 0xFF0000))
  | .gateSwitch => (base, m 2000 3 [])
  | .shapeWrite => (base, m 2000 0x203 (leBytes 8 0x100003))
  | .shareWrite => (base, m 2000 0x503 (leBytes 4 0x40064))
  | .schedRead => (base, out 64 (o 0 0x203 []))
  | .spillCfgWrite => (base, m 2000 0 (leBytes 8 0x81000001fc0000))
  | .dramCfgWrite => (base, m 2000 0 (leBytes 8 0x400204e21))
  | .tallyCfgWrite => (base, o 2000 0 (zeros 8))
  | .tallyPagesWrite => (base, m 0 5 (leBytes 8 0x100))
  | .tallyRead => (base, out 300 (o 0 1 []))
  | .cvAssign => (base, m 0 0x503 [])
  | .cvCfgWrite => ({ base with cap := { cv := [(k1 3, { owner := 5 })] } }, o 0 3 (leBytes 32 0x2400000100ff00))
  | .cvArm => ({ base with cap := { cv := [(k1 3, { owner := 5 })] } }, o 2000 0x30000064 [])
  | .cvDisarm => ({ base with cap := { cv := [(k1 3, { owner := 5 })] } }, o 0 3 [])
  | .cvRead => ({ base with cap := { cv := [(k1 3, { owner := 5 })] } }, out 32 (o 0 3 []))
  | .counterRead => (base, out 4096 (m 0x30010 0 []))
  | .counterProgram => (base, m 2000 0x40 (zeros 32))
  | .blazeCfgWrite => (base, m 2000 0 (leBytes 16 0x10000000000000000))
  | .cmpDefine => (base, m 0 6 (zeros 4 ++ leBytes 4 9 ++ leBytes 4 16 ++ leBytes 4 16 ++ leBytes 2 1 ++ leBytes 2 1 ++ leBytes 2 1 ++ zeros 2 ++
      leBytes 4 16 ++ leBytes 4 16 ++ leBytes 4 16 ++ zeros 28))
  | .cmpQuotaWrite => (base, m 0 5 (zeros 4 ++ leBytes 4 7 ++ leBytes 4 16 ++ leBytes 4 16 ++ leBytes 2 1 ++ leBytes 2 1 ++ leBytes 2 1 ++
      zeros 2 ++ leBytes 4 16 ++ leBytes 4 16 ++ leBytes 4 16 ++ zeros 28))
  | .cmpDelete => (withFrozen, m 0 5 [])
  | .cmpAttach => (base, m 2000 5 (leBytes 8 4))
  | .cmpDetach => (base, m 2000 5 (leBytes 8 3))
  | .krfRegionWrite => (base, m 0 5 (zeros 8))
  | .cmpReset => (base, o 2000 5 [])
  | .freeze => (base, o 2000 5 [])
  | .thaw => (withFrozen, o 2000 5 [])
  | .save => (withFrozen, out 4096 (o 0 5 [1]))
  | .cmpRead => (base, out 64 (o 0 5 []))
  | .ownerEnrol => (base, m 0 0 (leBytes 8 1 ++ leBytes 0 0))
  | .cutKeySet => (base, o 0 0 (zeros 96))
  | .keyInstall => (base, o 0 0 (leBytes 4 0x4B575250 ++ [0, 1, 0, 0] ++ leBytes 4 32 ++ zeros 20 ++ zeros 32))
  | .keyDelete => (withKey, o 0 key4 [])
  | .keyExport => (withKey, out 512 (o 0 key4 [1]))
  | .secyAlloc => (base, m 0 3 (leBytes 16 0x25))
  | .secyWrite => (withSecy, o 2000 3 (zeros 16))
  | .rxScWrite => (withSecy, o 0 0x203 (zeros 16))
  | .saInstall => (withSecy, o 0 3 (leBytes 16 (key4 + 0x40000)))
  | .saSwitch => (withSecy, o 2000 0x10003 [])
  | .saDelete => (withSecy, o 0 0x50003 [])
  | .faultRead => (base, out 64 (m 0 1 []))
  | .firebreakLift => (withFence, m 2000 0x11 [])
  | .firebreakRaise => (base, m 2000 0x11 [])
  | .modeSet => ({ base with par := { base := some {} } }, m 2000 2 [])
  | .restart => (base, m 0 0 [])
  | .configSave => (base, m 0 0 [])
  | .groupSleep => (base, m 2000 0x103 [])
  | .nightTrimWrite => (base, m 2000 0 ([1, 1] ++ zeros 6 ++ leBytes 8 1000000 ++ zeros 8 ++ zeros 16))
  | .calExport => (base, out 16544 (m 0 0 []))
  | .pairCfgWrite => (base, m 2000 0 (zeros 16))
  | .pairSwitchover => (withPair, m 2000 0 [])
  | .pairStatusRead => (base, out 48 (m 0 0 []))
  | .spdm => (base, out 4096 (m 0 0 [1]))
  | _ => (base, m 0 0 [])

/-- The common opcodes of the table, those whose passing depends on a free value of Config left out. -/
def goodOps : List Op :=
  allOps.filter (fun o => !([Op.barrier, .grvWrite, .secured, .baseBundleLoad, .cmpBundleLoad, .restore, .factoryMode, .calImport, .calWrite,
    .ownerEnrol] : List Op).contains o)

/-- A request is served and passes. -/
def passesB (op : Op) : Bool :=
  let (s, q) := good op
  let u := checkState op q s
  served u q && (admission (lopOf op ex) (vOf u q op) u q == .ok) && (epochMoved ((lopOf op ex).units u q) (vOf u q op) u).isNone
set_option maxRecDepth 4000

/-! ## Witnesses: what the hypotheses of the statements ask for is met -/

/-- LaentAccepted, LaentNext, LaentNow, LaentReads, LaentNowEffects: every common opcode has a request that is served and passes. -/
theorem wit_laent_served_and_passes_1 : (goodOps.take 45).all passesB = true := by decide
theorem wit_laent_served_and_passes_2 : (goodOps.drop 45).all passesB = true := by decide

/-- What `passesB` says is what the statements ask. -/
theorem wit_passes_is_passesB (op : Op) (h : passesB op = true) :
    let u := checkState op (good op).2 (good op).1
    served u (good op).2 = true ∧ passes op (good op).2 ex u := by
  unfold passesB at h
  simp only [Bool.and_eq_true, beq_iff_eq] at h
  exact ⟨h.1.1, h.1.2, by simpa [Option.isNone_iff_eq_none] using h.2⟩

/-- The data of its answer fit its buffer. -/
def fits (op : Op) : Bool :=
  let u := checkState op (good op).2 (good op).1
  decide (((lopOf op ex).eval u (good op).2).data.length ≤ (good op).2.outLen.toNat)

/-- Those of the codes "now" and "stage". -/
def nowOps : List Op := goodOps.filter (fun o => opEff o == .now || opEff o == .stage)
/-- The lengths of the bytes that a free value spells. -/
theorem padTo_length (n : Nat) (l : List Byte) : (padTo n l).length = n := by
  simp only [padTo, zeros, List.length_append, List.length_take, List.length_replicate]; omega
theorem leBytes_length (n : Nat) : ∀ x, (leBytes n x).length = n := by
  induction n with
  | zero => intro x; rfl
  | succ n ih => intro x; simp [leBytes, ih]
theorem wit_keyExport_data_fit : fits .keyExport = true := by
  have hk : (keySlot (checkState .keyExport (good .keyExport).2 (good .keyExport).1) (handleSlot (good .keyExport).2.arg1.toNat)).key.length = 32 := by decide
  have h : ∀ (s : State) (q : Req), (keySlot s (handleSlot q.arg1.toNat)).key.length = 32 →
      ((opKeyExport.now s q).data).length ≤ 192 := by
    intro s q h
    simp only [opKeyExport, wrapBody, List.length_append, padTo_length, certKeyId, List.length_take, packLE, leBytes_length, h]
    simp; omega
  exact decide_eq_true (Nat.le_trans (h _ _ hk) (by decide))
theorem wit_calExport_data_fit : fits .calExport = true := by
  have hp : ∀ s : State, s.pwr.page = [] → (calPage s).length = 16384 := by
    intro s hs
    simp only [calPage, hs, List.isEmpty_nil, if_true, calFactory, calSeal, List.length_append, padTo_length, leBytes_length]
  have h : ∀ s : State, s.pwr.page = [] → (calBlob s).length ≤ (BitVec.ofNat 32 16544).toNat := by
    intro s hs
    simp only [calBlob, hp s hs, List.length_append, padTo_length, packLE, leBytes_length, beBytes,
      List.length_reverse, zeros, List.length_replicate]
    simp
  have e : ∀ s, ((lopOf .calExport ex).eval s (good .calExport).2).data = calBlob (atSnap s) := fun _ => rfl
  simp only [fits, e]
  exact decide_eq_true (h _ rfl)

theorem wit_now_data_fit_1 : ((nowOps.filter (fun o => o != .keyExport && o != .calExport)).take 20).all fits = true := by decide
theorem wit_now_data_fit_2 : ((nowOps.filter (fun o => o != .keyExport && o != .calExport)).drop 20).all fits = true := by decide

def withSession : State := { base with host := {}, trust := { sess := [(k1 5, some { key := [1], lastMsg := 900 })] } }
def withGrv : State :=
  { base with cut := { stage := [(k1 5, some { num := 1, based := false, digest := [], body := { grvTbl := [(grvKey 0 true, 1#64)] } })] } }
/-- GRV_WRITE of entry 77 with priority 1 of the on-die instance of table 0: 0 adds it, 2 deletes it. -/
def grvW (op : Nat) : Req := o 0 0 (leBytes 32 (77 + 2 ^ 36 + op * 2 ^ 37 + 2 ^ 48) ++ zeros 40)
def withGrvEnt : State := { withGrv with grv := withEnt.grv }

/-- The header of an inner IDENTITY_READ from CID 5, to be validated from ring `nb`. -/
def innerHdr (nb : Nat) : List Byte :=
  let h := packLE [(2, 0x4C41), (1, 1), (1, 2), (2, 0x0101), (2, 0), (4, 9), (1, 5), (1, 0), (2, 0), (8, nb)] ++ zeros 40
  h.take 36 ++ leBytes 4 (crc32c (hdrNoCrc h)).toNat ++ zeros 24

theorem wit_CommitAndSwitchoverAccepted : let q := (good .cutCommit).2; let u := checkState .cutCommit q (good .cutCommit).1
    (commitNow (Op.cutCommit == .cutCommitSigned) u q).status = .ok := by decide
theorem wit_BarrierSecuredGroveWrite :
    (let q := m 0 0 []; served base q = true ∧ admission (lopOf .barrier ex) (vOf base q .barrier) base q = .ok ∧
      barrierDone base q (vOf base q .barrier) = true ∧ barrierDone base (m 0 5 []) (vOf base (m 0 5 []) .barrier) = false) ∧
    (let q (p : List Byte) : Req := { cid := 5, auth := true, payload := p, outAddr := 4096, outLen := 4096 }
     let u := modMbx 5 (fun m => { m with reads := beginSecured m.reads }) (finishJobs 5 withSession)
     let good (p : List Byte) : Bool := served withSession (q p) && admission (lopOf .secured ex) (vOf u (q p) .secured) u (q p) == .ok
     (nextSecured withSession (q []) = true ∧ (mbxOf withSession 5).secOpen = none) ∧ (mbxOf base 5).secOpen.isSome = true ∧
     (good (innerHdr 1000) = true ∧ innerCheck u (q (innerHdr 1000)) = .ok ∧ leAt (innerHdr 1000) 16 8 ≤ u.ring) ∧
     (good (innerHdr 1001) = true ∧ innerCheck u (q (innerHdr 1001)) = .ok ∧ u.ring < leAt (innerHdr 1001) 16 8) ∧
     (good (zeros 64) = true ∧ innerCheck u (q (zeros 64)) ≠ .ok)) ∧
    (let q := grvW 0; let u := finishJobs q.c withGrv
     served withGrv q = true ∧ served u q = true ∧ (grvWrOf u q).op ≠ 2 ∧ admission (lopOf .grvWrite ex) (vOf u q .grvWrite) u q = .ok ∧
      (epochMoved ((lopOf .grvWrite ex).units u q) (vOf u q .grvWrite) u).isNone = true) ∧
    (let q := grvW 2; let u := finishJobs q.c withGrvEnt
     served withGrvEnt q = true ∧ served u q = true ∧ (grvWrOf u q).op = 2 ∧ admission (lopOf .grvWrite ex) (vOf u q .grvWrite) u q = .ok ∧
      (epochMoved ((lopOf .grvWrite ex).units u q) (vOf u q .grvWrite) u).isNone = true ∧ ((lopOf .grvWrite ex).now u q).data.length ≤ q.outLen.toNat) := by
  decide +kernel

/-- TallyReadStarts: reads of a ring of 8 pages with nothing and with something to deliver. -/
def tlyReadS (n : Nat) : State := takeSnap { base with cap := { tly := [(k1 5, { cfg := 0x201#64, next := n })] } }
theorem wit_TallyReadStarts : ∀ n ∈ [0, 1],
    let s := tlyReadS n
    let q := out 300 (o 0 1 [])
    served s q = true ∧ admission (lopOf .tallyRead ex) (vOf s q .tallyRead) s q = .ok ∧
      (∀ i ∈ s.cap.reads, i.req.c ≠ q.c) ∧ (∀ r ∈ s.dram.reqs, ¬ (r.cls = 3 ∧ r.cid = q.c)) ∧ s.variant ≠ .e ∧
      (let t := tlyOf (atSnap s) q.c
       let first := max q.t (tlyOldest t)
       tlyOldest (tlyOf s q.c) ≤ first ∧ t.next ≤ (tlyOf s q.c).next ∧ first ∉ (tlyOf s q.c).lost ∧ (t.next ≤ first ↔ n = 0)) := by decide

/-- LaentRefused: a read of a port that the module lacks is answered RANGE; in HALTED no command is served. -/
theorem wit_LaentRefused :
    (let q := out 32 (m 0 70 []); served base q = true ∧ admission (lopOf .portRead ex) (vOf base q .portRead) base q = .range) ∧
    served { base with md := { mode := .halted } } (m 0 0 []) = false := by decide
theorem wit_LaentNowEffects : base.lko.restartAt = none ∧ served (finishJobs 5 base) (o 0 0 []) = true := by decide
/-- RecordsInOrder: of a LIST_WRITE of two entries the second, with reserved bits set, is refused. -/
theorem wit_RecordsInOrder :
    (applyRecs .psetWrite (o 0 1 []) (fun _ n _ => if n = 1 then .range else .ok) (fun _ _ _ s => (.ok, s)) [zeros 8, zeros 8] 0 base).1 ≠ .ok := by
  decide
theorem wit_RightsDenied : let q : Req := { cid := 5, payload := leBytes 16 0, arg1 := 3 }
    served base q = true ∧ payPresence (opPay .portCfgWrite) q.payload.length = .ok ∧ q.rotation = (cmpOf base q.c).rotation ∧
      rightsOk (opRights .portCfgWrite) q = false ∧ commonOp .portCfgWrite = true := by decide
/-- The premises of R421's first steps, and those of its later steps. -/
def early (op : Op) (q : Req) (s : State) : Bool :=
  payPresence (opPay op) q.payload.length == .ok && q.rotation == (cmpOf s q.c).rotation && rightsOk (opRights op) q && (lopOf op ex).owns s q
def late (op : Op) (q : Req) (s : State) : Bool :=
  !(lopOf op ex).ownOrder && argForm op q == .ok && paySize (opPay op) q.payload.length == .ok && (lopOf op ex).args s q == .ok

theorem wit_ModeAdmits :
    let q := out 128 (m 0 12 [])
    let d := (good .dramCfgWrite).2
    let fenced : State := { base with lko := { units := [(k1 (uGroup (groupOfCage 12)), { fenced := true })] } }
    early .cageRead q { base with md := { mode := .sealed } } = true ∧ (opInfo .cageRead).inSealed = false ∧
    early .identityRead (out 64 (m 0 0 [])) { base with md := { mode := .sealed } } = true ∧ (opInfo .identityRead).inSealed = true ∧
    early .cageRead q base = true ∧ (lopOf .cageRead ex).present base q = true ∧
      ((lopOf .cageRead ex).units base q).all (fun u => !isFenced base u) = true ∧ late .cageRead q base = true ∧
    early .cageRead q fenced = true ∧ ((lopOf .cageRead ex).units fenced q).all (fun u => !isFenced fenced u) = false ∧
    early .dramCfgWrite d { base with variant := .e } = true ∧ (lopOf .dramCfgWrite ex).present { base with variant := .e } d = false := by decide
theorem wit_TargetRing : let q (t : Nat) := m t 3 (leBytes 16 0x27100028ffff2400000000ff0400)
    opEff .portCfgWrite = .target ∧ (lopOf .portCfgWrite ex).ownOrder = false ∧
    (∀ t ∈ [1015, 1016, 100001000, 100001001], early .portCfgWrite (q t) base = true ∧ base.md.mode ≠ .sealed ∧
      (lopOf .portCfgWrite ex).present base (q t) = true ∧
      ((lopOf .portCfgWrite ex).units base (q t)).all (fun u => !isFenced base u) = true ∧ late .portCfgWrite (q t) base = true) ∧
    (q 1015).t < 1000 + 16 ∧ 1000 + 16 ≤ (q 1016).t ∧ (q 100001000).t ≤ 1000 + 100000000 ∧ 1000 + 100000000 < (q 100001001).t := by decide

/-! ### Commands whose checks compare with a fused number or a digest -/

/-- A trailer (R461) of a bundle of a scope for compartment `c`, signed with the key [1]. -/
def dig16 : List Byte := (List.range 16).map (fun i => (digest [1]).getD i 0)
def trail (scope c : Nat) : List Byte :=
  packLE [(4, 0x42534731), (2, 1), (1, scope), (1, 0)] ++ dig16 ++ packLE [(1, c)] ++ zeros 103
/-- A section behind its CRC field. -/
def kSec (scope m : Nat) : List Byte :=
  let body := leBytes 4 (if scope = 0 then 64 else 0) ++ (List.replicate m (leBytes 4 (if scope = 0 then 0 else 15))).flatten ++ zeros ((4 * m + 31) / 32 * 32 - 4 * m) ++ zeros 32
  packLE [(4, 0x4652454B), (2, 1), (1, scope), (1, 0), (2, m), (2, 1), (2, 1), (2, 0), (4, (crc32c body).toNat), (4, 0), (8, 7)] ++ zeros 32 ++ body
def gSec : List Byte :=
  let body := leBytes 32 (0x305 + 2 ^ 32 * 0x0404 + 2 ^ 48 * 4)
  packLE [(4, 0x48505247), (2, 1), (2, 0), (2, 1), (2, 0), (4, (crc32c body).toNat)] ++ zeros 16 ++ body
def baseHead : List Byte :=
  packLE [(4, 0x4C445957), (2, 1), (1, 0), (1, 0), (4, 644), (2, 2), (2, 0), (8, 0), (8, 0),
    (4, 1), (4, 64), (4, 64), (4, 0), (4, 2), (4, 128), (4, 388), (4, 0)] ++ gSec ++ kSec 0 65
def cmpHead : List Byte :=
  packLE [(4, 0x4C445957), (2, 1), (1, 1), (1, 5), (4, 308), (2, 1), (2, 0), (8, 0), (8, 0),
    (4, 2), (4, 48), (4, 132), (4, 0)] ++ kSec 1 1
def withOwner : State :=
  { base with trust := { ownerKeys := [[1]] },
              cmp := { cmp := [(k1 0, factoryCid0 .f), (k1 5, { factoryCid0 .f with pasid := 7, region := 0x400100040080#64 })] } }
def G384 : List Byte :=
  beBytes 48 0xaa87ca22be8b05378eb1c71ef320ad746e1d3b628ba79b9859f741e082542a385502f25dbf55296c3a545e3872760ab7 ++
  beBytes 48 0x3617de4a96262c6f5d9e98bf9292dc29f8f41dbd289a147ce9da3113b5f0b8c00a60b1ce1d7e819d7a431d7c90ea0e5f
def withFrozenEmpty : State := { withFrozen with host := base.host }
def restoreQ : Req := o 0 5 (packLE [(4, 0x424C4F42), (2, 1), (1, 1), (1, 0), (8, 1), (8, 1)] ++ beBytes 16 (Config.fuse 2).toNat ++ zeros 24)
/-- A request whose payload's first `n` bytes are signed. -/
def signFirst (n : Nat) (q : Req) : Req := { q with sig := { msg := digest (q.payload.take n) } }
def factoryQ : Req := signFirst 96 (m 0 0 (packLE [(4, 0x46544B31), (1, 1), (1, 0), (2, 0)] ++ beBytes 16 (Config.fuse 0).toNat ++ packLE [(4, 1)] ++ zeros 164))
def calIQ : Req := signFirst 16448 (m 0 0 (packLE [(4, 0x42434C41), (2, 1), (2, 0)] ++ beBytes 16 (Config.fuse 0).toNat ++ zeros 16520))
def calWQ : Req := m 0 0 (calSeal (packLE [(4, 0x4C414331), (2, 1), (1, 0), (1, 0)] ++ beBytes 16 (Config.fuse 0).toNat))

/-- A request whose bundle is signed under the owner key `[1]`. -/
def signBundle (q : Req) : Req := { q with sig := { key := [1], msg := bundleMsg q.payload } }
def baseQ : Req := signBundle (m 2000 0 (baseHead ++ trail 0 0))
def cmpQ : Req := signBundle (o 2000 0 (cmpHead ++ trail 1 5))

theorem admission_pre (l : LOp) (v : Nat) (s : State) (q : Req) (h : l.pre s q = .ok)
    (h' : admission { l with pre := fun _ _ => .ok } v s q = .ok) : admission l v s q = .ok := by
  rw [← h']; simp only [admission, h]

theorem wit_restore : served withFrozenEmpty restoreQ = true ∧
    admission (lopOf .restore ex) (vOf withFrozenEmpty restoreQ .restore) withFrozenEmpty restoreQ = .ok := by
  have hs : slice restoreQ.payload 24 16 = beBytes 16 (Config.fuse 2).toNat := rfl
  refine ⟨by decide, admission_pre _ _ _ _ ?_ (by decide)⟩
  show restoreCheck ex.blob withFrozenEmpty restoreQ = .ok
  simp only [restoreCheck, hs, beq_self_eq_true]
  decide
theorem wit_factoryMode : served base factoryQ = true ∧
    admission (lopOf .factoryMode ex) (vOf base factoryQ .factoryMode) base factoryQ = .ok := by
  have hs : slice factoryQ.payload 8 16 = beBytes 16 (Config.fuse 0).toNat := rfl
  refine ⟨by decide, admission_pre _ _ _ _ ?_ (by decide)⟩
  show (if tokenOk base factoryQ then Status.ok else .badSig) = .ok
  have hg : signedOver factoryQ (digest (factoryQ.payload.take 96)) = true := by simp only [signedOver, factoryQ, signFirst]; simp; rfl
  simp only [tokenOk, hg, hs, beq_self_eq_true]
  decide
theorem wit_calImport : served base calIQ = true ∧
    admission (lopOf .calImport ex) (vOf base calIQ .calImport) base calIQ = .ok := by
  have hs : slice calIQ.payload 8 16 = beBytes 16 (Config.fuse 0).toNat := rfl
  have h' : admission { opCalImport with pre := fun _ _ => .ok } 1000 base calIQ = .ok := by decide +kernel
  refine ⟨by decide, admission_pre opCalImport 1000 base calIQ ?_ h'⟩
  have hg : signedOver calIQ (digest (calIQ.payload.take 16448)) = true := by simp only [signedOver, calIQ, signFirst]; simp; rfl
  show firstBad [(!calBusy base, .busy), (signedOver calIQ (digest (calIQ.payload.take 16448)) &&
    slice calIQ.payload 8 16 == beBytes 16 (Config.fuse 0).toNat, .badSig)] = .ok
  rw [hg, hs, beq_self_eq_true]
  decide
theorem wit_ownerEnrol : let q := m 0 0 (leBytes 8 1 ++ G384); served base q = true ∧
    admission (lopOf .ownerEnrol ex) (vOf base q .ownerEnrol) base q = .ok := by decide +kernel

/-- A page's CRC stands behind the bytes it covers. -/
theorem calSeal_crc (b : List Byte) : leAt (calSeal b) 0x3FFC 4 = (crc32c ((calSeal b).take 0x3FFC)).toNat := by
  have hp : (padTo 16380 b).length = 16380 := padTo_length _ _
  have h1 : (calSeal b).take 0x3FFC = padTo 16380 b := by simp [calSeal, hp]
  have h2 : slice (calSeal b) 0x3FFC 4 = leBytes 4 (crc32c (padTo 16380 b)).toNat := by
    simp only [slice, calSeal, List.drop_append, hp, List.drop_of_length_le (Nat.le_of_eq hp)]
    simp [List.take_of_length_le, leBytes_length]
  rw [h1, leAt, h2]
  have hb : ∀ x : BitVec 32, leNat (leBytes 4 x.toNat) = x.toNat := by
    intro x
    have := x.isLt
    simp only [leBytes, leNat, BitVec.toNat_ofNat]
    omega
  exact hb _
theorem wit_calWrite : served base calWQ = true ∧
    admission (lopOf .calWrite ex) (vOf base calWQ .calWrite) base calWQ = .ok := by
  have hs : slice calWQ.payload 8 16 = beBytes 16 (Config.fuse 0).toNat := rfl
  have hc : leAt calWQ.payload 0x3FFC 4 = (crc32c (calWQ.payload.take 0x3FFC)).toNat := calSeal_crc _
  have hl : calWQ.payload.length = 16384 := by
    show (calSeal _).length = _
    simp only [calSeal, List.length_append, padTo_length, leBytes_length]
  have hz : (allZero (slice calWQ.payload 0x1C 36) && allZero (slice calWQ.payload 0x1AD0 8) && allZero (slice calWQ.payload 0x1BD8 9252)) = true := by
    decide +kernel
  have hok : calPageOk calWQ.payload = true := by
    simp only [Bool.and_eq_true] at hz
    simp only [calPageOk, hs, hc, hz, beq_self_eq_true, Bool.and_true]
    decide +kernel
  have hp : opCalWrite.pre base calWQ = .ok := by
    simp only [opCalWrite, hl, hok]
    decide +kernel
  have h' : admission { opCalWrite with pre := fun _ _ => .ok } 1000 base calWQ = .ok := by decide +kernel
  exact ⟨by decide, admission_pre opCalWrite 1000 base calWQ hp h'⟩

theorem dig16_eq : (digest [1]).take 16 = dig16 := by
  have h : (digest [1]).length = 48 := padTo_length _ _
  apply List.ext_getElem
  · rw [List.length_take, h]; rfl
  · intro i h1 h2
    have : i < 16 := by simpa [dig16] using h2
    simp only [dig16, List.getElem_take, List.getElem_map, List.getElem_range]
    rw [List.getD_eq_getElem _ _ (by rw [h]; omega)]
theorem wit_bundleSig : bundleSig withOwner baseQ 0 = true ∧ bundleSig withOwner cmpQ 1 = true := by
  have g (q : Req) (h : q.auth = true) : signedBy (signBundle q) [[1]] (bundleMsg (signBundle q).payload) = true := by
    simp [signedBy, signedOver, signBundle, h]
  have h0 : decide ((digest baseQ.sig.key).take 16 = slice (trailer baseQ.payload) 8 16) = true :=
    decide_eq_true (dig16_eq.trans (by rfl))
  have h1 : decide ((digest cmpQ.sig.key).take 16 = slice (trailer cmpQ.payload) 8 16) = true :=
    decide_eq_true (dig16_eq.trans (by rfl))
  have k0 : ((if (0 : Nat) = 1 ∧ !(tget [] withOwner.trust.cutKey (k1 baseQ.c)).isEmpty then [tget [] withOwner.trust.cutKey (k1 baseQ.c)] else withOwner.trust.ownerKeys) : List (List Byte)) = [[1]] := by decide
  have k1_ : ((if True ∧ (!(tget [] withOwner.trust.cutKey (k1 cmpQ.c)).isEmpty) = true then [tget [] withOwner.trust.cutKey (k1 cmpQ.c)] else withOwner.trust.ownerKeys) : List (List Byte)) = [[1]] := by decide
  constructor
  · simp only [bundleSig, k0, h0, show signedBy baseQ [[1]] (bundleMsg baseQ.payload) = true from g _ rfl]; decide +kernel
  · simp only [bundleSig, k1_, h1, show signedBy cmpQ [[1]] (bundleMsg cmpQ.payload) = true from g _ rfl]; decide +kernel
theorem wit_baseBundleLoad : admission (lopOf .baseBundleLoad ex) 1000 withOwner baseQ = .ok := by
  have hp : bundleCheck .baseBundleLoad 0 withOwner baseQ = .ok := by
    simp only [bundleCheck, wit_bundleSig.1]
    decide +kernel
  have h' : admission { opBaseBundle with pre := fun _ _ => .ok } 1000 withOwner baseQ = .ok := by decide +kernel
  exact admission_pre opBaseBundle 1000 withOwner baseQ hp h'
theorem wit_cmpBundleLoad : admission (lopOf .cmpBundleLoad ex) 1000 withOwner cmpQ = .ok := by
  have hp : bundleCheck .cmpBundleLoad 1 withOwner cmpQ = .ok := by
    simp only [bundleCheck, wit_bundleSig.2]
    decide +kernel
  have h' : admission { opCmpBundle with pre := fun _ _ => .ok } 1000 withOwner cmpQ = .ok := by decide +kernel
  exact admission_pre opCmpBundle 1000 withOwner cmpQ hp h'
theorem wit_epochs : (epochMoved ((lopOf .restore ex).units withFrozenEmpty restoreQ) 1000 withFrozenEmpty).isNone = true ∧
    (epochMoved ((lopOf .factoryMode ex).units base factoryQ) 1000 base).isNone = true ∧
    (epochMoved ((lopOf .calImport ex).units base calIQ) 1000 base).isNone = true ∧
    (epochMoved ((lopOf .calWrite ex).units base calWQ) 1000 base).isNone = true ∧
    (epochMoved ((lopOf .baseBundleLoad ex).units withOwner baseQ) 1000 withOwner).isNone = true ∧
    (epochMoved ((lopOf .cmpBundleLoad ex).units withOwner cmpQ) 1000 withOwner).isNone = true := by decide

/-! ### Mailboxes -/

/-- CID 5's mailbox with given values. -/
def mb (x : Mbx) : State := { base with host := { mbx := [(k1 5, x)] } }
def vecs (v : Vec) (x : Mbx) : State := { base with host := { mbx := [(k1 5, x)], vec := [(k2 5 0, v), (k2 5 1, v)] } }

theorem wit_MailboxDoorbells :
    (let x : Mbx := { cmdHead := 10, cmdTail := 12, rspHead := 3, rspTail := 5, evtHead := 7, evtTail := 9 }
     let s := mb x
     halted s = false ∧ mbxOf s 5 = x ∧
     (span 4106#32 x.cmdHead ≤ 4096 ∧ span x.cmdTail x.cmdHead ≤ span 4106#32 x.cmdHead) ∧
     (span 5#32 x.rspHead ≤ span x.rspTail x.rspHead) ∧ (span 9#32 x.evtHead ≤ span x.evtTail x.evtHead ∧ x.lost = 0) ∧
     4096 < span 4107#32 x.cmdHead ∧ span 11#32 x.cmdHead < span x.cmdTail x.cmdHead ∧
     span x.rspTail x.rspHead < span 6#32 x.rspHead ∧ span x.evtTail x.evtHead < span 10#32 x.evtHead) ∧
    (mbxOf (mb { fetchTo := 4, cmdHead := 4 }) 5).fetchTo = (mbxOf (mb { fetchTo := 4, cmdHead := 4 }) 5).cmdHead ∧
    (let x := mbxOf (mb { rspTail := 4096 }) 5; 4096 ≤ x.reads.length + span x.rspTail x.rspHead) := by decide
theorem wit_VectorsArm :
    (let s := vecs { armed := false, masked := false } {}
     halted s = false ∧ vecStands s 5 0 = false ∧ (∀ j, j < 18 → vecStands s 5 (j + 1) = false) ∧ (vecOf s 5 0).armed = false) ∧
    (let s := vecs { armed := true, masked := false, holdUntil := 1000 } { rspTail := 1 }
     vecStands s 5 0 = true ∧ (mbxOf s 5).holdoff = 0 ∧ (vecOf s 5 0).masked = false ∧ (vecOf s 5 0).armed = true ∧
       (vecOf s 5 0).holdUntil ≤ s.ran) := by decide
theorem wit_MailboxService :
    (let s := mb { cmdBase := 4096, rspBase := 8192, evtBase := 12288 }; let x := mbxOf s 5
     halted s = false ∧ x.enable = false ∧ cmpDefined s 5 = true ∧ x.cmdBase ≠ 0 ∧ x.rspBase ≠ 0 ∧ x.evtBase ≠ 0) ∧
    (let x := mbxOf (mb { cmdBase := 4096 }) 5; x.enable = false ∧ x.rspBase = 0) ∧ (mbxOf (mb { enabling := true }) 5).enabling = true ∧
    (let s := mb { enabled := true }; let x := mbxOf s 5; atBoundary s = true ∧ atBoundary { s with clock := 1 } = false ∧ x.enabled = true ∧ x.enable = false ∧ x.reads = [] ∧ x.held = none) ∧
    (mbxOf (mb { enabled := true, dmaStop := true }) 5).dmaStop = true ∧
    (let x := mbxOf (mb { enabled := true, reads := [{ tag := 1, op := 1, v := 1, long := false }] }) 5
     x.enabled = true ∧ x.enable = false ∧ x.reads ≠ [] ∧ x.dmaStop = false) := by decide
theorem wit_MailboxRegisters :
    halted (mb {}) = false ∧ (3 : Nat) ≠ 4 ∧ (3 : Nat) ≠ 8 ∧ (2#12).toNat % 4 ≠ 0 ∧ (mbxOf (mb {}) 5).enabled = false ∧ (4096#64).toNat % 4096 = 0 ∧ (4097#64).toNat % 4096 ≠ 0 ∧
    fld (BitVec.ofNat 64 (999 * 256)) 34 8 < 1000 ∧ 100000000 < fld (BitVec.ofNat 64 (100000001 * 256)) 34 8 ∧
    1000 < fld (BitVec.ofNat 64 (1000 * 256 + 1001 * 2 ^ 35)) 44 35 ∧
    (let v := BitVec.ofNat 64 (100000000 * 256 + 1000 * 2 ^ 35)
     1000 ≤ fld v 34 8 ∧ fld v 34 8 ≤ 100000000 ∧ fld v 44 35 ≤ 1000 ∧ (mbxOf (mb {}) 5).enabled = false ∧ (mbxOf (mb {}) 5).enable = bit v 0) := by decide
/-- The header of an IDENTITY_READ from CID 5, held until a ring and not held. -/
def hdrOf (nb : Nat) : List Byte :=
  let h := packLE [(2, 0x4C41), (1, 1), (1, 0), (2, 0x0101), (2, 0), (4, 9), (1, 5), (1, 0), (2, 0), (8, nb)] ++ zeros 40
  h.take 36 ++ leBytes 4 (crc32c (hdrNoCrc h)).toNat ++ zeros 24
theorem wit_CommandsAreRead :
    let s := mb { enable := true, enabled := true, fetchTo := 1, cmdTail := 1 }
    (∀ nb ∈ [1000, 1001], fetchCheck s 5 (hdrOf nb) [] true = .ok) ∧ nextRead s = some 5 ∧ s.host.closing = false ∧ opOfCode (leAt (hdrOf 1000) 4 2) = some .identityRead ∧ leAt (hdrOf 1000) 16 8 ≤ s.ring ∧
      outsideOk .identityRead 5 = true ∧ s.ring < leAt (hdrOf 1001) 16 8 := by decide +kernel
theorem wit_MailboxEvents :
    (let s := mb { held := some { tag := 1, op := 0x0101, notBefore := 1000, arg1 := 0 } }
     (mbxOf s 5).held.isSome = true ∧ (mbxOf s 5).held.all (fun x => x.sec.isNone) = true ∧ 1000 ≤ s.ring ∧ opOfCode 0x0101 = some .identityRead ∧ outsideOk .identityRead 5 = true) ∧
    (let e : ReadEnt := { tag := 1, op := 0x0101, v := 1, long := false }
     let s := mb { reads := [e], timeout := 998 }
     (mbxOf s 5).reads = [e] ∧ e.ans = none ∧ e.v + (mbxOf s 5).timeout < s.ring) ∧
    (let s := mb { enabled := true, lost := 1, evtTail := 8191 }
     (mbxOf s 5).enabled = true ∧ dmaStopped s = false ∧ (mbxOf s 5).dmaStop = false ∧ 0 < (mbxOf s 5).lost ∧ span (mbxOf s 5).evtTail (mbxOf s 5).evtHead < 8192) := by decide
theorem wit_EventsPosted :
    (let s := mb { enabled := true, evtTail := 8190 }; let x := mbxOf s 5
     evtOpen s 5 = true ∧ acceptHeld s 5 = false ∧ x.lost = 0 ∧ span x.evtTail x.evtHead < 8191 ∧ x.evtSeal = false) ∧
    (let s := mb { enabled := true, evtTail := 8192 }; let x := mbxOf s 5
     evtOpen s 5 = true ∧ acceptHeld s 5 = false ∧ 8192 ≤ span x.evtTail x.evtHead ∧ x.lost = 0) ∧
    (let s := mb { enabled := true, reads := [{ tag := 1, op := 1, v := 900, long := false },
                     { tag := 2, op := 0x0703, v := 900, long := false, ans := some { rsp := { op := 0x0703, status := .accepted, tag := 2, v := 900, ring := 1000 } } }] }
     evtOpen s 5 = true ∧ acceptHeld s 5 = true) ∧
    (mbxOf (mb {}) 5).enabled = false := by decide


/-! ### Time, ports and cages -/

/-- Source 2 of a type, enabled, on port 3, quality limit 2, step limit 100, domain 0; its state; the timing state; the ring. -/
def src (typ : Nat) (x : SrcSt) (st : TimState) (sel : Option Nat := none) (r : Nat := 90000000) : State :=
  { base with ring := r, ran := r, link := { port := [(k1 3, { cfg := 0x27100028ffff2400000000ff4400#128, up := true })] },
              tim := { base.tim with src := [(k1 2, BitVec.ofNat 64 (typ + 3 * 16 + 2 ^ 14 + 100 * 2 ^ 32 + 2 * 2 ^ 48))], srcs := [(k1 2, x)],
                                     state := st, source := sel } }
def cart (c : CartSt) (r : Nat := 8000000000) : State :=
  { base with ring := r, ran := r, tim := { base.tim with cart := c, ctl := 0x250000000000640002#128 } }

theorem wit_TimeReadings :
    (let s := src 2 {} .locked (some 2); srcIs s 2 2 = true ∧ (200 : Int).natAbs ≤ 200 ∧ s.tim.source = some 2) ∧
    (let s := src 2 { qualified := true } .locked; srcIs s 2 2 = true ∧ s.tim.state = .locked ∧ 200 < (-201 : Int).natAbs ∧
      (srcOf s 2).qualified = true ∧ (srcOf s 2).missed = 0) ∧
    1 ≤ (srcOf (src 2 { missed := 1 } .free) 2).missed ∧
    (let s := src 2 { lastPulse := some 89990000, lastTod := some 136 } .acquiring
     (srcOf s 2).lastPulse = some 89990000 ∧ 89990000 + 10000 ≤ s.ran ∧ s.ran ≤ 89990000 + 900000 ∧
       (srcOf s 2).lastTod = some (100 + taiUtc s - 1) ∧ s.tim.state ≠ .locked) ∧
    (let s := src 1 {} .free; srcIs s 2 1 = true ∧ srcPortUp s 2 = true ∧ (0#8).toNat = srcDomain s 2 ∧ (2#8).toNat ≤ srcClass s 2 ∧
      (254#16).toNat < 255 ∧ s.tim.source ≠ some 2 ∧ (srcOf s 2).lastSync + 3000000 ≤ s.ran) ∧
    (let s := src 3 {} .free; srcIs s 2 3 = true ∧ srcPortUp s 2 = true ∧ (2#8).toNat ≤ srcClass s 2 ∧ srcClass s 2 < (3#8).toNat ∧
      (srcOf s 2).lastEsmc + 5000000 ≤ s.ran) ∧
    (let s := src 3 { goodSince := some 80000000 } .free; srcEnabled s 2 = true ∧ (srcOf s 2).qualified = false ∧ goodLong s 2 = true ∧ srcType s 2 = 3) ∧
    srcIs (src 4 {} .free) 2 4 = true := by decide
/-- The offset that follows the filter exactly is a good one for every calibration page. -/
theorem wit_TimeReadings_calibrated : ∃ off : Int,
    ((off - portAsym (src 1 {} .free) (srcPort (src 1 {} .free) 2) - (srcOf (src 1 {} .free) 2).offset).natAbs ≤ 2 * srcStep (src 1 {} .free) 2) ∧
    ∃ off' : Int, (off' - calPpsIn (src 2 {} .locked) / 32).natAbs ≤ 200 ∧ ∃ off'' : Int, 200 < (off'' - calPpsIn (src 2 {} .locked) / 32).natAbs :=
  ⟨portAsym (src 1 {} .free) (srcPort (src 1 {} .free) 2) + (srcOf (src 1 {} .free) 2).offset, by omega,
   calPpsIn (src 2 {} .locked) / 32, by omega, calPpsIn (src 2 {} .locked) / 32 + 201, by omega⟩
theorem wit_TimingTransitions :
    (let s := src 2 { qualified := true } .free; s.tim.evalRing ≠ s.ring ∧ atBoundary s = true ∧ atBoundary { s with clock := 1 } = false ∧
      s.tim.alignDue = none ∧ s.tim.state = .free ∧ bestPhase s ≠ none) ∧
    (let s := src 2 {} .locked; s.tim.alignDue = none ∧ s.tim.state = .locked ∧ bestPhase s = none ∧ s.ran < s.tim.stateRan + 600000000) := by decide
theorem wit_TimingTicks :
    (let s : State := { cart {} with tim := { state := .holdoverTcxo, holdLimit := 7000, holdStart := 0 } }; s.tim.holdStart + holdSeconds s * 1000000 ≤ s.ran) ∧
    (let s := cart {} 1000000; s.tim.slewRan + 1000000 ≤ s.ran ∧ s.tim.hint + 1000000 ≤ s.ring ∧ s.ring % 1000000 = 0 ∧ s.link.squelched = false) ∧
    (let s := cart {} 999999; s.ran < s.tim.slewRan + 1000000 ∧ s.tim.hint ≤ s.ring ∧ s.ring < s.tim.hint + 1000000 ∧ s.ring % 1000000 ≠ 0) ∧
    (src 2 {} .locked).tim.state = .locked := by decide
theorem wit_Cartridge :
    (let s := cart {}; s.tim.cart.present = false ∧ s.tim.cart.inUse = false ∧ (61319#32).toNat < 61320 ∧ tget 0 s.tim.lastLife (k1 (9#32).toNat) ≤ (61319#32).toNat) ∧
    (let c := (cart { present := true, idValid := true }).tim.cart; c.present = true ∧ c.idValid = true ∧ c.rejected = false ∧ c.warm = false ∧
      c.warmStart + 7200000000 ≤ (cart {}).ran ∧ (cart {} 7199999999).ran < c.warmStart + 7200000000) ∧
    (let s := cart { present := true, idValid := true, lifeValid := true, warm := true, lockedRings := 7200000000, hours := 61319 }
     bit s.tim.ctl 1 = true ∧ s.tim.cart.hours < 61320 ∧ 7200000000 ≤ s.tim.cart.lockedRings) ∧
    ((cart {}).tim.cart.useDue = false ∧ (cart {}).tim.cart.present = false) ∧
    (cart { lockedRings := 7199999999 }).tim.cart.lockedRings < 7200000000 ∧ 61320 ≤ (cart { hours := 61320 }).tim.cart.hours ∧
    (let c := (cart { present := true, hours := 61318 }).tim.cart; (61319#32).toNat = c.hours + 1 ∧ (61319#32).toNat < 61320 ∧ (61318#32).toNat ≠ c.hours + 1) ∧
    (let c := (cart { present := true, temp := 1488, tempSeen := true }).tim.cart; -720 ≤ (1520 : Int) ∧ ((1520 : Int) - c.temp).natAbs ≤ 32) := by decide

/-- Port 3 with preemption and verification. -/
def prt (x : Port) (r : Nat := 20000) (f : List (Nat × Bool) := []) : State := { base with ring := r, ran := r, link := { port := [(k1 3, x)], found := f } }
def pcfg : BitVec 128 := 0x27100028ffff2400000000ffC600#128
theorem wit_Links :
    (let s := prt { cfg := pcfg, up := true } 20000 [(3, false)]; (port s 3).up = true ∧ s.link.found = [(3, false)]) ∧
    mayComeUp (prt { cfg := pcfg } 20000 [(3, true)]) 3 = true ∧
    (let s := prt { cfg := pcfg } 9999; portSpeed s 3 ≠ 0 ∧ s.md.mode ≠ .sealed ∧ s.ran < (port s 3).trainFrom + fld (port s 3).cfg 111 96) ∧
    (∀ v ∈ [2, 3], let s := prt { cfg := pcfg, up := true, verifies := v, lastVerify := 10000 }; let r := port s 3
      r.up = true ∧ bit r.cfg 14 = true ∧ bit r.cfg 15 = true ∧ r.verified = false ∧ 0 < r.verifies ∧ r.lastVerify + 10000 ≤ s.ran) ∧
    (let s := prt { cfg := pcfg, up := true, verifies := 1, lastVerify := 10001 }; (port s 3).verifies ≠ 0 ∧ s.ran < (port s 3).lastVerify + 10000) := by decide
theorem wit_Pauses :
    (let s := prt { cfg := setFld pcfg 31 24 0xFF, up := true, xoff := 1 }
     (fld (port s 3).cfg 31 24).testBit 7 = true ∧ gated s 3 7 = false ∧ (0x80#8) = 1#8 <<< 7 ∧ (port s 3).xoff ≠ 0 ∧
       (port s 3).xoffRing + fld (port s 3).cfg 95 80 ≤ s.ran) ∧
    fld (port (prt { cfg := setFld pcfg 31 24 0, up := true }) 3).cfg 31 24 = 0 ∧
    (let s : State := { base with link := { pause := [(k2 3 7, 1600005)] } }
     pauseEnd s 3 7 ≠ 0 ∧ pauseEnd s 3 7 ≤ s.ran * 1600 + 5 ∧ s.ran * 1600 + 4 < pauseEnd s 3 7) := by decide
def cg (g : Cage) : State := { base with link := { cage := [(k1 12, g)] } }
theorem wit_Cages :
    (4000 ≤ cageLimit 12 ∧ cageLimit 12 < 4001 ∧ asleep base (groupOfCage 12) = false) ∧
    (let g := cageOf (cg { present := true, highPower := true }) 12
     g.present = true ∧ g.mgmtLost = false ∧ g.seen = false ∧ g.seenV = false ∧ g.highPower = true ∧ (-800 : Int) ≤ 2080 ∧ (2900 : Nat) ≤ 3700) ∧
    (cageOf base 12).present = false ∧ (cageOf (cg { present := true, mgmtLost := true }) 12).mgmtLost = true := by decide

/-! ### Power, the Lookout, modes, the pair, trust -/

def pw (x : PwrSt) : State := { base with pwr := x }
theorem wit_PowerCycle :
    (let s := pw { on := false, offZone := some 2, rising := true }
     s.pwr.on = false ∧ s.pwr.offZone = some 2 ∧ (1119 : Int) < restartBelow 2 ∧ restartBelow 2 ≤ 1120 ∧ s.pwr.rising = true) ∧
    (∀ z, (pw { on := false }).pwr.offZone = some z → (0 : Int) < restartBelow z) ∧ base.pwr.on = true ∧
    base.pwr.fallAt = none ∧ ((pw { fallAt := some 1001 }).pwr.fallAt = some 1001 ∧ 1001 ≤ (pw { fallAt := some 1001 }).ran + 1) := by
  refine ⟨by decide, ?_, by decide⟩
  intro z h; cases h
theorem wit_Supervision :
    (base.pwr.on = true ∧ halted base = false ∧ base.pwr.dipStart = none ∧ (pw { dipStart := some 5 }).pwr.dipStart = some 5) ∧
    (let s : State := pw { bulkHigh := some 0, reading := [(k2 1 0, some 450001)] }
     (450000 : Int) < 450001 ∧ (450001 : Int) ≤ 480000 ∧ readingOf { s with ran := 1001 } 1 0 = some 450001 ∧ s.pwr.bulkHigh = some 0 ∧ (0 : Nat) + 1000 < ({ s with ran := 1001 } : State).ran) ∧
    (readingOf base 2 3 = none ∧ 10 * (1100 : Int) ≤ (11 * 1000 : Nat) ∧ ((11 * 1000 : Nat) : Int) < 10 * 1101 ∧ (1300 : Int) ≤ (13 * 1000 / 10 : Nat)) ∧
    ((2401 : Int) > 2400 ∧ (let s := pw { reading := [(k2 3 7, some 0)] }; ∃ old, readingOf s 3 7 = some old ∧ 80 < (81 - old).natAbs)) ∧
    (∀ old, readingOf base 3 7 = some old → ((0 : Int) - old).natAbs ≤ 80) ∧ tget false base.pwr.warn (k2 0 0) = false ∧
    ((1599 : Int) < warnAt 0 ∧ warnAt 0 ≤ 1600 ∧ (1999 : Int) < shutAt 0 ∧ shutAt 0 ≤ 2000 ∧ (0 : Fin 4) ≠ 1) ∧ (pw { offZone := some 0, warn := [(k2 0 0, true)] }).pwr.offZone.isSome = true ∧
    ((1520 : Int) ≤ warnAt 0 - 80 ∧ tget false (pw { warn := [(k2 0 0, true)] }).pwr.warn (k2 0 0) = true) ∧
    tget false base.pwr.din (k1 1) ≠ true := by
  refine ⟨by decide, by decide, by decide, ⟨by decide, ⟨0, by decide, by decide⟩⟩, ?_, by decide, by decide, by decide, by decide, by decide⟩
  intro old h; cases h
def haltS : State := { base with md := { mode := .halted }, trust := {}, link := { squelched := true }, pending := [.ringBoundary] }
theorem wit_HaltedLatch : haltedInv haltS ∧ haltS.pwr.on = true ∧ (∃ t, step haltS = .next t) ∧
    (∃ t, step { haltS with pwr := { haltS.pwr with fallAt := some 1001 } } = .next t ∧ t.pwr.on = false) :=
  ⟨⟨rfl, rfl, rfl, rfl, fun _ h => nomatch h⟩, rfl, ⟨_, rfl⟩, ⟨_, rfl, rfl⟩⟩
def un (u : Nat) (x : UnitSt) (p : List (Nat × Nat) := []) : State := { base with lko := { units := [(k1 u, x)], pendFence := p } }
theorem wit_Fences :
    (unitPresent base.variant 0x13 = true ∧ fenceable 0x13 = true ∧ 3 ≤ fenceCauses 0x13 ∧ isFenced base 0x13 = false ∧
      fencePending base 0x13 = false ∧ bothPlanes base 0x13 = false ∧ fenceCauses 0x13 < 4) ∧
    (let s := un 0x13 {} [(0x13, 1000)]; fencePending s 0x13 = true ∧ atBoundary { s with clock := 1 } = false) ∧
    (let s := un 0x13 {} [(0x13, 999)]; atBoundary s = true ∧ (0x13, 999) ∈ s.lko.pendFence ∧ 999 < s.ran ∧ isFenced s 0x13 = false) ∧
    (let x := unitSt (un 0x13 { fenced := true, epochRing := 999 }) 0x13
     x.fenced = true ∧ x.ready = false ∧ x.retired = false ∧ x.resetting = false ∧ x.epochRing < base.ring) ∧
    resetWaits (un 0x13 { fenced := true, epochRing := 999 }) 0x13 = false ∧
    resetWaits { un 0 { fenced := true, epochRing := 999 } with md := { gated := [(k1 0, true)], asleep := [(k1 0, true), (k1 1, true)], sleepRec := [(k1 0, (true, 0)), (k1 1, (true, 0))] } } 0 = true ∧
    base.ring ≤ (unitSt (un 0x13 { fenced := true, epochRing := 1000 }) 0x13).epochRing ∧
    (∀ a ∈ [1, 2], let x := unitSt (un 0x13 { fenced := true, resetting := true, attempts := a }) 0x13; x.resetting = true ∧ x.attempts = a) := by decide
theorem wit_RestartsAndInjections :
    (halted base = false ∧ base.lko.restartAt = none ∧ base.lko.factory = false ∧ atBoundary base = true) ∧
    (∀ r ∈ [1000, 1001], let s : State := { base with lko := { restartAt := some r } }; s.lko.restartAt = some r ∧ (r ≤ s.ran ↔ r = 1000)) ∧
    (∀ k, k < 4 → let s : State := { base with lko := { factory := true, inject := [(1000, 0x10, k, 7)] } }
      s.lko.factory = true ∧ s.lko.inject = [(1000, 0x10, k, 7)] ∧ 1000 ≤ dueRing s ∧ unitPresent s.variant 0x10 = true) ∧
    dueRing base < 1001 ∧ dueRing { base with tim := { base.tim with stepped := true } } < 1000 ∧ tabWf {} base.link.port = true := by decide
theorem wit_ModeEvents :
    (let s : State := { base with md := { base.md with quiesced := false } }; s.md.quiesced = false ∧ s.md.mode = .staged ∧ quiet s = true) ∧
    (let s : State := { base with md := { mode := .staged, upStaged := some 984 }, par := { base := some {} } }
     s.md.upStaged = some 984 ∧ 984 + 16 ≤ s.ran ∧ s.ran < 985 + 16 ∧ s.par.base ≠ none ∧ s.lko.restartHold = false ∧ modePending s = false ∧ basePending s = false ∧
       basePending { s with krf := { s.krf with wait := some {} } } = true) ∧
    (let s : State := { base with md := {} }
     s.items = [] ∧ s.md.mode = .sealed ∧ s.md.upDone = false ∧ s.md.upStop = false ∧ s.trust.recovery = false ∧ s.lko.restartAt = none ∧ s.trust.claimed = false) ∧
    (let s : State := { un 0x13 { fenced := true } with md := { mode := .forwarding } }; s.items = [] ∧ s.md.mode = .forwarding ∧ anyFenced s = true) ∧
    (let s : State := { base with md := { mode := .degraded } }; s.md.mode = .degraded ∧ anyFenced s = false) ∧ base.md.upDone = true ∧
    (atBoundary base = true ∧ atBoundary { base with clock := 1 } = false) := by decide
theorem wit_LowPower :
    (let s : State := { base with md := { asleep := [(k1 6, true), (k1 7, true)] } }
     asleep s (2 * 3) = true ∧ asleep s (2 * 3 + 1) = true ∧ pipeEmpty s 3 = true ∧ tget false s.md.gated (k1 3) = false ∧ asleep s (2 * 2) = false ∧
       s.md.sleepDue = [] ∧ atBoundary s = true) ∧
    (let l : List Byte := [1, 1] ++ zeros 6 ++ leBytes 8 1000000 ++ zeros 8 ++ leBytes 8 1000 ++ leBytes 2 6 ++ zeros 6
     let s : State := { base with md := { ntrim := l, trimDone := 999 } }
     ntEnabled s.md.ntrim = true ∧ ntPassed s.md.ntrim s.md.trimDone s.ring = true ∧ (ntInForce s.md.ntrim s.ring).isSome = true ∧
       ntPassed s.md.ntrim 1000 1001 = false ∧ groupFenced s 0 = false ∧ groupFenced (un 0x10 { fenced := true }) 0 = true) := by decide

def pr (x : PairSt) : State := { base with pair := x }
/-- A pair whose key is formed. -/
def keyed : PairSt := { cfg := 1, peerId := 3, linkUp := true, sentHello := true, hello := some (3, 9), rxSeq := 4 }
theorem wit_PairLink :
    (pairMayRun (pr keyed) = true ∧ pairEn (pr keyed) = true ∧ (3#128).toNat = (pr keyed).pair.peerId ∧ (4#128).toNat ≠ (pr keyed).pair.peerId ∧
      pairMayRun { base with md := {} } = false ∧ pairKeyed (pr keyed) = true ∧ (pr keyed).ring % 1000 = 0 ∧ (pr keyed).pair.hbRan ≠ (pr keyed).ran + 1 ∧ pairKeyed base = false ∧ base.pair.linkUp = false) ∧
    (4#64).toNat ≤ (pr keyed).pair.rxSeq ∧ (pr keyed).pair.rxSeq < (5#64).toNat ∧
    (let s := pr { keyed with txLog := [(8, 50)], peer := leBytes 8 0 ++ zeros 312 }
     let body : List Byte := leBytes 8 1000 ++ zeros 24 ++ leBytes 8 8
     s.pair.txLog.find? (fun e => e.1 == leAt body 32 8) = some (8, 50) ∧ s.pair.peer ≠ [] ∧ hbAt s 0 8 + 1000 = leAt body 0 8) ∧
    (pr { keyed with live := true }).pair.live = true ∧ (pr { keyed with lastHb := 0 }).pair.lastHb + 10000 ≤ ({ pr keyed with ran := 10000 }).ran ∧
    base.ran < base.pair.lastHb + 10000 ∧ (pr { keyed with downDue := true }).pair.downDue = true ∧ base.pair.downDue = false := by decide
theorem wit_PairRoles :
    ((pr keyed).pair.pend = none ∧ (pr { keyed with pend := some (2000, true, false) }).pair.pend = some (2000, true, false) ∧ 2000 ≠ (2001#64).toNat) ∧
    (atBoundary base = true ∧ (1001 : Nat) ≤ base.ring + 1 ∧ base.ring + 1 < 1002) ∧ (base.ring < 1001 ∧ (1000 : Nat) ≤ base.ring) ∧
    (let s := pr { keyed with queue := [(1, 5, zeros 49)], ringNotices := 8191 }
     pairKeyed s = true ∧ s.pair.queue.take (min 24 (8192 - s.pair.ringNotices)) ≠ []) ∧
    (let n : List Byte := [5] ++ zeros 48
     let s : State := { mb { enabled := true } with pair := { cfg := 1#128 <<< 37 } }
     n.length = 49 ∧ leAt n 0 1 = 5 ∧ pairMirror s 5 = true ∧ (mbxOf s 5).enabled = true ∧ pairMirror s 6 = false) := by decide
def tr (x : TrustSt) (o : Mbx := { enabled := true }) : State := { base with trust := x, host := { mbx := [(k1 5, o)] } }
theorem wit_SpdmExchange :
    (let s := tr { spdm := [(k1 5, { version := true, caps := true, algs := true, offered := some [1], keyEx := true })] }
     let x := spdmOf s 5
     transportOpen s 5 = true ∧ x.version = true ∧ x.caps = true ∧ x.algs = true ∧ x.offered = some [1] ∧ x.keyEx = true ∧ keyAccepted s 5 [1] = true ∧
       halted s = false ∧ tget [] s.trust.binding (k1 5) = []) ∧
    (let s := tr { binding := [(k1 5, [1])] }; keyAccepted s 5 [2] = false ∧ (spdmOf s 5).version = false ∧ (spdmOf s 5).algs = false ∧ (spdmOf s 5).offered = none) ∧
    (let s := { haltS with host := base.host }; transportOpen s 32 = true ∧ halted s = true) ∧
    (let s := { tr { sess := [(k1 5, some { lastMsg := 1 })] } with ran := 60000001 }; session s 5 = some { lastMsg := 1 } ∧ 1 + 60000000 ≤ s.ran) ∧
    (let s := tr { recovery := true }; transportOpen s 32 = true ∧ s.trust.recovery = true ∧ halted s = false) ∧
    session base 5 = none := by decide
theorem wit_ManagementPort :
    (let s := tr { sess := [(k1 32, some {})] }
     halted s = false ∧ s.trust.recovery = false ∧ session s 32 ≠ none ∧ s.trust.runB = false ∧ (mbxOf s 0).enabled = false ∧
       (∀ c ∈ allCids, c ≠ 0 → cmpDefined s c = true → (cmpOf s c).pasid ≠ 8)) ∧
    (tr { runB := true }).trust.runB = true ∧ (tr { recovery := true }).trust.recovery = true ∧ session base 32 = none ∧ (5 : Fin 33).val ≠ 32 ∧
    (let s : State := { tr { sess := [(k1 32, some {})] } with host := { mbx := [(k1 0, { enabled := true })] } }
     session s 32 ≠ none ∧ (mbxOf s 0).enabled = true) := by decide

/-! ### The boundary, frames, engines, queues -/

def itm (op : Op) (q : Req) (due : Nat := 1000) (rsp : Bool := false) : Item := { due := due, v := 900, op := op, req := q, rsp := rsp }
def wit1 (i : Item) (s : State := base) : State := { s with items := [i] }
theorem wit_LandingRows :
    (∀ op ∈ [Op.gateSwitch, .emFlush, .cutCommit, .baseBundleLoad, .cmpReset, .save, .freeze, .thaw, .firebreakLift, .modeSet, .lndCfgWrite],
      let s := wit1 (itm op (m 1000 3 []))
      halted s = false ∧ s.items = [itm op (m 1000 3 [])] ∧ op ≠ .barrier ∧ (itm op (m 1000 3 [])).due ≤ s.ring ∧
        s.link.downs8 = [] ∧ s.md.sleepDue = [] ∧ atBoundary s = true ∧ atBoundary { s with clock := 1 } = false) ∧
    (m 1000 3 []).who = 3 ∧ (m 1000 3 []).arg1.toNat = 3 ∧ base.ring < (itm .lndCfgWrite (m 1001 0 []) 1001).due := by decide
theorem wit_LandingEffects :
    (∀ op ∈ [Op.lndCfgWrite, .dramCfgWrite, .timCtlWrite, .blazeCfgWrite, .radioWinWrite, .tallyCfgWrite, .counterProgram, .cvArm, .emFlush,
        .gateSwitch, .groupSleep], (itm op (m 1000 0 [])).rsp = false ∧ (itm op (m 1000 0 [])).due ≤ base.ring) ∧
    (atBoundary base = true ∧ base.link.downs8 = [] ∧ base.md.sleepDue = []) ∧
    (let q : Req := { o 1000 3 [] with arg1 := 3 }; secyMine { withSecy with items := [] } q = true ∧ secyMine base q = false) ∧
    (cmpDefined base 5 = true ∧ ({ m 1000 5 [] with arg1 := 5 }).who = 5 ∧ (o 1000 5 []).a1 9 8 = 0 ∧ (cmpOf withFrozen 5).frozen = true) ∧
    (base.md.mode = .staged ∧ modeFrom base.md.mode 1 = false ∧ modeFrom .forwarding 3 = true ∧ (m 1000 2 []).arg1.toNat = 2) := by decide
theorem wit_RingBoundary :
    (pw { on := false }).pwr.on = false ∧ haltS.md.mode = .halted ∧ halted base = false ∧
    (∀ r ∈ [1001, 1002], let u := finishRing { base with lko := { restartAt := some r } }
      restartNow { u with ring := u.ring + 1, ran := u.ran + 1, clock := 0, tim := { u.tim with stepped := false } } = decide (r ≤ 1001)) ∧
    haltS.pwr.fallAt = none ∧ base.pwr.fallAt = none ∧ base.krf.wait = none ∧ enginesEmpty base = true ∧ atBoundary base = true ∧
    (let s : State := { base with krf := { wait := some {}, queue := [] } }; s.krf.wait = some {} ∧ enginesEmpty s = true) ∧
    enginesEmpty { base with krf := { eng := [(k2 0 0, { phase := 1 })] } } = false := by decide

def upS : State := { base with link := { port := [(k1 3, { cfg := pcfg, up := true })] } }
theorem wit_FrameReceive :
    let n (k : Nat) : List Byte := zeros k
    halted upS = false ∧ (port upS 3).up = true ∧ (port base 3).up = false ∧ (n 59).length + 4 < 64 ∧ fld (port upS 3).cfg 61 48 = 9216 ∧
    64 ≤ (n 60).length + 4 ∧
    (let b : List Byte := zeros 12 ++ [0x88, 0x08, 0x00, 0x01] ++ zeros 44; beAt b 12 2 = 0x8808 ∧ beAt b 14 2 = 0x0001) ∧
    (let b : List Byte := zeros 12 ++ [0x88, 0x08, 0x00, 0x02] ++ zeros 44; beAt b 14 2 ≠ 0x0001 ∧ beAt b 14 2 ≠ 0x0101) ∧
    beAt (n 60) 12 2 ≠ 0x8808 ∧ (match (msecRx 3 (n 60) true upS).1 with | .clear => true | _ => false) = true ∧
    (let s : State := { upS with link := { upS.link with secy := [(k2 3 0, { rec_ := 0x4225#128, scs := [(2, 0, true)], sas := [{ handle := key4, an := 0, tx := false, sc := 2, pn := 1, ssci := 0 }] })] } }
     (match (msecRx 3 (zeros 12 ++ [0x88, 0xE5, 0xFF] ++ zeros 60) true s).1 with | .bad => true | _ => false) = true) := by decide

/-- A copy of a frame of 96 bytes, without FCS, of CID 5 from port 3. -/
def cp (copies : Nat := 1) (ser : Nat := 1) : Copy :=
  { fi := { stamp := mkStamp 1000 3 5 3 0 false false false 0 100, pv := 0, time := 0, bytes := zeros 96, action := 0, copies := copies,
            pset := none, serial := ser, pos := 0, prio := 0 },
    port := 3, cls := 2, ord := 0, q := 990 }
def cell (seq : Nat) (ep : Nat := 0) (at_ : Nat := 0) : Cell :=
  { plane := 1, src := 2, dst := 3, seq := seq, first := true, last := true, index := 0, epoch := ep, copy := cp, at_ := at_ }
theorem wit_Crossing :
    (base.lnd.pipe = [] ∧ base.lnd.mtch = [] ∧ base.lnd.voq = [] ∧ base.lnd.path = []) ∧
    (pathOf { base with lnd := { path := [(k2 2 3, { cur := some (cp, 0) })] } } 2 3).cur = some (cp, 0) ∧ 0 + 1 = copyCells cp ∧
    copyCells { cp with fi := { cp.fi with stamp := mkStamp 1000 3 5 3 0 false false false 0 257 } } = 2 ∧
    (let s : State := { base with lnd := { flight := [cell 9] } }
     let mine (x : Cell) : Bool := x.plane == 1 && x.src == 2 && x.dst == 3 && x.seq == 9
     s.lnd.flight.find? mine = some (cell 9) ∧ (cell 9).epoch = (unitSt s (uPlane 1)).epoch ∧ (cell 9 1).epoch ≠ (unitSt s (uPlane 1)).epoch ∧
     seqAhead (reseqOf s 2 3).next 63 < 64 ∧ 64 ≤ seqAhead (reseqOf s 2 3).next 64 ∧ (reseqOf s 2 3).next ≠ 9 ∧
       (reseqOf s 2 3).next ∉ (reseqOf s 2 3).void_ ∧ (∀ y ∈ (reseqOf s 2 3).held, y.seq ≠ (reseqOf s 2 3).next) ∧
     base.lnd.flight.find? mine = none ∧ ((0 : Fin 17), true) ∈ [((0 : Fin 17), true)] ∧ atBoundary base = true) ∧
    (let s : State := { base with lnd := { reseq := [(k2 2 3, { held := [cell 9 0 1599680] })] } }
     let r := reseqOf s 2 3
     (cell 9 0 1599680).at_ ≤ s.ran * 1600 + 0 ∧ s.ran * 1600 + 0 < (cell 9 0 1600001).at_ ∧
     (∀ y ∈ r.held, y.seq ≠ r.next) ∧ (∃ y ∈ r.held, y.at_ + fld s.lnd.cfg 26 16 ≤ s.ran * 1600 + 0) ∧
     (∀ y ∈ [cell 9 0 1599681], s.ran * 1600 + 0 < y.at_ + fld s.lnd.cfg 26 16)) := by decide
/-- A CURRENT cut 3 of CID 5 whose action 0 has a kerf entry. -/
def kf (e : Nat) (x : KrfSt) : State :=
  { upS with krf := x, cut := { cuts := [{ handle := 3, cid := 5, number := 1, state := 1, signed := false, rotation := 0, target := 900, body := { acts := [(k1 0, some (1, BitVec.ofNat 128 e))] } }] } }
theorem wit_KerfRoutines :
    (let s := kf 64 { queue := [(k1 0, [cp])] }
     let u : State := { s with clock := 7 }
     halted s = false ∧ tget [] s.krf.ready (k1 0) = [] ∧ tget [] s.krf.queue (k1 0) = [cp] ∧ cp.at_ ≤ nowClk u ∧ tget 0 s.krf.next (k1 0) ≤ nowClk u ∧
       storesBad s cp [] = [] ∧ actEntry (copyAct s cp) ≠ 0 ∧ engBusy u 0 0 = false) ∧
    nowClk { base with clock := 7 } < ({ cp with at_ := 1600008 } : Copy).at_ ∧
    (let s := kf 64 { queue := [(k1 0, [cp])], eng := (List.range 32).map (fun e => (k2 0 e, { phase := 1 })) }
     ∀ e, e < 32 → engBusy { s with clock := 7 } 0 e = true) ∧
    actEntry (copyAct (kf 0 {}) cp) = 0 ∧ tget [] base.krf.queue (k1 0) = [] ∧
    (let s := kf 64 { eng := [(k2 0 0, { phase := 2 }), (k2 0 1, { phase := 1, copy := some cp })] }
     (engOf s 0 0).phase = 2 ∧ (engOf s 0 0).copy = none ∧ (engOf s 0 1).copy = some cp ∧ (engOf s 0 1).phase = 1 ∧ engDue (engOf s 0 1) ≤ nowClk { s with clock := 7 } ∧
       nowClk { s with clock := 7 } < engDue { engOf s 0 1 with disp := 1600008 } ∧ storeBad s 0 0 = false ∧ storeBad s 0 16384 = false) ∧
    (let d : Done := { copy := cp, bytes := zeros 96, out := 0 }
     let s := kf 64 { order := [(k1 0, [{ serial := 1, ord := 0, port := 3, cls := 2, done := some d }])] }
     (tget [] s.krf.order (k1 0)).find? (fun o => o.port == 3 && o.cls == 2) = some { serial := 1, ord := 0, port := 3, cls := 2, done := some d } ∧
     (0 : Nat) ≤ nowClk s ∧ nowClk s < ({ serial := 1, ord := 0, port := 3, cls := 2, at_ := 1600001 } : Slot220).at_ ∧
     tget 0 s.cmp.detached (k2 (stCid d.copy.fi.stamp) d.copy.port) ≤ d.copy.q ∧ stale s d.copy = false ∧ (port s d.copy.port).up = true ∧ attached s (stCid d.copy.fi.stamp) d.copy.port = true ∧ egressOwn s d = true ∧ oversizeHead s 3 = none ∧
     (∀ o ∈ tget [] s.krf.order (k1 0), o.port ≠ 4 ∨ o.cls ≠ 2)) := by decide +kernel
/-- Two words of an empty store: condition 0, and 15. -/
theorem wit_KerfRoutines_word : fld (0#32) 31 18 = 0 ∧ fld (15#32) 31 18 = 0 ∧ fld (0#32) 3 0 < 14 ∧ fld (15#32) 3 0 = 15 ∧
    bit (0 : BitVec 256) 240 = false := by decide +kernel
theorem wit_KerfRoutines_causes :
    (runWord (inRegions (kf 64 {}) 5) { phase := 1, copy := some cp } cp (actView (kf 64 {}) cp none) 0).causes = [] := by decide +kernel
theorem wit_KerfRoutines_nano :
    let s := kf 64 { eng := [(k2 0 1, { phase := 1, copy := some cp })] }
    tget 0 (storesAt s 0).nano (k1 0) = 0 ∧ tget 0 (storesAt s 0).micro (k1 (engOf s 0 1).upc) = 0 ∧ (engOf s 0 1).used + 1 < copyBudget cp ∧
      (actView s cp none).bad 0 = false := by decide +kernel
theorem wit_KerfBudget : copyBudget cp = 33 ∧
    (∀ u ∈ [32, 33, 48, 49], u < copyBudget cp ∨ (copyBudget cp ≤ u ∧ u < copyBudget cp + 16) ∨ copyBudget cp + 16 ≤ u) ∧
    ({ handler := some 0 } : Eng).handler = some 0 ∧ ({} : Eng).handler = none ∧ ({ handler := some 4 } : Eng).handler = some (3 + 1) := by decide
theorem wit_KerfAlu : 8 ∈ [8, 16, 32, 64] ∧ 1 < 2 ∧ (alu 2 8 255 1 0 0).c = true ∧ (alu 2 8 127 1 0 0).v = true ∧ (alu 0x0C 8 0x80 9 0 0).r = 0xFF := by decide

def dn (cls : Nat) (arr : Nat := 0) : Done := { copy := { cp with cls := cls }, bytes := zeros 96, out := 0, arr := arr }
def sq (x : SchSt) : State := { upS with sch := x }
theorem wit_SchedulerRows :
    ((port upS 3).up = true ∧ upS.link.squelched = false ∧ (sq {}).sch.queue = [] ∧ (port base 3).up = false) ∧
    (let s := sq { queue := [(k3 3 7 5, [dn 7])] }
     let u : State := { s with clock := 7 }
     let t := nowClk u + 16
     let a := macAdvance 3 t u
     heads a 3 = [(k3 3 7 5, dn 7)] ∧ mayBegin a 3 t (dn 7) = true ∧ gateOversize a 3 7 (wireClocks a 3 (wireBytes a 3 (dn 7))) = false) ∧
    (∀ d ∈ [none, some 1600007], let x : TxFrame := { len := 100, copy := cp, frag := some 1500000, sent := 100, done := d, out := 1 }
     let s := sq { tx := [(k1 3, [x])] }
     let v := cellCredits (nowClk { s with clock := 7 }) { s with clock := 7 }
     tabWf 0 s.lnd.credit = true ∧ (tget [] v.sch.tx (k1 3)).map TxFrame.copy = [cp] ∧ (d = some 1600007 → (tget [] v.sch.tx (k1 3)).map TxFrame.done = [d])) ∧
    guardIdles (markShaped 3 1600000 { upS with clock := 0 }) 3 1600000 = false ∧
    (let s := sq { queue := [(k3 3 7 5, [dn 7])], bank := [(k2 3 0, { ents := [0x7F0000#32] })] }
     guardIdles (markShaped 3 1600000 { s with clock := 0 }) 3 1600000 = true ∧ tget 0 s.sch.guard (k1 3) = 0) ∧ tabWf 0 upS.sch.lack = true := by decide +kernel
theorem wit_ServiceOrder :
    (let s : State := { upS with sch := { bank := [(k2 3 0, { hdr := 0x100000010001#64, ents := [0x7F0000#32] })] } }
     let l := [(k3 3 7 5, dn 7), (k3 3 7 6, dn 7 1), (k3 3 2 5, dn 2)]
     (∀ x ∈ l, x.1.2.1 < 8 ∧ x.1.2.2 < 32) ∧ (∃ x ∈ l, gated s 3 x.1.2.1 = true)) ∧
    (∀ x ∈ [(k3 3 6 5, dn 6), (k3 3 2 5, dn 2)], ¬ gated upS 3 x.1.2.1 = true) ∧
    (∀ x ∈ heads upS 3, x.1.2.2 = 5 → 6 ≤ x.1.2.1 ∨ gated upS 3 x.1.2.1 = true ∨ flowClear upS 3 x.2 = false) ∧
    (let x := (k3 3 2 5, dn 2)
     let v (d : Nat) : State := sq { queue := [(k3 3 2 5, [dn 2])], deficit := [(k2 3 5, d)] }
     ¬ gated (v 0) 3 x.1.2.1 = true ∧ x.1.2.1 < 6 ∧
     wireBytes (dropIdle 3 (v 120)) 3 x.2 ≤ tget 0 (dropIdle 3 (v 120)).sch.deficit (k2 3 5) ∧
     tget 0 (dropIdle 3 (v 119)).sch.deficit (k2 3 5) < wireBytes (dropIdle 3 (v 119)) 3 x.2) := by decide

def vq (v : Voq) (s : State := upS) : State := { s with lnd := { voq := [(k3 0 3 2, v)] } }
theorem wit_SpillRows :
    (voqOf upS (k3 0 3 2)).spilling = false ∧ (voqOf upS (k3 0 3 2)).tail = [] ∧
    (let s := vq { spilling := true, tail := [cp] }; let v := voqOf s (k3 0 3 2)
     v.tail = [cp] ∧ v.spilling = true ∧ v.writing = none ∧ walkDue s (k3 0 3 2) = false ∧ writeHeld s (k3 0 3 2) = false ∧ v.part = 0 ∧
       storesBad s cp [] = [] ∧ storesBad s cp [1] ≠ []) ∧
    writeHeld { vq { spilling := true, tail := [cp] } with buf := { spill := 0 } } (k3 0 3 2) = true ∧ turnVoq upS 0 = none ∧
    (let s := vq { spilling := true, dram := [{ cp with doomed := true }] } base
     walkDue s (k3 0 3 2) = true ∧ (voqOf s (k3 0 3 2)).writing = none ∧ (voqOf s (k3 0 3 2)).reading = false ∧ reqsOf s 4 (k3 0 3 2) = false ∧
       reqsOf { s with dram := { reqs := [{ cls := 4, page := 1, write := false, voq := k3 0 3 2 }] } } 4 (k3 0 3 2) = true) := by decide
/-- A VOQ whose turn it is, with room in the staging area, and with none. -/
theorem wit_SpillRows_readback :
    let s := vq { spilling := true, dram := [cp] }
    turnVoq s 0 = some 26 ∧ voqKey 0 26 = k3 0 3 2 ∧ (voqOf s (k3 0 3 2)).dram = [cp] ∧ cp.doomed = false := by decide
/-- Its state, and that state with every staging cell of group 0 taken. -/
def readS : State := vq { spilling := true, dram := [cp] }
def fullS : State :=
  { readS with buf := { staging := [(k1 0, (List.range 1024).map (fun i => 573440 + 1024 * 0 + i))] } }
theorem wit_SpillRows_staging : stageWaits readS 0 = false := by decide +kernel
theorem wit_SpillRows_full : stageWaits fullS 0 = true := by
  have h : (stagingFree fullS 0).length = 0 := by
    have h2 : stagingOf fullS 0 = (List.range 1024).map (fun i => 573440 + 1024 * 0 + i) := rfl
    rw [stagingFree, h2, List.length_eq_zero_iff, List.filter_eq_nil_iff]
    intro x hx; simp only [List.contains_iff_mem.mpr hx, Bool.not_true, Bool.false_eq_true, not_false_eq_true]
  have ht : turnVoq fullS 0 = some 26 := by decide +kernel
  have hd : (voqOf fullS (voqKey 0 26)).dram.find? (fun c => !c.doomed) = some cp := by decide +kernel
  simp only [stageWaits, ht, hd, h]
  decide
def dr (x : DramSt) (s : State := upS) : State := { s with dram := x }
def rq (cls : Nat) (w : Bool) : DReq := { id := 4, cls := cls, page := 32, cid := 255, write := w, slots := [1, 2], voq := k3 0 3 2 }
theorem wit_DramController_serves :
    (∀ r ∈ [rq 0 false, rq 1 true, rq 3 false, rq 4 false, rq 5 false, rq 5 true, rq 2 true],
      let z : State := { dr { reqs := [r] } with clock := 1137 }
      chLive z 0 = true ∧ pageCh z r.page = 0 ∧ nextServe z 0 = some r ∧ servable z 0 r = true ∧ servedNow z 0 = some r ∧
        tget 0 z.dram.served (k2 0 1) < 4) := by decide +kernel
theorem wit_DramController_chooses :
    servedNow upS 0 = none ∧ stageDue (clkOf upS 0) upS = upS ∧
    (let x : DReq := { rq 0 false with id := 1 }
     let z := dr { reqs := [x, rq 1 true], dir := [(k1 0, 2)], turns := [(k1 0, 4)] }
     4 ≤ tget 0 z.dram.turns (k1 0) ∧ nextServe z 0 = some (rq 1 true) ∧ x ∈ dramReady z 0 ∧ rq 1 true ∈ dramReady z 0 ∧
       x.at_ ≤ firstStart z 0 (dramReady z 0) ∧ dramDir (rq 1 true) = 2 ∧ dramDir x ≠ 2) ∧
    (voqOf (vq { spilling := true, dram := [cp] }) (rq 0 false).voq).dram = [cp] := by decide +kernel
theorem wit_DramController :
    chLive { base with variant := .e } 0 = false ∧
    (chLive base 1 = true ∧ (rankOf base 1 0).state = 0 ∧ base.ring % 3 = 1 % 3 ∧ (rankOf base 1 0).refreshed ≠ base.ran + 1 ∧
      (rankOf (dr { rank := [(k2 0 0, { hot := true })] }) 0 0).hot = true ∧ base.ring % 3 ≠ 0 % 3 ∧ base.ring % 100000 ≠ 6250 * 0 ∧
      (rankOf (dr { rank := [(k2 1 0, { refreshed := 1001 })] }) 1 0).refreshed = base.ran + 1) ∧
    (let s := { base with ring := 106250 }; chLive s 1 = true ∧ s.ring % 100000 = 6250 * 1 ∧ tget 0 s.dram.paused (k1 1) ≠ s.ran + 1) ∧
    (∀ n ∈ [9999, 10000], let s := { base with ran := n }
     bit s.dram.cfg 0 = true ∧ (max (rankOf s 1 0).lastReq s.dram.since + idleRings s ≤ s.ran ↔ n = 10000) ∧ rankHolds s 1 0 = false ∧
       atBoundary s = true ∧ (rankOf s 1 0).state = 0) ∧
    (∀ c ∈ [479, 480], let s := { dr { rank := [(k2 1 0, { state := 2, wakeAt := 1600480 })] } with clock := c }
      (rankOf s 1 0).state = 2 ∧ ((rankOf s 1 0).wakeAt ≤ nowClk s ↔ c = 480)) ∧
    (32000 : Nat) % 32000 = 0 ∧ base.ring % 32000 ≠ 0 ∧ base.clock = 0 ∧ base.dram.hamWin ≠ base.ran + 1 ∧ bit base.dram.cfg 21 = true ∧ base.variant ≠ .e ∧
    scrubPick (vq { spilling := true, pages := [(0, 1)] }) 64 0 = (some 0, 1) ∧ scrubPick base 64 0 = (none, 0) ∧
    (3, 2, 7) ∈ (dr { victims := [(3, 2, 7)] }).dram.victims ∧
    base.dram.walk = false ∧ (dr { walk := true }).dram.walk = true ∧ reqsOf base 4 chainKey = false ∧ heldPages base = [] ∧
    (heldPages (vq { pages := [(0, 1)] })).filter (fun p => !isFenced base (uChannel (pageCh base p))) ≠ [] ∧
    (0 : Nat) < 2 ^ 25 ∧ (1, 30, 64) ∈ slotBursts 15 ∧ (65537 : Nat) % 65536 = 1 % 65536 := by decide +kernel
def cap_ (t : Tly) (r : TRec) : State := { base with cap := { staging := [(k1 0, [r])], tly := [(k1 5, t)] } }
theorem wit_CaptureRows :
    (∀ rot ∈ [0, 1], let s := cap_ { cfg := 0x201#64 } { cid := 5, rotation := rot, bytes := zeros 256 }
      s.cap.staging = [(k1 0, [{ cid := 5, rotation := rot, bytes := zeros 256 }])] ∧ atBoundary s = true ∧
        ((rot = (cmpOf s 5).rotation.toNat) ↔ rot = 0)) ∧
    (∀ d ∈ base.cap.due, nowClk base < d.at_) ∧ base.cap.staging = [] ∧ bit (tlyOf (cap_ {} { cid := 5, rotation := 0, bytes := [] }) 5).cfg 0 = false ∧
    (∀ n ∈ [15, 16], let s : State := { base with clock := 1, cap := { staging := [(k1 0, List.replicate n { cid := 5, rotation := 0, bytes := [] })] } }
      atBoundary s = false ∧ (stagedOf s 5 < 16 ↔ n = 15)) ∧
    (let t : Tly := { cfg := 0x201#64, next := 32 }
     bit t.cfg 0 = true ∧ tlyN t = 32 ∧ tlyN t ≠ 0 ∧ tlyOverrun t = false ∧ t.released ≤ t.next ∧ t.released + tlyN t ≤ t.next ∧ 31 < t.released + tlyN t ∧
       tlyOverrun { t with cfg := 0x205#64 } = true) ∧
    (∀ d ∈ [900, 901], let c : Cv := { armed := true, start := 100, dur := d }; c.armed = true ∧ (c.start + c.dur ≤ base.ring ↔ d = 900)) := by decide
def lr : LearnReq := { ring := 998, ord := 0, handle := 3, cid := 5, rotation := 0, table := 1, wide := false, port := 3, key := 9, res := 7, tmpl := 7, static_ := false }
def tblS (x : BitVec 64) : State :=
  { base with cut := { cuts := [{ handle := 3, cid := 5, number := 1, state := 1, signed := false, rotation := 0, target := 900, body := { emTbl := [(k1 1, x)] } }] } }
theorem wit_LearnAndAge :
    (let s : State := { base with em := { reqs := [lr] } }
     s.em.reqs = [lr] ∧ s.tim.stepped = false ∧ { s with tim := { s.tim with stepped := true } }.tim.stepped = true ∧ lr.ring + 2 ≤ s.ring ∧ ({ lr with ring := 999 }).ring + 2 > s.ring ∧ lr.rotation = (cmpOf s lr.cid).rotation ∧
       ({ lr with rotation := 1 }).rotation ≠ (cmpOf s lr.cid).rotation ∧ s.em.ents = [] ∧ 0 < (cmpOf s lr.cid).emQuota ∧
       (cmpOf { s with cmp := { cmp := [(k1 5, { emQuota := 0 })] } } 5).emQuota ≤ learnedOf s 5) ∧
    (let s := tblS (BitVec.ofNat 64 (3 + 2 * 4 + 500 * 2 ^ 32))
     (emTblNow s 5 1).any (fun x => emAgeEn x && emPeriod x != 0 && s.ring % emPeriod x == 0) = true ∧
     (emTblNow (tblS 1) 5 1).any (fun x => !emAgeEn x) = true ∧ emTblNow base 5 1 = none ∧ s.em.ticks = []) ∧
    (∀ d ∈ [1000, 1001], let s : State := { base with em := { flushes := [(3, d)], parity := [(4, d)] } }
      s.em.flushes = [(3, d)] ∧ s.em.parity = [(4, d)] ∧ (d ≤ dueRing s ↔ d = 1000)) ∧
    emCovers false 1 77 { uid := 1, cid := 5, table := 1, wide := false, learned := true, key := 9, res := 7, bank := 1, index := 77, stash := false, act := 1, wrote := 1 } = true := by decide
theorem wit_RetireMoveEmpty :
    (∀ r ∈ [999, 1000], let x : Cut := { handle := 3, cid := 5, number := 1, state := 2, signed := false, rotation := 0, target := 900, supRing := r, body := {} }
      let s : State := { base with cut := { cuts := [x], idle := [3] } }
      atBoundary s = true ∧ s.cut.cuts.find? (fun x => x.cid == 5 && x.handle == 3) = some x ∧ (retirable s x = true ↔ r = 999) ∧
        retirable { s with cut := { s.cut with idle := [] } } x = false) ∧
    base.cut.cuts = [] ∧ base.grv.jobs = [] ∧ ({ base with grv := { jobs := [{ req := o 0 0 [], v := 1 }] } }).grv.jobs ≠ [] ∧
    grovePresent base.variant 3 = true ∧ isFenced base (uGrove 3) = false ∧ grovePresent .e 3 = false ∧
    (let s : State := { base with cmp := { cmp := [(k1 5, { factoryCid0 .f with frozen := true })] } }
     (cmpOf s 5).defined = true ∧ (cmpOf s 5).frozen = true ∧ (cmpOf s 5).emptyPosted = false ∧ isEmpty s 5 = true ∧ atBoundary s = true) := by decide

/-! ### The rest -/

theorem wit_LaentAccepted : (goodOps.any (fun o => opEff o == .target && passesB o)) = true := by decide
theorem wit_LaentNext : (goodOps.any (fun o => opEff o == .next && passesB o)) = true := by decide
theorem wit_LaentNow : (nowOps.any (fun o => opEff o == .now && passesB o) && nowOps.any (fun o => opEff o == .stage && passesB o)) = true := by decide
theorem wit_LaentReads : [Op.identityRead, .portRead, .cageRead, .timSrcRead, .bundleList, .abortFrameRead, .cutRead, .schedRead, .cvRead,
    .cmpRead, .faultRead, .calExport, .pairStatusRead, .grvRead].all (fun o => goodOps.contains o && passesB o) = true := by decide
theorem wit_HaltEffects : halted base = false ∧ (∃ k : Fin 4, HaltFind.supply 2 = .supply k ∧ ((0x48, 0x0F08, [3]) : Nat × Nat × List Nat) = (0x48, 0x0F08, [k.val + 1])) :=
  ⟨by decide, 2, rfl, rfl⟩
theorem wit_ResponseOrder :
    (∀ e ∈ [({ tag := 1, op := 1, v := 1, long := false, ans := some {} } : ReadEnt), { tag := 2, op := 1, v := 1, long := false }], e.long = false) ∧
    (∀ e ∈ [({ tag := 1, op := 1, v := 1, long := true } : ReadEnt), { tag := 2, op := 1, v := 1, long := true, ans := some {} }], e.long = true) := by decide
theorem wit_StepRunsTheFront : ({ base with pending := [.ringBoundary] } : State).pending = [.ringBoundary] ∧ base.pending = [] := by decide
theorem wit_LandingOrder : let s : State := { base with items := [itm .freeze (o 1000 5 []), itm .portReset (m 1000 3 []) 1001, itm .thaw (m 1000 0 [])] }
    (dueItems s).map Item.op = [.thaw, .freeze] := by decide
theorem wit_PlaneMatching : (matchPlane 1 [(0, 0), (0, 1), (1, 1)] base).1.length = 2 := by decide

/-! ## Ill-formed commands -/

theorem test_wf_pfcReceive : (Instr.pfcReceive 3 0 0 [0, 0]).wf = false ∧ (Instr.pfcReceive 3 0 0 (List.replicate 8 0)).wf = true := by decide
theorem test_wf_frameReceive : (Instr.frameReceive 3 0 { bytes := [] }).wf = false ∧ (Instr.frameReceive 3 0 { bytes := [1] }).wf = true := by decide
theorem test_wf_sweeperVisit : (Instr.sweeperVisit 0 524288 true).wf = false ∧ (Instr.sweeperVisit 4 256 true).wf = false ∧
    (Instr.sweeperVisit 0 524287 true).wf = true := by decide
theorem test_wf_groveScrub : (Instr.groveScrub 0 32768 none).wf = false ∧ (Instr.groveScrub 4 4096 none).wf = false := by decide
theorem test_wf_opticInsert : (Instr.opticInsert 3 (some [1]) 0 0 0 0).wf = false ∧ (Instr.opticInsert 3 none 0 0 0 0).wf = true := by decide
theorem test_wf_opticPoll : (Instr.opticPoll 3 0 0 [1] [] 0).wf = false ∧ (Instr.opticPoll 3 0 0 (List.replicate 9 1) (List.replicate 9 1) 0).wf = false := by decide
theorem test_wf_commandFetch : (Instr.commandFetch 3 (zeros 63) [] true).wf = false ∧ (Instr.commandFetch 3 (zeros 64) [] true).wf = true := by decide
theorem test_wf_keyOffer : (Instr.keyOffer ⟨3, false⟩ (zeros 95)).wf = false ∧ (Instr.keyOffer ⟨3, false⟩ (zeros 96)).wf = true := by decide
theorem test_wf_fwLoad : (Instr.fwLoad 32 true 0 { version := 65536 }).wf = false ∧ (Instr.fwLoad 32 true 0 { version := 65535 }).wf = true := by decide
theorem test_wf_heartbeat : (Instr.heartbeat 1 true (zeros 319) 0).wf = false := by decide
theorem test_wf_dramPageDone : (Instr.dramPageDone 3 0 ⟨false, [(0, 0, 0, [0, 0, 0, 0, 1])]⟩).wf = false ∧
    (Instr.dramPageDone 3 0 ⟨false, [(0, 0, 0, [0, 0, 0, 1])]⟩).wf = true := by decide
theorem test_wf_notice : (Instr.notice 1 true []).wf = false ∧ (Instr.notice 1 true (zeros 50)).wf = false ∧ (Instr.notice 1 true (zeros 49)).wf = true := by decide
/-- A payload above 16 MiB. -/
theorem test_wf_request (b : List Byte) (h : b.length = 16777217) (x : Saved) :
    (Instr.restore { cid := 0, payload := b } x).wf = false ∧ (Instr.baseBundleLoad { cid := 0, payload := b }).wf = false ∧
    (Instr.cmpBundleLoad { cid := 0, payload := b }).wf = false ∧ (Instr.grvWrite { cid := 0, payload := b }).wf = false ∧
    (Instr.mgmtLaent .identityRead { cid := 0, payload := b }).wf = false := by
  simp [Instr.wf, Req.wf, h]

/-! ## The spec's own numbers -/

/-- The queue: the front command is carried out, an empty queue idles. -/
theorem test_step_front : (match step { base with pending := [.ringBoundary] } with | .next t => t.ring | _ => 0) = 1001 := by decide +kernel
theorem test_step_idle : step base = .next base := by rfl
/-- R390, R402: count 8193 names slot 1 of the event ring and is the event's SEQ. -/
theorem test_event_slot :
    let e := tget {} (post 5 0x0401 [7] (mb { enabled := true, evtTail := 8193, evtHead := 8193, evtBase := 0x10000 })).host.evtSlots (k2 5 1)
    e.code = 0x0401 ∧ e.cid = 5 ∧ e.seq = 8193 ∧ e.body = padTo 48 [7] ∧ e.dma = { pasid := 7, addr := 0x10040 } := by decide +kernel
/-- R259: SUB leaves the borrow in C. -/
theorem test_alu_sub : (alu 4 16 0 1 0 0).r = 0xFFFF ∧ (alu 4 16 0 1 0 0).c = true ∧ (alu 4 16 0x8000 1 0 0).v = true := by decide
/-- R391: a tail behind the last is ignored and counted. -/
theorem test_tail_back : (match exec (.cmdTailWrite 5 11) (mb { cmdTail := 12, cmdHead := 10 }) with
    | .next t => ((mbxOf t 5).cmdTail, (mbxOf t 5).fault) | _ => (0, 0)) = (12, 1) := by decide
/-- R565: warnings and shutdowns of the zones, in 1/16 °C. -/
theorem test_zones : warnAt 0 = 100 * 16 ∧ shutAt 0 = 125 * 16 ∧ shutAt 2 = 90 * 16 := by decide

end Sys2Proof.Tests
end

namespace Sys2Proof.Machine

/-! ## Rows that act at a ring boundary -/

/-- A boundary row of a running module acts at the boundary. -/
theorem boundaryRow_at {s : State} (f : State → State) (hh : halted s = false) (hb : atBoundary s = true) :
    (.next (unlessHalted s (onBoundary f s)) : Out) = .next (f s) := by
  simp [unlessHalted, onBoundary, hh, hb]

/-- Away from the boundary a boundary row does nothing. -/
theorem boundaryRow_off {s : State} (f : State → State) (hb : atBoundary s = false) :
    (.next (unlessHalted s (onBoundary f s)) : Out) = .next s := by
  simp [unlessHalted, onBoundary, hb]

/-- A boundary row that changes nothing at the boundary does nothing. -/
theorem boundaryRow_idle {s : State} {f : State → State} (hh : halted s = false) (h : atBoundary s = true → f s = s) :
    (.next (unlessHalted s (onBoundary f s)) : Out) = .next s := by
  cases hb : atBoundary s with
  | false => exact boundaryRow_off f hb
  | true => rw [boundaryRow_at f hh hb, h hb]

theorem unlessHalted_running {s : State} (t : State) (hh : halted s = false) : unlessHalted s t = t := by
  simp [unlessHalted, hh]

/-! ## Folds over the state -/

/-- What no step of a fold changes stands at its end. -/
theorem foldS_fixed {α : Type} {f : α → State → State} {s : State} {l : List α} (h : ∀ a ∈ l, f a s = s) : foldS l f s = s := by
  unfold foldS
  induction l with
  | nil => rfl
  | cons a l ih =>
    rw [List.foldl_cons, h a List.mem_cons_self]
    exact ih (fun b hb => h b (List.mem_cons_of_mem _ hb))

/-- What holds at the start of a fold and is kept by its every step holds at its end. -/
theorem foldS_induct {α : Type} {P : State → Prop} {f : α → State → State} (h : ∀ a t, P t → P (f a t)) (l : List α) {s : State}
    (hs : P s) : P (foldS l f s) := by
  unfold foldS
  induction l generalizing s with
  | nil => exact hs
  | cons a l ih => exact ih (h a s hs)

end Sys2Proof.Machine

namespace Sys2Proof.Machine

/-! ## What the evaluation of the timing state leaves unchanged -/

/-- `t` has the timing state of `s`, the ring since which it stands and the start of its slew, and the mode, the order variant,
the Landing and the cuts of `s`. -/
structure KeepsTimingState (s t : State) : Prop where
  state : t.tim.state = s.tim.state
  since : t.tim.stateSince = s.tim.stateSince
  slewStart : t.tim.slewStart = s.tim.slewStart
  mode : t.md.mode = s.md.mode
  variant : t.variant = s.variant
  lnd : t.lnd = s.lnd
  cut : t.cut = s.cut

theorem KeepsTimingState.trans {s t u : State} (h : KeepsTimingState s t) (g : KeepsTimingState t u) :
    KeepsTimingState s u :=
  ⟨g.state.trans h.state, g.since.trans h.since, g.slewStart.trans h.slewStart, g.mode.trans h.mode,
    g.variant.trans h.variant, g.lnd.trans h.lnd, g.cut.trans h.cut⟩

theorem KeepsTimingState.timeFarAt (i : Nat) (s : State) : KeepsTimingState s (timeFarAt i s) := by
  constructor <;> simp [Machine.timeFarAt] <;> rfl

theorem KeepsTimingState.initialAlign (s : State) : KeepsTimingState s (initialAlign s) := by
  unfold Machine.initialAlign
  split
  · exact ⟨rfl, rfl, rfl, rfl, rfl, rfl, rfl⟩
  · dsimp only
    split
    · split
      · exact ⟨rfl, rfl, rfl, rfl, rfl, rfl, rfl⟩
      · split
        · refine KeepsTimingState.trans ?_ (.timeFarAt _ _)
          exact ⟨rfl, rfl, rfl, rfl, rfl, rfl, rfl⟩
        · exact ⟨rfl, rfl, rfl, rfl, rfl, rfl, rfl⟩
    · exact ⟨rfl, rfl, rfl, rfl, rfl, rfl, rfl⟩

/-- The state on which the table of R59 is judged: the grid aligned, the cartridge and the source as they stand at this boundary. -/
def timJudged (s : State) : State :=
  let s := initialAlign s
  selectSrc (cartLeaves { s with tim := { s.tim with evalRing := s.ring } })

theorem KeepsTimingState.timJudged (s : State) : KeepsTimingState s (timJudged s) :=
  (KeepsTimingState.initialAlign s).trans ⟨rfl, rfl, rfl, rfl, rfl, rfl, rfl⟩

/-- The phase source that the DPLL followed before the boundary. -/
def followed (s : State) : Option Nat := if s.tim.phaseSel then s.tim.source else none

theorem timEval_eq (s : State) :
    timEval s = if timNext (followed s) (timJudged s) = s.tim.state then turnSlew (followed s) (timJudged s)
      else setTim (timNext (followed s) (timJudged s)) (timJudged s) := by
  rw [← (KeepsTimingState.timJudged s).state]; rfl

theorem KeepsTimingState.turnSlew (old : Option Nat) (s : State) : KeepsTimingState s (turnSlew old s) := by
  unfold Machine.turnSlew
  split <;> exact ⟨rfl, rfl, rfl, rfl, rfl, rfl, rfl⟩

/-! ## A change of the timing state -/

/-- The slew that an entry into LOCKED or ACQUIRING starts (R60). -/
def startSlew (t : TimState) (s : State) (x : TimSt) : TimSt :=
  if t == .locked || t == .acquiring then
    { x with slewStart := s.ring, slewRan := s.ran, slewEnd := s.ran + 50 * s.tim.phaseOffset.natAbs, detExcl := true }
  else x

/-- The limit that an entry into holdover starts (R66). -/
def startHold (t : TimState) (s : State) (x : TimSt) : TimSt :=
  if (t == .holdoverCart || t == .holdoverTcxo) && !(s.tim.state == .holdoverCart || s.tim.state == .holdoverTcxo) then
    { x with holdStart := s.ran,
             holdLimit := if t == .holdoverTcxo then 1200 else if 28800 ≤ s.tim.cart.learn then 43200 else 14400 }
  else x

/-- A cartridge at the end of its life leaves use with the holdover that it carried (R64). -/
def endLife (s : State) (x : TimSt) : TimSt :=
  if s.tim.state == .holdoverCart && decide (61320 ≤ x.cart.hours) then
    { x with cart := { x.cart with inUse := false, lifeEnd := true } }
  else x

theorem setTim_tim (t : TimState) (s : State) :
    (setTim t s).tim = endLife s (startHold t s (startSlew t s { s.tim with
      state := t, stateSince := s.ring, stateRan := s.ran, okSince := none, holdExpired := false, slewEnd := 0 })) := by
  unfold setTim
  exact postTo_tim _ _ _ _

@[simp] theorem startSlew_state (t : TimState) (s : State) (x : TimSt) : (startSlew t s x).state = x.state := by
  unfold startSlew; split <;> rfl
@[simp] theorem startSlew_stateSince (t : TimState) (s : State) (x : TimSt) : (startSlew t s x).stateSince = x.stateSince := by
  unfold startSlew; split <;> rfl
@[simp] theorem startHold_state (t : TimState) (s : State) (x : TimSt) : (startHold t s x).state = x.state := by
  unfold startHold; split <;> rfl
@[simp] theorem startHold_stateSince (t : TimState) (s : State) (x : TimSt) : (startHold t s x).stateSince = x.stateSince := by
  unfold startHold; split <;> rfl
@[simp] theorem startHold_slewStart (t : TimState) (s : State) (x : TimSt) : (startHold t s x).slewStart = x.slewStart := by
  unfold startHold; split <;> rfl
@[simp] theorem startHold_detExcl (t : TimState) (s : State) (x : TimSt) : (startHold t s x).detExcl = x.detExcl := by
  unfold startHold; split <;> rfl
@[simp] theorem endLife_state (s : State) (x : TimSt) : (endLife s x).state = x.state := by
  unfold endLife; split <;> rfl
@[simp] theorem endLife_stateSince (s : State) (x : TimSt) : (endLife s x).stateSince = x.stateSince := by
  unfold endLife; split <;> rfl
@[simp] theorem endLife_slewStart (s : State) (x : TimSt) : (endLife s x).slewStart = x.slewStart := by
  unfold endLife; split <;> rfl
@[simp] theorem endLife_detExcl (s : State) (x : TimSt) : (endLife s x).detExcl = x.detExcl := by
  unfold endLife; split <;> rfl

@[simp] theorem setTim_state (t : TimState) (s : State) : (setTim t s).tim.state = t := by simp [setTim_tim]

@[simp] theorem setTim_stateSince (t : TimState) (s : State) : (setTim t s).tim.stateSince = s.ring := by simp [setTim_tim]

/-- A change to LOCKED or ACQUIRING starts a re-lock slew (R60). -/
theorem setTim_slew {t : TimState} (s : State) (h : t = .locked ∨ t = .acquiring) :
    (setTim t s).tim.slewStart = s.ring ∧ (setTim t s).tim.detExcl = true := by
  rcases h with rfl | rfl <;> simp [setTim_tim, startSlew]

@[simp] theorem setTim_ring (t : TimState) (s : State) : (setTim t s).ring = s.ring := by unfold setTim; exact postTo_ring _ _ _ _
@[simp] theorem setTim_md (t : TimState) (s : State) : (setTim t s).md = s.md := by unfold setTim; exact postTo_md _ _ _ _
@[simp] theorem setTim_variant (t : TimState) (s : State) : (setTim t s).variant = s.variant := by unfold setTim; exact postTo_variant _ _ _ _
@[simp] theorem setTim_lnd (t : TimState) (s : State) : (setTim t s).lnd = s.lnd := by unfold setTim; exact postTo_lnd _ _ _ _
@[simp] theorem setTim_cut (t : TimState) (s : State) : (setTim t s).cut = s.cut := by unfold setTim; exact postTo_cut _ _ _ _

/-! ## The table of R59 -/

/-- The changes of the table of R59. -/
def timTable : List (TimState × TimState) :=
  [(TimState.free, TimState.acquiring), (.acquiring, .locked), (.acquiring, .free), (.locked, .acquiring),
    (.locked, .holdoverCart), (.locked, .holdoverTcxo), (.locked, .free), (.holdoverCart, .holdoverTcxo),
    (.holdoverCart, .locked), (.holdoverTcxo, .locked), (.holdoverCart, .acquiring), (.holdoverTcxo, .acquiring),
    (.holdoverCart, .free), (.holdoverTcxo, .free)]

theorem lossState_cases (s : State) : lossState s ∈ [TimState.free, .holdoverCart, .holdoverTcxo] := by
  unfold lossState
  split
  · simp
  · split <;> simp

/-- What follows a state is that state or one that the table names after it. -/
theorem timNext_table (old : Option Nat) (s : State) :
    timNext old s = s.tim.state ∨ (s.tim.state, timNext old s) ∈ timTable := by
  unfold timNext
  cases s.tim.state with
  | free => dsimp only; split <;> simp [timTable]
  | acquiring => dsimp only; split <;> [skip; split] <;> simp [timTable]
  | locked =>
    dsimp only
    split
    · have := lossState_cases s
      simp only [List.mem_cons, List.not_mem_nil, or_false] at this
      rcases this with h | h | h <;> simp [h, timTable]
    · split <;> simp [timTable]
  | holdoverCart =>
    dsimp only
    split <;> [skip; split <;> [skip; split <;> [skip; split]]] <;> simp [timTable]
  | holdoverTcxo =>
    dsimp only
    split <;> [skip; split <;> [skip; split]] <;> simp [timTable]

/-- A boundary that leaves the timing state leaves the ring since which it stands and its slew. -/
theorem timEval_keeps {s : State} (h : timNext (followed s) (timJudged s) = s.tim.state) : KeepsTimingState s (timEval s) := by
  rw [timEval_eq, if_pos h]
  exact (KeepsTimingState.timJudged s).trans (.turnSlew _ _)

theorem timEval_changes {s : State} (h : timNext (followed s) (timJudged s) ≠ s.tim.state) :
    timEval s = setTim (timNext (followed s) (timJudged s)) (timJudged s) := by
  rw [timEval_eq, if_neg h]

theorem timEval_state (s : State) : (timEval s).tim.state = timNext (followed s) (timJudged s) := by
  by_cases h : timNext (followed s) (timJudged s) = s.tim.state
  · rw [(timEval_keeps h).state, h]
  · rw [timEval_changes h, setTim_state]

theorem timEval_frame (s : State) : (timEval s).md.mode = s.md.mode ∧ (timEval s).variant = s.variant ∧
    (timEval s).lnd = s.lnd ∧ (timEval s).cut = s.cut := by
  by_cases h : timNext (followed s) (timJudged s) = s.tim.state
  · have k := timEval_keeps h
    exact ⟨k.mode, k.variant, k.lnd, k.cut⟩
  · have k := KeepsTimingState.timJudged s
    simp only [timEval_changes h, setTim_md, setTim_variant, setTim_lnd, setTim_cut]
    exact ⟨k.mode, k.variant, k.lnd, k.cut⟩

/-- Where no initial alignment is due, the state judged has the phase sources, the rings run and the dates of the state before. -/
theorem timJudged_of_not_alignDue {s : State} (h : s.tim.alignDue = none) :
    bestPhase (timJudged s) = bestPhase s ∧ (timJudged s).ran = s.ran ∧ (timJudged s).tim.stateRan = s.tim.stateRan := by
  have hs : initialAlign s = s := by simp [initialAlign, h]
  simp only [timJudged, hs]
  exact ⟨rfl, rfl, rfl⟩

/-- FREE ends with the first phase source (R59). -/
theorem timNext_free {s : State} (old : Option Nat) (h : s.tim.state = .free) (hp : bestPhase s ≠ none) :
    timNext old s = .acquiring := by
  simp [timNext, h, Option.isSome_iff_ne_none, hp]

/-- A module LOCKED for less than 600 s falls to FREE with its phase sources (R59). -/
theorem timNext_locked_loss {s : State} (old : Option Nat) (h : s.tim.state = .locked) (hp : bestPhase s = none)
    (hr : s.ran < s.tim.stateRan + 600000000) : timNext old s = .free := by
  simp [timNext, h, hp, lossState, hr]

end Sys2Proof.Machine

namespace Sys2Proof.Proofs
open Machine

/-- Settles O26: the state judged at a boundary keeps the timing state, what follows it is read off the table of R59, and a change is
made by `setTim`. -/
theorem timingTransitions : Obligations.TimingTransitions := by
  intro s hh
  have hx : exec .timingStateChange s = .next (timingChange s) := congrArg _ (unlessHalted_running _ hh)
  have hstate := timEval_state s
  refine ⟨fun h => ?_, fun he hb => ⟨timEval s, ?_, ?_, fun hc => ?_, fun hc => ?_, fun ha hf hp => ?_,
    fun ha hl hp hr => ?_, timEval_frame s⟩⟩
  · rw [hx]
    rcases h with h | h <;> simp [timingChange, onBoundary, h]
  · simp [hx, timingChange, onBoundary, he, hb]
  · rw [hstate, ← (KeepsTimingState.timJudged s).state]
    exact timNext_table _ _
  · rw [timEval_changes (hstate ▸ hc), setTim_stateSince, setTim_ring, setTim_state]
    exact ⟨rfl, setTim_slew _⟩
  · have k := timEval_keeps (hstate ▸ hc)
    exact ⟨k.since, k.slewStart⟩
  · obtain ⟨hbest, -, -⟩ := timJudged_of_not_alignDue ha
    rw [hstate]
    exact timNext_free _ ((KeepsTimingState.timJudged s).state.trans hf) (hbest ▸ hp)
  · obtain ⟨hbest, hran, hsince⟩ := timJudged_of_not_alignDue ha
    rw [hstate]
    exact timNext_locked_loss _ ((KeepsTimingState.timJudged s).state.trans hl) (hbest.trans hp) (by rw [hran, hsince]; exact hr)

end Sys2Proof.Proofs

/-! ## Bring-up (R503, R508) -/

namespace Sys2Proof.Machine

/-- A mode change touches `RESTART_HOLD` alone in the Lookout (R496). -/
theorem setMode_lko (m : Mode) (cause : Nat) (s : State) :
    (setMode m cause s).lko = { s.lko with restartHold := s.lko.restartHold && m != .forwarding } := by
  unfold setMode modeState
  exact (postTo_lko _ _ _ _).trans (foldS_keeps _ State.lko pfcUpdate (fun p t => pfcTo_lko t false p) allPorts)

/-- Where every compartment has changed its rotation at this boundary, the entry into STAGED keeps `RESTART_HOLD`. -/
theorem enterStaged_restartHold (cause : Nat) {s : State}
    (h : ∀ c ∈ allCids, (cmpOf s c).rotRing = s.ran ∨ cmpDefined s c = false) :
    (enterStaged cause s).lko.restartHold = s.lko.restartHold := by
  have hrot : foldS (allCids.filter (cmpDefined s)) (fun c => cmpRotate c none) s = s := by
    refine foldS_fixed (fun c hc => ?_)
    obtain ⟨hmem, hdef⟩ := List.mem_filter.mp hc
    have hring := (h c hmem).resolve_right (by simp [hdef])
    simp [cmpRotate, hring]
  unfold enterStaged
  simp only [hrot]
  refine (congrArg LkoSt.restartHold (foldS_keeps _ State.lko _ (fun p t => ?_) allPorts)).trans ?_
  · split <;> rfl
  · rw [setMode_lko]
    exact Bool.and_true _

/-- What stands at the end of bring-up's step 5: the stores are loaded, and the sleep changes of night trim are made. -/
def upReady (s : State) : State := sleepStep (ntNow (loadStores s))

/-- The entry of a claimed module into STAGED; the log is judged as it stands there (R496, R508). -/
def upStage (s : State) : State :=
  let hold := s.lko.restartHold || restartsMany s
  let s := { s with lko := { s.lko with restartHold := hold } }
  let s := enterStaged (if hold then 4 else 1) s
  { s with md := { s.md with upStaged := if s.par.base.isSome then some s.ran else none } }

/-- Bring-up is done: a claimed module enters STAGED, another stays SEALED. -/
def upEnd (u : State) : State :=
  let s := { u with md := { u.md with upDone := true } }
  if s.trust.claimed then upStage s else s

theorem bringUp_eq (failed : List Nat) (s : State) : bringUp failed s =
    if s.md.mode != .sealed || s.md.upDone || s.md.upStop || s.trust.recovery || s.lko.restartAt.isSome then s
    else if (foldS failed selfTestFail s).md.upStop then foldS failed selfTestFail s
    else upEnd (upReady (foldS failed selfTestFail s)) := by
  delta bringUp upEnd upStage upReady
  rfl

theorem bringUp_no_failure {s : State} (hm : s.md.mode = .sealed) (hd : s.md.upDone = false) (hs : s.md.upStop = false)
    (hr : s.trust.recovery = false) (ha : s.lko.restartAt = none) : bringUp [] s = upEnd (upReady s) := by
  rw [bringUp_eq, if_neg (by simp [hm, hd, hs, hr, ha])]
  exact if_neg (by rw [Bool.not_eq_true]; exact hs)

theorem upStage_restartHold {s : State} (h : ∀ c ∈ allCids, (cmpOf s c).rotRing = s.ran ∨ cmpDefined s c = false) :
    (upStage s).lko.restartHold = (s.lko.restartHold || restartsMany s) := by
  unfold upStage
  dsimp only
  rw [enterStaged_restartHold]
  exact h

theorem upEnd_restartHold {u : State} (hc : u.trust.claimed = true)
    (h : ∀ c ∈ allCids, (cmpOf u c).rotRing = u.ran ∨ cmpDefined u c = false) :
    (upEnd u).lko.restartHold = (u.lko.restartHold || restartsMany u) := by
  unfold upEnd
  dsimp only
  rw [if_pos hc, upStage_restartHold]
  · rfl
  · exact h

/-! ### Bring-up that meets the 4,096th leaked cell -/

/-- A record of a device restart at ring 1, for a pool that had leaked 4,096 cells (R304). -/
def leakRestartRec : FaultRec :=
  { seq := 0, cls := clsRestart, unit := 0x43, code := 0x0B03, ring := 1, cid := 255, epoch := 0, count := 1, detail := [0] }

/-- A copy that waits in a VOQ of port 0. -/
def waitingCopy : Copy :=
  { fi := { stamp := 0, pv := 0, time := 0, bytes := [], action := 0, copies := 1, pset := none, serial := 0, pos := 0, prio := 0 },
    port := 0, cls := 0, ord := 0, q := 0 }

/-- Its frame: one cell, whose pointer lies outside every pool. -/
def strayFrame : Frame :=
  { serial := 0, cid := 0, pool := 0, group := 0, port := 0, prio := 0, cells := [(1000000, 1)], unsettled := 1, pset := none }

/-- A claimed module before bring-up, with three RESTART records in its log, 4,095 leaked cells in pool 0, and port 0 up with a copy of
the stray frame; port group 0 is to sleep at this boundary. -/
def leakyBringUp : State :=
  { State.reset with
    md := { sleepDue := [(0, true, 1)] },
    trust := { claimed := true },
    cmp := { cmp := [(k1 0, { factoryCid0 .f with rotRing := 1 })] },
    lko := { log := [leakRestartRec, leakRestartRec, leakRestartRec] },
    link := { port := [(k1 0, { cfg := 0x400#128, up := true })] },
    buf := { pool := [(k1 0, { leaked := 4095 })] },
    lnd := { voq := [(k3 0 0 0, { head := [waitingCopy] })], frames := [strayFrame] } }

/-- Three RESTART records do not hold the module in STAGED (R496). -/
theorem leakyBringUp_not_restartsMany : restartsMany leakyBringUp = false := by decide

/-- The sleep takes port 0 down, the discarded copy's cell is the 4,096th to leak, and its restart is the fourth RESTART record. -/
theorem leakyBringUp_upReady_restartsMany : restartsMany (upReady leakyBringUp) = true := by decide +kernel

theorem leakyBringUp_upReady_claimed : (upReady leakyBringUp).trust.claimed = true := by decide +kernel

/-- The compartments have changed their rotation at this boundary already (R443). -/
theorem leakyBringUp_upReady_rotated (c : Nat) (h : c ∈ allCids) :
    (cmpOf (upReady leakyBringUp) c).rotRing = (upReady leakyBringUp).ran ∨
      cmpDefined (upReady leakyBringUp) c = false := by
  revert c
  decide +kernel

end Sys2Proof.Machine

namespace Sys2Proof.Proofs
open Machine

/-- Refutes O38: bring-up counts the RESTART records after it has carried out the sleep changes of its boundary, and such a change can
itself leave one; in `leakyBringUp` the module is held although neither `RESTART_HOLD` stood nor four records lay in the log. The
statement is for every state: this one is not claimed to be reached from reset. -/
theorem not_modeEvents : ¬ Obligations.ModeEvents := by
  rintro ⟨h, -⟩
  have hrun : halted leakyBringUp = false := rfl
  have hat : atBoundary leakyBringUp = true := rfl
  obtain ⟨-, -, -, -, -, -, hup, -⟩ := h leakyBringUp hrun hat
  obtain ⟨t, ht, -, -, hclaimed⟩ := hup rfl rfl rfl rfl rfl rfl
  obtain ⟨-, -, hhold⟩ := hclaimed rfl
  have hrow := boundaryRow_at (modeChange .staged []) hrun hat
  have ht' : bringUp [] leakyBringUp = t := Host.Outcome.next.inj (hrow.symm.trans ht)
  have hheld : t.lko.restartHold = true := by
    rw [← ht', bringUp_no_failure rfl rfl rfl rfl rfl,
      upEnd_restartHold leakyBringUp_upReady_claimed leakyBringUp_upReady_rotated, leakyBringUp_upReady_restartsMany, Bool.or_true]
  rw [hheld, leakyBringUp_not_restartsMany] at hhold
  exact absurd hhold (by decide)

end Sys2Proof.Proofs

/-! ## The landing of a single command (R416, R422) -/

namespace Sys2Proof.Machine

/-- The state after the only command that waits has landed and been answered. -/
def landedAlone (i : Item) (s : State) : State :=
  let v : State := { s with items := [] }
  if i.rsp = true then answerLater i.op i.req i.v i.sec v (landAns i v) else (landAns i v).st

theorem landOne_alone {i : Item} {s : State} (h : s.items = [i]) : landOne i s = landedAlone i s := by
  simp [landOne, landedAlone, h]

/-- The only command that waits is due once its boundary has come. -/
theorem dueItems_alone {i : Item} {s : State} (h : s.items = [i]) (hop : i.op ≠ .barrier) (hd : i.due ≤ s.ring) :
    dueItems s = [i] := by
  simp [dueItems, h, hd, hop, sortBy, insBy]

/-- Before its boundary nothing is due. -/
theorem dueItems_early {i : Item} {s : State} (h : s.items = [i]) (hd : s.ring < i.due) : dueItems s = [] := by
  simp [dueItems, h, sortBy, Nat.not_le.mpr hd]

@[simp] theorem landSome_nil (p : Item → Bool) (s : State) : landSome p [] s = s := rfl

theorem landSome_one (p : Item → Bool) (i : Item) (s : State) :
    landSome p [i] s = if p i = true then landOne i s else s := by
  unfold landSome
  by_cases h : p i = true
  · rw [List.filter_cons_of_pos h, if_pos h]; rfl
  · rw [List.filter_cons_of_neg h, if_neg h]; rfl

theorem landAt_one (n : Nat) (i : Item) (s : State) :
    landAt n [i] s = if landStep i.op = n then landOne i s else s := by
  simp [landAt, landSome_one]

/-- Step 2 lands a rotation change, and nothing else but what goes before a definition. -/
theorem stepRotations_one {i : Item} (s : State) (hop : i.op ≠ .cmpDefine) :
    stepRotations [i] s = if landStep i.op = 2 then landOne i s else s := by
  by_cases h : landStep i.op = 2 <;> simp [stepRotations, foldS, h, hop, definesLand]

/-- A definition that will be made changes the rotation in step 2 (R443). -/
theorem stepRotations_define {i : Item} (s : State) (hop : i.op = .cmpDefine) :
    stepRotations [i] s = if i ∈ definesLand [i] s then cmpRotate i.req.arg1.toNat none s else s := by
  by_cases h : i ∈ definesLand [i] s <;> simp [stepRotations, foldS, hop, landStep, h]

/-- Where no port is due to go down, step 8 takes none down. -/
theorem downStep_idle {s : State} (h : s.link.downs8 = []) : downStep s = s := by
  unfold downStep
  rw [h]
  calc ({ s with link := { s.link with downs8 := [] } } : State)
      = { s with link := { s.link with downs8 := s.link.downs8 } } := by rw [h]
    _ = s := rfl

/-- Where no group is due to sleep or wake, step 8 changes none. -/
theorem sleepStep_idle {s : State} (h : s.md.sleepDue = []) : sleepStep s = s := by
  unfold sleepStep
  rw [h]
  calc ({ s with md := { s.md with sleepDue := [] } } : State)
      = { s with md := { s.md with sleepDue := s.md.sleepDue } } := by rw [h]
    _ = s := rfl

/-- The effects of every other opcode come before step 8. -/
theorem landStep_before_ports {o : Op} (h : o ∉ [Op.cmpDefine, .groupSleep, .firebreakLift]) :
    landStep o ∈ [1, 2, 3, 4, 5, 6, 7] := by
  revert h
  cases o <;> decide

/-- COMMAND_LANDING of a single command: the steps of R581 in their order. -/
theorem commandLanding_due {i : Item} {s : State} (h : dueItems s = [i]) :
    commandLanding s = landAt 9 [i] (landAt 8 [i] (sleepStep (downStep (landAt 7 [i] (landAt 6 [i] (landAt 5 [i] (landAt 4 [i]
      (landAt 3 [i] (stepRotations [i] (landAt 1 [i] s)))))))))) := by
  unfold commandLanding
  rw [h]
  rfl

theorem commandLanding_before_ports {i : Item} {s : State} (h : dueItems s = [i])
    (hop : i.op ∉ [Op.cmpDefine, .groupSleep, .firebreakLift]) :
    commandLanding s = sleepStep (downStep (landOne i s)) := by
  have hdef : i.op ≠ .cmpDefine := fun e => hop (by simp [e])
  have hstep := landStep_before_ports hop
  simp only [commandLanding_due h, landAt_one, stepRotations_one _ hdef]
  simp only [List.mem_cons, List.not_mem_nil, or_false] at hstep
  rcases hstep with e | e | e | e | e | e | e <;> simp [e]

/-- GROUP_SLEEP and FIREBREAK_LIFT land after the ports (R490, R518). -/
theorem commandLanding_after_ports {i : Item} {s : State} (h : dueItems s = [i])
    (hop : i.op = .groupSleep ∨ i.op = .firebreakLift) (hd : s.link.downs8 = []) (hs : s.md.sleepDue = []) :
    commandLanding s = landOne i s := by
  have hdef : i.op ≠ .cmpDefine := by rcases hop with e | e <;> simp [e]
  simp only [commandLanding_due h, landAt_one, stepRotations_one _ hdef]
  rcases hop with e | e <;> simp [e, landStep, downStep_idle hd, sleepStep_idle hs]

theorem commandLanding_define {i : Item} {s : State} (h : dueItems s = [i]) (hop : i.op = .cmpDefine) :
    commandLanding s = sleepStep (downStep (landOne i
      (if i ∈ definesLand [i] s then cmpRotate i.req.arg1.toNat none s else s))) := by
  simp [commandLanding_due h, landAt_one, stepRotations_define _ hop, hop, landStep]

theorem commandLanding_idle {s : State} (h : dueItems s = []) (hd : s.link.downs8 = []) (hs : s.md.sleepDue = []) :
    commandLanding s = s := by
  unfold commandLanding
  rw [h]
  exact (congrArg sleepStep (downStep_idle hd)).trans (sleepStep_idle hs)

/-- A row of a landing carries out the only command that is due, where it is one of its own. -/
theorem landSome_due {i : Item} {s : State} {p : Item → Bool} (h : s.items = [i]) (hd : dueItems s = [i]) (hp : p i = true) :
    landSome p (dueItems s) s = landedAlone i s := by
  rw [hd, landSome_one, if_pos hp, landOne_alone h]

end Sys2Proof.Machine

namespace Sys2Proof.Proofs
open Machine

/-- Settles O44: one command that is due lands once, in the step of its opcode. -/
theorem landingRows : Obligations.LandingRows := by
  intro s i hh hi hop hdowns hsleep
  refine ⟨fun hb hdue => ?_, fun hoff => ?_⟩
  · have hd := dueItems_alone hi hop hdue
    have row (f : State → State) := boundaryRow_at f hh hb
    have own {p : Item → Bool} (hp : p i = true) :
        (.next (unlessHalted s (onBoundary (fun s => landSome p (dueItems s) s) s)) : Out) = .next (landedAlone i s) :=
      (row _).trans (congrArg Host.Outcome.next (landSome_due hi hd hp))
    refine ⟨fun h => ?_, fun h => ?_, fun h => ?_, fun p h hp => ?_, fun h => ?_, fun h => ?_, fun h => ?_,
      fun c hc => ⟨fun h => ?_, fun h => ?_, fun h => ?_⟩, fun u h hu => ?_, fun h hm => ?_⟩
    · exact (row _).trans (congrArg Host.Outcome.next ((commandLanding_before_ports hd h).trans (by rw [landOne_alone hi]; rfl)))
    · exact (row _).trans (congrArg Host.Outcome.next ((commandLanding_after_ports hd h hdowns hsleep).trans (landOne_alone hi)))
    · exact (row _).trans (congrArg Host.Outcome.next (commandLanding_define hd h))
    · exact own (p := fun i => i.op == .gateSwitch && i.req.arg1.toNat == p.val) (by simp [h, hp])
    · exact own (p := fun i => i.op == .emFlush) (by simp [h])
    · exact own (p := fun j => (j.op == .cutCommit || j.op == .cutCommitSigned) && j.req.c == i.req.cid.val)
        (by simpa [Req.c] using h)
    · exact own (p := fun i => i.op == .baseBundleLoad) (by simp [h])
    · exact own (p := fun i => [Op.cmpReset, .save, .restore, .cmpDefine].contains i.op && i.req.who == c.val)
        (by simpa [hc] using h)
    · exact own (p := fun i => [Op.freeze].contains i.op && i.req.who == c.val) (by simp [h, hc])
    · exact own (p := fun i => [Op.thaw].contains i.op && i.req.who == c.val) (by simp [h, hc])
    · exact own (p := fun i => i.op == .firebreakLift && i.req.arg1.toNat == u.val) (by simp [h, hu])
    · exact own (p := fun i => i.op == .modeSet && i.req.arg1.toNat == Mode.frozen.code) (by simp [h, hm, Mode.code])
  · have early (hb : atBoundary s = true) : dueItems s = [] := dueItems_early hi (hoff.resolve_right (by simp [hb]))
    have nothing (p : Item → Bool) : (.next (unlessHalted s (onBoundary (fun s => landSome p (dueItems s) s) s)) : Out) = .next s :=
      boundaryRow_idle hh (fun hb => by rw [early hb, landSome_nil])
    exact ⟨boundaryRow_idle hh (fun hb => commandLanding_idle (early hb) hdowns hsleep), nothing _, nothing _, fun p u c =>
      ⟨nothing _, nothing _, nothing _, nothing _, nothing _, nothing _⟩⟩

end Sys2Proof.Proofs

/-! ## The ring boundary (R496, R511, R561, R581) -/

namespace Sys2Proof.Machine

/-! ### The device restart -/

/-- The time sources that qualify afresh are all that `freshSrcs` changes. -/
theorem freshSrcs_tim_alone (s : State) : ∃ x, freshSrcs s = { s with tim := x } := by
  unfold freshSrcs
  refine foldS_induct (P := fun t => ∃ x, t = { s with tim := x }) (fun i t ht => ?_) _ ⟨_, rfl⟩
  obtain ⟨x, rfl⟩ := ht
  split
  · exact ⟨x, rfl⟩
  · exact ⟨_, rfl⟩

@[simp] theorem setTim_clock (t : TimState) (s : State) : (setTim t s).clock = s.clock := by
  unfold setTim; exact postTo_clock _ _ _ _
@[simp] theorem setTim_items (t : TimState) (s : State) : (setTim t s).items = s.items := by
  unfold setTim; exact postTo_items _ _ _ _

/-- The loss of the time sources (R73) leaves the mode, the grid, the cuts, the frames and the commands that wait. -/
theorem loseSources_frame (s : State) :
    (loseSources s).md = s.md ∧ (loseSources s).ring = s.ring ∧ (loseSources s).clock = s.clock ∧ (loseSources s).cut = s.cut ∧
      (loseSources s).lnd = s.lnd ∧ (loseSources s).items = s.items := by
  obtain ⟨x, hx⟩ := freshSrcs_tim_alone s
  simp only [loseSources, hx]
  split
  · simp only [setTim_md, setTim_ring, setTim_clock, setTim_cut, setTim_lnd, setTim_items, and_self]
  · exact ⟨rfl, rfl, rfl, rfl, rfl, rfl⟩

/-- After a device restart the module is SEALED, on the grid, and holds no cut, no frame and no command (R511). -/
theorem deviceRestart_loses (s : State) :
    (deviceRestart s).md.mode = .sealed ∧ (deviceRestart s).ring = s.ring ∧ (deviceRestart s).clock = s.clock ∧
      (deviceRestart s).cut.cuts = [] ∧ (deviceRestart s).lnd.frames = [] ∧ (deviceRestart s).items = [] := by
  obtain ⟨hmd, hring, hclock, hcut, hlnd, hitems⟩ := loseSources_frame (losePair (lose s))
  unfold deviceRestart
  rw [hmd, hring, hclock, hcut, hlnd, hitems]
  dsimp only [losePair, lose, bootSlot, loseHost, loseLko, loseLink, losePath, clearAllCtrs, zeroiseKeys]
  exact ⟨rfl, rfl, rfl, rfl, rfl, rfl⟩

/-! ### The forms of the boundary -/

theorem railsDue_nextRing (s : State) : railsDue (nextRing s) = s.pwr.fallAt.any (fun r => decide (r ≤ s.ran + 1)) := rfl

theorem railsDue_of_fallAt {s : State} {r : Nat} (h : s.pwr.fallAt = some r) (hr : r ≤ s.ran + 1) : railsDue (nextRing s) = true := by
  simp [railsDue_nextRing, h, hr]

theorem railsDue_of_later {s : State} (h : ∀ r, s.pwr.fallAt = some r → s.ran + 1 < r) : railsDue (nextRing s) = false := by
  rw [railsDue_nextRing]
  cases hf : s.pwr.fallAt with
  | none => rfl
  | some r => simpa using h r hf

theorem ringBoundary_off {s : State} (h : s.pwr.on = false) : ringBoundary s = s := by
  simp [ringBoundary, h]

theorem ringBoundary_railsFall {s : State} (h : s.pwr.on = true) (hr : railsDue (nextRing s) = true) :
    ringBoundary s = takeSnap (railsFall (nextRing s)) := by
  simp [ringBoundary, h, hr]

theorem ringBoundary_halted {s : State} (h : s.pwr.on = true) (hr : railsDue (nextRing s) = false) (hm : s.md.mode = .halted) :
    ringBoundary s = takeSnap (nextRing s) := by
  simp [ringBoundary, h, hr, hm]

theorem ringBoundary_running {s : State} (h : halted s = false) (hr : railsDue (nextRing s) = false) :
    ringBoundary s = takeSnap (if restartNow (nextRing (finishRing s)) then deviceRestart (freshRing (nextRing (finishRing s)))
      else enterRing (nextRing (finishRing s))) := by
  simp only [halted, Bool.or_eq_false_iff, beq_eq_false_iff_ne, Bool.not_eq_false'] at h
  obtain ⟨hm, hon⟩ := h
  simp [ringBoundary, hon, hr, hm]

/-- The new ring opens with the steps of its boundary, then with what it begins with (R339, R379, R500, R581). -/
theorem enterRing_eq (s : State) : enterRing s = faultInject s.ring (dramTurn (cvOffersDue (guardTicks (pauseRings
    (boundarySteps (dueItems s) (freshRing s)))))) := rfl

/-! ### The common kerf image -/

theorem imageWrite_idle {s : State} (h : s.krf.wait = none) : imageWrite s = s := by
  simp [imageWrite, h]

theorem imageWrite_busy {s : State} (h : enginesEmpty s = false) : imageWrite s = s := by
  unfold imageWrite
  cases s.krf.wait <;> simp [h]

/-- The image is written, dispatch resumes a ring later, and the graph stays (R126, R271). -/
theorem imageWrite_done {s : State} {b : BaseBundle} (h : s.krf.wait = some b) (he : enginesEmpty s = true) :
    (imageWrite s).krf.wait = none ∧ (imageWrite s).krf.resume = s.ran + 1 ∧
      (imageWrite s).par.base = some { b with img := { b.img with ring := s.ring + 1 } } ∧
      (imageWrite s).par.graph = s.par.graph := by
  simp only [imageWrite, h, he, if_true, imageApplied, post_krf, post_par]
  exact ⟨rfl, rfl, rfl, rfl⟩

end Sys2Proof.Machine

namespace Sys2Proof.Proofs
open Machine

/-- Settles O47: each form of the boundary by its equation; the order of its steps is that of `boundarySteps`. -/
theorem ringBoundary : Obligations.RingBoundary := by
  intro s
  refine ⟨fun h => ?_, fun r h hf hr => ?_, fun h hf hm => ?_, fun h hf => ⟨fun hr => ?_, fun hr => ?_, fun v hv => ?_⟩,
    fun l => rfl, fun hh hb => ⟨fun hw => ?_, fun he => ?_, fun b hw he => ?_⟩⟩
  · exact congrArg Host.Outcome.next (ringBoundary_off h)
  · exact congrArg Host.Outcome.next (ringBoundary_railsFall h (railsDue_of_fallAt hf hr))
  · exact congrArg Host.Outcome.next (ringBoundary_halted h (railsDue_of_later hf) hm)
  · have hrun := ringBoundary_running h (railsDue_of_later hf)
    obtain ⟨hmode, hring, hclock, hcut, hlnd, hitems⟩ := deviceRestart_loses (freshRing (nextRing (finishRing s)))
    exact ⟨_, congrArg Host.Outcome.next (hrun.trans (congrArg takeSnap (if_pos hr))), hmode, hring, hclock, hcut, hlnd, hitems⟩
  · have hrun := ringBoundary_running h (railsDue_of_later hf)
    rw [if_neg (by rw [Bool.not_eq_true]; exact hr), enterRing_eq] at hrun
    exact congrArg Host.Outcome.next hrun
  · have hrun := ringBoundary_running h (railsDue_of_later hf)
    have hv' : Machine.ringBoundary s = v := Host.Outcome.next.inj hv
    rw [← hv', hrun]
    exact atSnap_takeSnap _
  · exact boundaryRow_idle hh (fun _ => imageWrite_idle hw)
  · exact boundaryRow_idle hh (fun _ => imageWrite_busy he)
  · exact ⟨_, boundaryRow_at _ hh hb, imageWrite_done hw he⟩

end Sys2Proof.Proofs

/-! ## A frame from the wire (R21, R81, R100, R274, R301) -/

namespace Sys2Proof.Machine

/-! ### Stage 1 -/

/-- What the MAC counts of a frame before anything else: the RS codewords corrected and not corrected. -/
def fecCounted (p : Nat) (rx : RxFrame) (s : State) : State :=
  cnt .rxFecUncorr p 0 rx.fecUncorr (cnt .rxFecCorr p 0 rx.fecCorr s)

theorem frameReceive_down {p : Nat} {s : State} (rx : RxFrame) (h : (port s p).up = false) : frameReceive p rx s = s := by
  simp [frameReceive, h]

/-- A frame that is no MAC control, on a port that is up, takes its cells (R301). -/
theorem frameReceive_data {p : Nat} {rx : RxFrame} {s : State} (h : (port s p).up = true) (ht : beAt rx.bytes 12 2 ≠ 0x8808) :
    frameReceive p rx s = match rxTake p rx (fecCounted p rx s) with
      | (cells, false, g) => rxRefuse p rx.bytes cells g
      | (cells, true, g) => rxVerdict p rx (rxBad s p rx) cells g := by
  simp [frameReceive, h, ht]
  rfl

/-- MAC control ends at the MAC (R81). -/
theorem frameReceive_macControl {p : Nat} {rx : RxFrame} {s : State} (h : (port s p).up = true) (ht : beAt rx.bytes 12 2 = 0x8808) :
    frameReceive p rx s = match rxBad s p rx with
      | some c => cnt c p 0 1 (fecCounted p rx s)
      | none => macControl p rx.bytes (fecCounted p rx s) := by
  simp [frameReceive, h, ht]
  rfl

/-- A frame out of the lengths of its port (R21, R81). -/
theorem rxBad_length {p : Nat} {rx : RxFrame} {s : State}
    (h : rx.bytes.length + 4 < 64 ∨ fld (port s p).cfg 61 48 < rx.bytes.length + 4) : rxBad s p rx = some .rxLen := by
  simp only [rxBad, if_pos h]

theorem rxBad_of_length {p : Nat} {rx : RxFrame} {s : State} (hlo : 64 ≤ rx.bytes.length + 4)
    (hhi : rx.bytes.length + 4 ≤ fld (port s p).cfg 61 48) : rxBad s p rx = if rx.fcsOk then none else some .rxFcs := by
  simp only [rxBad, if_neg (not_or.mpr ⟨Nat.not_lt.mpr hlo, Nat.not_lt.mpr hhi⟩)]
  cases rx.fcsOk <;> rfl

/-- The end of stage 1 of a frame with its cells, by what link security says of it (R21, R100). -/
theorem rxVerdict_of_msecRx {p : Nat} {rx : RxFrame} {cells : List Nat} {g t : State} {r : MsecRx}
    (h : msecRx p rx.bytes rx.icvOk g = (r, t)) : rxVerdict p rx none cells g = match r with
      | .bad => rxGive p (rxPool g p (rx.bytes.length + 4)) cells t
      | .clear => rxAccept p rx rx.bytes none cells t
      | .ok i => rxAccept p rx rx.plain (some i) cells t := by
  simp only [rxVerdict, h]
  cases r <;> rfl

theorem macControl_pause {p : Nat} {l : List Byte} (s : State) (h : beAt l 14 2 = 0x0001) :
    macControl p l s = cnt .rxPauseIgnored p 0 1 s := by
  simp [macControl, h]

theorem macControl_other {p : Nat} {l : List Byte} (s : State) (hpause : beAt l 14 2 ≠ 0x0001) (hpfc : beAt l 14 2 ≠ 0x0101) :
    macControl p l s = cnt .rxMacCtlOther p 0 1 s := by
  unfold macControl
  split
  · contradiction
  · contradiction
  · rfl

/-! ### The hand-over -/

/-- The copies of a decision carry the egress ports in their order. -/
theorem rxForward_copies_port (fi : FrameInfo) (l : List Nat) (cls q g : Nat) :
    (l.mapIdx (fun i p => ({ fi := fi, port := p, cls := cls, ord := i, q := q, ing := g } : Copy))).map Copy.port = l :=
  List.ext_getElem (by simp) (by simp)

end Sys2Proof.Machine

namespace Sys2Proof.Proofs
open Machine

/-- Settles O48: stage 1 by the verdict on the frame, and the hand-over by what `rxForward` appends. -/
theorem frameReceive : Obligations.FrameReceive := by
  refine ⟨fun s p clk rx hh => ?_, fun s x stamp pv d => ?_⟩
  · intro u f n most
    have hexec : exec (.frameReceive p clk rx) s = .next (Machine.frameReceive p rx u) :=
      congrArg Host.Outcome.next (unlessHalted_running _ hh)
    have hlong (h : n < 64 ∨ most < n) : rxBad u p rx = some .rxLen := rxBad_length h
    have hfit (hlo : 64 ≤ n) (hhi : n ≤ most) : rxBad u p rx = if rx.fcsOk then none else some .rxFcs := rxBad_of_length hlo hhi
    refine ⟨fun hdown => ?_, fun hup hmac => ?_, fun hup hdata cells g => ⟨fun htake => ?_, fun htake => ?_⟩⟩
    · exact hexec.trans (congrArg Host.Outcome.next (frameReceive_down (s := u) rx hdown))
    · have hmac := hexec.trans (congrArg Host.Outcome.next (frameReceive_macControl (s := u) hup hmac))
      rw [hmac]
      refine ⟨fun h => by rw [hlong h]; rfl, fun hlo hhi => ⟨fun h => ?_, fun h hpause => ?_, fun h hpause hpfc => ?_⟩⟩ <;>
        rw [hfit hlo hhi, h]
      · rfl
      · exact congrArg Host.Outcome.next (macControl_pause f hpause)
      · exact congrArg Host.Outcome.next (macControl_other f hpause hpfc)
    all_goals
      have hdata := hexec.trans (congrArg Host.Outcome.next (frameReceive_data (s := u) hup hdata))
      change rxTake p rx (fecCounted p rx u) = _ at htake
      rw [hdata, htake]
    refine ⟨fun h => by rw [hlong h]; rfl, fun hlo hhi => ⟨fun h => ?_, fun t h hm => ?_, fun t h hm => ?_, fun t i h hm => ?_⟩⟩ <;>
      rw [hfit hlo hhi, h]
    · rfl
    all_goals exact congrArg Host.Outcome.next (rxVerdict_of_msecRx hm)
  · refine ⟨_, _, rfl, rfl, rfl, rfl, rfl, rfl, rfl, rfl, rfl, ?_, fun c hc => ?_, rfl, ?_, fun c hc => ?_⟩
    · simp [Function.comp_def]
    · obtain ⟨i, -, rfl⟩ := List.mem_map.mp hc
      rfl
    · exact rxForward_copies_port _ _ _ _ _
    · obtain ⟨i, -, rfl⟩ := List.mem_mapIdx.mp hc
      exact ⟨rfl, rfl, rfl, rfl, rfl⟩

end Sys2Proof.Proofs

/-! ## What cells that return to their pool leave unchanged (R21, R301, R304) -/

namespace Sys2Proof.Machine

/-- The Landing's state but for its frame records. -/
def lndAside (s : State) : LndSt := { s.lnd with frames := [] }

/-- What the Landing keeps aside from its frame records, each of its other parts keeps. -/
theorem lndAside_part {β : Type} {s t : State} (f : LndSt → β) (hf : ∀ l : LndSt, f { l with frames := [] } = f l)
    (h : lndAside t = lndAside s) : f t.lnd = f s.lnd :=
  (hf t.lnd).symm.trans ((congrArg f h).trans (hf s.lnd))

theorem lndAside_of_lnd {s t : State} (h : t.lnd = s.lnd) : lndAside t = lndAside s := by
  unfold lndAside; rw [h]

@[simp] theorem leakCell_lnd (p k x : Nat) (s : State) : (leakCell p k x s).lnd = s.lnd := by
  simp [leakCell, apply_ite State.lnd]
@[simp] theorem leakCell_ran (p k x : Nat) (s : State) : (leakCell p k x s).ran = s.ran := by
  simp [leakCell, apply_ite State.ran]

@[simp] theorem leakBad_lnd (p : Nat) (l : List Nat) (s : State) : (leakBad p l s).lnd = s.lnd :=
  foldS_keeps s State.lnd _ (fun _ _ => leakCell_lnd _ _ _ _) _
@[simp] theorem leakBad_ran (p : Nat) (l : List Nat) (s : State) : (leakBad p l s).ran = s.ran :=
  foldS_keeps s State.ran _ (fun _ _ => leakCell_ran _ _ _ _) _

@[simp] theorem freeCell_lnd (g p x : Nat) (s : State) : (freeCell g p x s).lnd = s.lnd := by
  simp only [freeCell]; split <;> [skip; split] <;> simp
@[simp] theorem freeCell_ran (g p x : Nat) (s : State) : (freeCell g p x s).ran = s.ran := by
  simp only [freeCell]; split <;> [skip; split] <;> simp

/-! ### Frame records and the end of a copy (R274, R291) -/

@[simp] theorem blaze_lnd (st : BitVec 128) (pos stage port cls u d side pipe : Nat) (s : State) :
    (blaze st pos stage port cls u d side pipe s).lnd = s.lnd := by
  unfold blaze
  split
  · dsimp only
    split
    · rfl
    · exact foldS_keeps s State.lnd _ (fun e t => by split <;> rfl) _
  · rfl
@[simp] theorem blaze_ran (st : BitVec 128) (pos stage port cls u d side pipe : Nat) (s : State) :
    (blaze st pos stage port cls u d side pipe s).ran = s.ran := by
  unfold blaze
  split
  · dsimp only
    split
    · rfl
    · exact foldS_keeps s State.ran _ (fun e t => by split <;> rfl) _
  · rfl

theorem dropHolders_lndAside (n : Nat) (p : Nat → Bool) (s : State) : lndAside (dropHolders n p s) = lndAside s := by
  unfold dropHolders
  split
  · rfl
  · dsimp only
    split
    · rfl
    · exact congrArg (fun l : LndSt => { l with frames := [] })
        (foldS_keeps _ State.lnd _ (fun x t => freeCell_lnd _ _ x t) _)
@[simp] theorem dropHolders_ran (n : Nat) (p : Nat → Bool) (s : State) : (dropHolders n p s).ran = s.ran := by
  unfold dropHolders
  split
  · rfl
  · dsimp only
    split
    · rfl
    · exact foldS_keeps _ State.ran _ (fun x t => freeCell_ran _ _ x t) _

theorem settleFrame_lndAside (c : Copy) (lost : Bool) (s : State) : lndAside (settleFrame c lost s) = lndAside s := by
  unfold settleFrame
  dsimp only
  split
  · rfl
  next f _ =>
    change lndAside (match f.pset with | some p => _ | none => _) = _
    cases f.pset with
    | none => rfl
    | some p => dsimp only; split <;> rfl
@[simp] theorem settleFrame_ran (c : Copy) (lost : Bool) (s : State) : (settleFrame c lost s).ran = s.ran := by
  unfold settleFrame
  dsimp only
  split
  · rfl
  next f _ =>
    change (match f.pset with | some p => _ | none => _ : State).ran = _
    cases f.pset with
    | none => rfl
    | some p => dsimp only; split <;> rfl

theorem settle_lndAside (c : Copy) (lost : Bool) (s : State) : lndAside (settle c lost s) = lndAside s :=
  settleFrame_lndAside c lost s
@[simp] theorem settle_ran (c : Copy) (lost : Bool) (s : State) : (settle c lost s).ran = s.ran :=
  settleFrame_ran c lost s

theorem discardQueued_lndAside (ctr : Ctr) (i j cause : Nat) (c : Copy) (s : State) :
    lndAside (discardQueued ctr i j cause c s) = lndAside s := by
  unfold discardQueued discardWaiting dropIngress blazeDrop
  rw [settle_lndAside, dropHolders_lndAside]
  exact lndAside_of_lnd (by simp)
@[simp] theorem discardQueued_ran (ctr : Ctr) (i j cause : Nat) (c : Copy) (s : State) :
    (discardQueued ctr i j cause c s).ran = s.ran := by
  simp [discardQueued, discardWaiting, dropIngress, blazeDrop]

end Sys2Proof.Machine

/-! ## The crossing (R279 to R290) -/

namespace Sys2Proof.Machine

/-! ### A cell that is sent (R279, R283) -/

/-- Cell `n` of a copy as it leaves on a plane (R277, R283). -/
def sentCell (plane i j : Nat) (c : Copy) (n : Nat) (s : State) : Cell :=
  { plane := plane, src := i, dst := j, seq := (pathOf s i j).seq, first := n == 0, last := n + 1 == copyCells c, index := n,
    epoch := (unitSt s (uPlane plane)).epoch, bytes := cellBytes c n, desc := copyDesc c, copy := c, at_ := nowClk s + 30 }

/-- The path behind that cell. -/
def sentPath (i j : Nat) (c : Copy) (n : Nat) (s : State) : Path :=
  { pathOf s i j with seq := ((pathOf s i j).seq + 1) % 65536, cur := if n + 1 == copyCells c then none else some (c, n + 1) }

theorem markCell_nil (c : Copy) (s : State) : markCell [] c s = (c, s) := by
  simp [markCell, foldS]

theorem cellErr_nil (s : State) (c : Copy) (n : Nat) : cellErr s c n [] = [] := by
  unfold cellErr; split <;> rfl

/-- A cell without errors changes its path and joins what is on its way. -/
theorem sendCell_lndAside {plane i j n : Nat} {c : Copy} {s : State} (h : (pathOf s i j).cur = some (c, n)) :
    lndAside (sendCell [] plane i j s) =
      { lndAside s with path := tput {} s.lnd.path (k2 i j) (sentPath i j c n s),
                        flight := s.lnd.flight ++ [sentCell plane i j c n s] } := by
  unfold sendCell
  simp only [h, cellErr_nil, markCell_nil, Option.isSome_some, if_true]
  rw [dropHolders_lndAside, lndAside_of_lnd (progEvt_lnd _ _ _ _ _ _), lndAside_of_lnd (cnt_lnd _ _ _ _ _)]
  split
  · rw [lndAside_of_lnd (blaze_lnd _ _ _ _ _ _ _ _ _ _)]; rfl
  · rfl

theorem sendCell_flight {plane i j n : Nat} {c : Copy} {s : State} (h : (pathOf s i j).cur = some (c, n)) :
    (sendCell [] plane i j s).lnd.flight = s.lnd.flight ++ [sentCell plane i j c n s] :=
  (congrArg LndSt.flight (sendCell_lndAside h) :)

theorem sendCell_path {plane i j n : Nat} {c : Copy} {s : State} (h : (pathOf s i j).cur = some (c, n)) :
    pathOf (sendCell [] plane i j s) i j = sentPath i j c n s := by
  have hp : (sendCell [] plane i j s).lnd.path = _ := (congrArg LndSt.path (sendCell_lndAside h) :)
  unfold pathOf
  rw [hp]
  exact tget_tput_self _ _ _ _

/-! ### A slot with nothing to send (R281, R282) -/

/-- Cells that leave the MACs change the credits and the transmissions alone (R278). -/
theorem cellCredits_keeps {β : Type} (g : State → β) (t : Nat) (s : State)
    (hsch : ∀ (u : State) x, g { u with sch := x } = g u)
    (hcred : ∀ (u : State) x y, g { u with lnd := { u.lnd with credit := x, occ := y } } = g u) :
    g (cellCredits t s) = g s :=
  foldS_keeps s g _ (fun p u => by
    refine (hsch _ _).trans ((foldS_keeps _ g _ (fun x v => hcred v _ _) _).trans (hsch _ _))) _

theorem drainPipe_idle {s : State} (limit : Nat) (h : s.lnd.pipe = []) : drainPipe limit s = s := by
  unfold drainPipe
  rw [h]
  rfl

@[simp] theorem markHeld_nothing {s : State} (h : s.lnd.voq = []) : markHeld s = s := by
  unfold markHeld
  rw [h]
  rfl

/-- With no match of the slot before and nothing queued, the crossing of a slot counts the idle slots and nothing else. -/
theorem slotCross_idle {s : State} (errs : CellErrs) (hm : s.lnd.mtch = []) (hv : s.lnd.voq = []) :
    slotCross errs s = progEvt (uPlane 1) 0x42 255 0 16 (progEvt (uPlane 0) 0x42 255 0 16 s) := by
  have hs : { s with lnd := { s.lnd with mtch := [] } } = s := by rw [← hm]
  unfold slotCross
  dsimp only
  rw [hm, hs]
  change markHeld (progEvt (uPlane 1) 0x42 255 0 16 (progEvt (uPlane 0) 0x42 255 0 16 s)) = _
  exact markHeld_nothing (by simpa using hv)

theorem requestsOf_idle {s : State} (plane : Nat) (hv : s.lnd.voq = []) (hp : s.lnd.path = []) : requestsOf s plane = [] := by
  simp [requestsOf, livePaths, hv, hp]

theorem matchIter_nil (s : State) (plane : Nat) (m : List (Nat × Nat)) : matchIter s plane [] m = [] := by
  simp [matchIter, firstFrom]

theorem matchPlane_nil (plane : Nat) (s : State) : matchPlane plane [] s = ([], s) := by
  simp [matchPlane, matchIter_nil, foldS]

theorem slotMatch_idle {s : State} (hm : s.lnd.mtch = []) (hv : s.lnd.voq = []) (hp : s.lnd.path = []) :
    slotMatch s = progEvt (uPlane 1) 0x41 255 0 0 (progEvt (uPlane 0) 0x41 255 0 0 s) := by
  unfold slotMatch
  simp only [requestsOf_idle _ hv hp, matchPlane_nil, foldS, List.foldl_nil, List.length_nil, List.map_nil, List.append_nil]
  generalize hu : progEvt (uPlane 1) 0x41 255 0 (0 - 0) (progEvt (uPlane 0) 0x41 255 0 (0 - 0) s) = u
  have hmu : u.lnd.mtch = [] := by rw [← hu]; simpa using hm
  rw [← hmu]

/-- A slot that finds nothing to enqueue, to send or to match. -/
theorem cellSlot_idle {slot : Nat} {s : State} (errs : CellErrs) (hpipe : s.lnd.pipe = []) (hm : s.lnd.mtch = [])
    (hv : s.lnd.voq = []) (hp : s.lnd.path = []) :
    let u : State := { s with clock := 10 * slot }
    let t := cellSlot slot errs s
    t.lnd = (cellCredits (nowClk u) u).lnd ∧ t.clock = 10 * slot ∧ t.ring = s.ring ∧ t.cut = s.cut := by
  intro u t
  have hq (f : LndSt → List InPipe × List (Nat × Nat × Nat) × Tab Voq × Tab Path)
      (hf : ∀ (l : LndSt) x y, f { l with credit := x, occ := y } = f l) :
      f (cellCredits (nowClk u) u).lnd = f s.lnd :=
    cellCredits_keeps (fun v => f v.lnd) _ u (fun _ _ => rfl) (fun v _ _ => hf v.lnd _ _)
  have hall := hq (fun l => (l.pipe, l.mtch, l.voq, l.path)) (fun _ _ _ => rfl)
  simp only [hpipe, hm, hv, hp, Prod.mk.injEq] at hall
  obtain ⟨h1, h2, h3, h4⟩ := hall
  have hbegin : slotBegin slot s = cellCredits (nowClk u) u := drainPipe_idle _ h1
  have ht : t = progEvt (uPlane 1) 0x41 255 0 0 (progEvt (uPlane 0) 0x41 255 0 0
      (progEvt (uPlane 1) 0x42 255 0 16 (progEvt (uPlane 0) 0x42 255 0 16 (cellCredits (nowClk u) u)))) := by
    change slotMatch (slotCross errs (slotBegin slot s)) = _
    rw [hbegin, slotCross_idle errs h2 h3, slotMatch_idle] <;> simp [h2, h3, h4]
  have keeps {β : Type} (g : State → β) (hs : ∀ (u : State) x, g { u with sch := x } = g u)
      (hc : ∀ (u : State) x y, g { u with lnd := { u.lnd with credit := x, occ := y } } = g u) :
      g (cellCredits (nowClk u) u) = g u := cellCredits_keeps g _ u hs hc
  simp only [ht, progEvt_lnd, progEvt_clock, progEvt_ring, progEvt_cut, true_and]
  exact ⟨keeps State.clock (fun _ _ => rfl) (fun _ _ _ => rfl), keeps State.ring (fun _ _ => rfl) (fun _ _ _ => rfl),
    keeps State.cut (fun _ _ => rfl) (fun _ _ _ => rfl)⟩

/-! ### A cell that arrives (R285, R286) -/

@[simp] theorem beatFinding_lnd (x : Cell) (b : Fin 17 × Bool) (s : State) : (beatFinding x b s).lnd = s.lnd := by
  unfold beatFinding cellNote
  split <;> [skip; split] <;> simp

theorem reseqOf_setReseq (i j : Nat) (r : Reseq) (s : State) : reseqOf (setReseq i j r s) i j = r := tget_tput_self _ _ _ _

/-- Where the next number is neither held nor declared lost, nothing is released. -/
theorem releaseSeq_waits {i j : Nat} {s : State} (fuel : Nat) (hv : (reseqOf s i j).next ∉ (reseqOf s i j).void_)
    (hh : ∀ y ∈ (reseqOf s i j).held, y.seq ≠ (reseqOf s i j).next) : releaseSeq i j fuel s = s := by
  cases fuel with
  | zero => rfl
  | succ n =>
    have hfind : (reseqOf s i j).held.find? (fun x => x.seq == (reseqOf s i j).next) = none := by
      simpa using hh
    simp [releaseSeq, hv, hfind]

/-- The arrival of a cell without errors (R285, R286). -/
theorem cellIn_clean (x : Cell) (s : State) :
    cellIn x [] s = if x.epoch ≠ (unitSt s (uPlane x.plane)).epoch then cellNote x 3 (cnt .lndEpochDrop x.plane 0 1 s)
      else if 64 ≤ seqAhead (reseqOf s x.src x.dst).next x.seq then cnt .lndSeqRange 0 0 1 (dropCell x.src x.dst x s)
      else releaseSeq x.src x.dst 128 (setReseq x.src x.dst
        { reseqOf s x.src x.dst with held := (reseqOf s x.src x.dst).held ++ [x] } s) := by
  simp only [cellIn, foldS, List.foldl_nil, List.any_nil, Bool.or_false, Bool.false_eq_true, if_false]

/-- A cell ahead of its turn is held (R286). -/
theorem cellIn_held {x : Cell} {s : State} (he : x.epoch = (unitSt s (uPlane x.plane)).epoch)
    (hw : seqAhead (reseqOf s x.src x.dst).next x.seq < 64) (hn : (reseqOf s x.src x.dst).next ≠ x.seq)
    (hv : (reseqOf s x.src x.dst).next ∉ (reseqOf s x.src x.dst).void_)
    (hh : ∀ y ∈ (reseqOf s x.src x.dst).held, y.seq ≠ (reseqOf s x.src x.dst).next) :
    cellIn x [] s = setReseq x.src x.dst { reseqOf s x.src x.dst with held := (reseqOf s x.src x.dst).held ++ [x] } s := by
  rw [cellIn_clean, if_neg (not_not.mpr he), if_neg (Nat.not_le.mpr hw)]
  refine releaseSeq_waits _ ?_ ?_ <;> rw [reseqOf_setReseq]
  · exact hv
  · intro y hy
    rcases List.mem_append.mp hy with hy | hy
    · exact hh y hy
    · rw [List.mem_singleton.mp hy]
      exact hn.symm

/-- A bad header drops the cell (R285). -/
theorem cellIn_header {x : Cell} {beats : Beats} (s : State) (h : (0, true) ∈ beats) :
    cellIn x beats s = dropCell x.src x.dst x (foldS beats (beatFinding x) s) := by
  have hany : beats.any (fun b => b.2 && b.1.val == 0) = true := List.any_eq_true.mpr ⟨_, h, rfl⟩
  simp [cellIn, hany]

/-! ### The copy hold limit (R290) -/

/-- A VOQ without the head copies that have reached the hold limit. -/
def unheld (s : State) (v : Voq) : Voq := { v with head := v.head.filter (fun c => !holdOver s c) }

theorem unheld_unheld (s : State) (v : Voq) : unheld s (unheld s v) = unheld s v := by
  simp [unheld]

/-- What the hold limit of one VOQ does at the boundary. -/
def mcHoldVoq (k : Key) (s : State) : State :=
  foldS ((voqOf s k).head.filter (holdOver s)) (fun c s => discardQueued .lndMcHold (stCid c.fi.stamp) 0 5 c s)
    (setVoq k (unheld s (voqOf s k)) s)

theorem mcHold_eq (s : State) : mcHold s = foldS s.lnd.voq (fun e => mcHoldVoq e.1) s := rfl

theorem mcHoldVoq_lndAside (k : Key) (s : State) : lndAside (mcHoldVoq k s) = lndAside (setVoq k (unheld s (voqOf s k)) s) :=
  foldS_keeps _ lndAside _ (fun c t => discardQueued_lndAside _ _ _ _ c t) _

theorem mcHoldVoq_ran (k : Key) (s : State) : (mcHoldVoq k s).ran = s.ran :=
  foldS_keeps _ State.ran _ (fun c t => discardQueued_ran _ _ _ _ c t) _

theorem mcHoldVoq_voq (k j : Key) (s : State) :
    voqOf (mcHoldVoq k s) j = if j = k then unheld s (voqOf s j) else voqOf s j := by
  have h : (mcHoldVoq k s).lnd.voq = (setVoq k (unheld s (voqOf s k)) s).lnd.voq := lndAside_part LndSt.voq (fun _ => rfl) (mcHoldVoq_lndAside k s)
  unfold voqOf at *
  rw [h]
  split
  · next hj => subst hj; exact tget_tput_self _ _ _ _
  · next hj => exact tget_tput_ne _ _ _ hj

/-- The hold limit leaves the limit itself, the rings run and the paths. -/
theorem mcHoldVoq_frame (k : Key) (s : State) : (mcHoldVoq k s).lnd.cfg = s.lnd.cfg ∧ (mcHoldVoq k s).lnd.path = s.lnd.path :=
  ⟨(lndAside_part LndSt.cfg (fun _ => rfl) (mcHoldVoq_lndAside k s) :), (lndAside_part LndSt.path (fun _ => rfl) (mcHoldVoq_lndAside k s) :)⟩

theorem unheld_congr {s t : State} (hr : t.ran = s.ran) (hc : t.lnd.cfg = s.lnd.cfg) : unheld t = unheld s := by
  funext v; simp [unheld, holdOver, hr, hc]

/-- The VOQs after the hold limit of some of them. -/
theorem mcHoldVoqs (l : List (Key × Voq)) (s : State) (j : Key) :
    voqOf (foldS l (fun e => mcHoldVoq e.1) s) j = if j ∈ l.map Prod.fst then unheld s (voqOf s j) else voqOf s j := by
  induction l generalizing s with
  | nil => rfl
  | cons e l ih =>
    obtain ⟨hcfg, -⟩ := mcHoldVoq_frame e.1 s
    refine (ih (mcHoldVoq e.1 s)).trans ?_
    rw [unheld_congr (mcHoldVoq_ran e.1 s) hcfg, mcHoldVoq_voq]
    have hmem : j ∈ (e :: l).map Prod.fst ↔ j = e.1 ∨ j ∈ l.map Prod.fst := List.mem_cons
    by_cases hj : j = e.1
    · rw [if_pos hj, if_pos (hmem.mpr (.inl hj)), unheld_unheld, ite_self]
    · rw [if_neg hj]
      exact if_congr (by rw [hmem, or_iff_right hj]) rfl rfl

/-- A key that a table does not name reads as the default. -/
theorem tget_of_not_mem {α : Type} (d : α) {t : Tab α} {k : Key} (h : k ∉ t.map Prod.fst) : tget d t k = d := by
  induction t with
  | nil => rfl
  | cons e r ih =>
    simp only [List.map_cons, List.mem_cons, not_or] at h
    obtain ⟨hk, hr⟩ := h
    rw [tget_cons, if_neg (Ne.symm hk), ih hr]

/-- Every VOQ loses the head copies over the hold limit, and nothing else (R290). -/
theorem mcHold_voq (s : State) (k : Key) : voqOf (mcHold s) k = unheld s (voqOf s k) := by
  rw [mcHold_eq, mcHoldVoqs]
  split
  · rfl
  · next hk => rw [show voqOf s k = {} from tget_of_not_mem _ hk]; rfl

theorem mcHold_path (s : State) : (mcHold s).lnd.path = s.lnd.path :=
  foldS_keeps s (fun t => t.lnd.path) (fun e : Key × Voq => mcHoldVoq e.1) (fun e t => (mcHoldVoq_frame e.1 t).2) _

end Sys2Proof.Machine

/-! ### Counters that a fault leaves alone -/

namespace Sys2Proof.Machine

/-- Different counters stand under different keys. -/
theorem ctrKey_ne {k c : Ctr} (i j a b : Nat) (h : k ≠ c) : ctrKey k i j ≠ ctrKey c a b := by
  have hidx : k.ctorIdx ≠ c.ctorIdx := by
    intro e
    exact h ((Ctr.ofNat_ctorIdx k).symm.trans ((congrArg Ctr.ofNat e).trans (Ctr.ofNat_ctorIdx _)))
  simp [ctrKey, hidx]

@[simp] theorem ctrGet_progEvt (k : Ctr) (i j u c cid q n : Nat) (s : State) :
    ctrGet (progEvt u c cid q n s) k i j = ctrGet s k i j := by
  unfold progEvt; dsimp only; split <;> rfl

/-- A record of a fault changes no named counter but the count of records lost. -/
theorem ctrGet_newRec {k : Ctr} (i j cls u c cid e : Nat) (d : List Nat) (s : State) (h : k ≠ .lkoRecordsLost) :
    ctrGet (newRec cls u c cid e d s) k i j = ctrGet s k i j := by
  simp only [newRec]
  split
  · exact ctrGet_cnt_ne _ _ (ctrKey_ne i j 0 0 h)
  · rfl

theorem ctrGet_restartFault {k : Ctr} (i j u c cid : Nat) (d : List Nat) (s : State) (h : k ≠ .lkoRecordsLost) :
    ctrGet (restartFault u c cid d s) k i j = ctrGet s k i j := ctrGet_newRec i j 2 u c cid _ d s h

theorem ctrGet_fenceFault {k : Ctr} (i j u c cid : Nat) (d : List Nat) (s : State) (h : k ≠ .lkoRecordsLost) :
    ctrGet (fenceFault u c cid d s) k i j = ctrGet s k i j := by
  unfold fenceFault
  split
  · exact ctrGet_note s i j u c cid d h
  · split
    · exact ctrGet_restartFault i j u _ cid _ s h
    · exact ctrGet_newRec i j 1 u c cid _ d s h

theorem ctrGet_windowCount {k : Ctr} (i j u cause lim : Nat) (s : State) (h : k ≠ .lkoRecordsLost) :
    ctrGet (windowCount u cause lim s) k i j = ctrGet s k i j := by
  unfold windowCount
  dsimp only
  split
  · exact ctrGet_fenceFault i j u _ _ _ _ h
  · rfl

theorem ctrGet_cellNote {k : Ctr} (i j : Nat) (x : Cell) (f : Nat) (s : State) (h : k ≠ .lkoRecordsLost) :
    ctrGet (cellNote x f s) k i j = ctrGet s k i j := by
  unfold cellNote
  rw [ctrGet_note _ i j _ _ _ _ h]
  split
  · exact ctrGet_progEvt k i j _ _ _ _ _ s
  · rfl

@[simp] theorem ctrGet_dropCell (k : Ctr) (a b i j : Nat) (x : Cell) (s : State) :
    ctrGet (dropCell i j x s) k a b = ctrGet s k a b := rfl

theorem beatFinding_header (x : Cell) (s : State) :
    beatFinding x (0, true) s = windowCount (uPlane x.plane) 1 16 (cellNote x 1 (cnt .lndUncorrHdr x.plane 0 1 s)) := rfl

/-- A bad header is counted once (R285). -/
theorem cellIn_header_counted (x : Cell) (s : State) :
    ctrGet (cellIn x [(0, true)] s) .lndUncorrHdr x.plane 0 = (ctrGet s .lndUncorrHdr x.plane 0 + 1) % 2 ^ 64 := by
  have hne : Ctr.lndUncorrHdr ≠ .lkoRecordsLost := by decide
  have hone : foldS [((0 : Fin 17), true)] (beatFinding x) s = beatFinding x (0, true) s := rfl
  rw [cellIn_header s List.mem_cons_self, ctrGet_dropCell, hone, beatFinding_header, ctrGet_windowCount _ _ _ _ _ _ hne,
    ctrGet_cellNote _ _ _ _ _ hne, ctrGet_cnt_self _ _ _ _ _ (by decide)]

/-! ### The rows of the crossing -/

theorem dropCell_lost (i j : Nat) (x : Cell) (s : State) :
    (reseqOf (dropCell i j x s) i j).lost = (reseqOf s i j).lost ++ [x] := by
  simp [dropCell, reseqOf_setReseq]

theorem beatFindings_lnd (x : Cell) (beats : Beats) (s : State) : (foldS beats (beatFinding x) s).lnd = s.lnd :=
  foldS_keeps s State.lnd _ (fun b t => beatFinding_lnd x b t) beats

@[simp] theorem spillMark_lnd (s : State) : (spillMark s).lnd = s.lnd := rfl
@[simp] theorem spillMark_clock (s : State) : (spillMark s).clock = s.clock := rfl
@[simp] theorem spillMark_ring (s : State) : (spillMark s).ring = s.ring := rfl
@[simp] theorem spillMark_cut (s : State) : (spillMark s).cut = s.cut := rfl

/-- CELL_SLOT of a running module. -/
theorem exec_cellSlot {s : State} (slot : Fin 160) (errs : CellErrs) (hh : halted s = false) :
    exec (.cellSlot slot errs) s = .next (spillMark (cellSlot slot.val errs s)) :=
  congrArg Host.Outcome.next (unlessHalted_running _ hh)

/-- A slot's match is what both matchers find after the crossing (R282). -/
theorem cellSlot_mtch (slot : Nat) (errs : CellErrs) (s : State) :
    let v := slotCross errs (slotBegin slot s)
    let a := matchPlane 0 (requestsOf v 0) v
    let b := matchPlane 1 (requestsOf v 1) a.2
    (cellSlot slot errs s).lnd.mtch = a.1.map (fun ij => (0, ij.1, ij.2)) ++ b.1.map (fun ij => (1, ij.1, ij.2)) := rfl

theorem reseqTimeout_eq (i j clk : Nat) (s : State) : reseqTimeout i j clk s =
    if (∀ y ∈ (reseqOf s i j).held, y.seq ≠ (reseqOf s i j).next) ∧
        ∃ y ∈ (reseqOf s i j).held, y.at_ + fld s.lnd.cfg 26 16 ≤ s.ran * 1600 + clk
      then declareLost i j { s with clock := clk } else { s with clock := clk } := by
  unfold reseqTimeout
  refine if_congr ?_ rfl rfl
  simp only [Bool.and_eq_true, List.all_eq_true, List.any_eq_true, bne_iff_ne, decide_eq_true_eq]
  rfl

end Sys2Proof.Machine

namespace Sys2Proof.Proofs
open Machine

/-- Settles O50: each part of the crossing by the equation of its operation; the hold limit by an induction over the VOQs. -/
theorem crossing : Obligations.Crossing := by
  intro s hh
  have row {t : State} (u : State) (h : u = t) : (.next (unlessHalted s u) : Out) = .next t :=
    congrArg Host.Outcome.next ((unlessHalted_running _ hh).trans h)
  refine ⟨fun slot errs => ⟨fun hpipe hm hv hp => ?_, ?_⟩, fun plane i j c n hcur => ?_, fun plane i j seq clk beats => ?_,
    fun x beats => ⟨fun he => ?_, fun he hw => ?_, fun he hw hn hvoid hheld => ?_, fun hb => ?_, ?_⟩,
    fun i j clk => ⟨fun hy => ?_, fun hy => ?_, fun hn hy => ?_⟩, fun hb => boundaryRow_off _ hb, fun hb => ?_⟩
  · refine ⟨_, exec_cellSlot slot errs hh, ?_⟩
    rw [spillMark_lnd, spillMark_clock, spillMark_ring, spillMark_cut]
    exact cellSlot_idle errs hpipe hm hv hp
  · refine ⟨_, exec_cellSlot slot errs hh, ?_⟩
    rw [spillMark_lnd]
    exact cellSlot_mtch slot errs s
  · refine ⟨sentCell plane i j c n s, sendCell_flight hcur, rfl, rfl, rfl, rfl, rfl, rfl, rfl, rfl, rfl, rfl, ?_, fun h => ?_, fun h => ?_⟩ <;>
      rw [sendCell_path hcur]
    · rfl
    · simp [sentPath, h]
    · simp [sentPath, h]
  · intro u mine here
    have hrow : exec (.cellArrive plane i j seq clk beats) s = .next (cellArrive plane i j seq.toNat clk beats s) := row _ rfl
    refine ⟨fun hfind => ?_, fun x hfind => ⟨fun hat => ?_, fun hat => ?_⟩⟩ <;> refine hrow.trans (congrArg Host.Outcome.next ?_)
    all_goals
      unfold cellArrive
      dsimp only
      rw [show s.lnd.flight.find? _ = _ from hfind]
    · exact if_pos hat
    · exact if_neg (Nat.not_lt.mpr hat)
  · exact (cellIn_clean x s).trans (if_pos he)
  · exact (cellIn_clean x s).trans ((if_neg (not_not.mpr he)).trans (if_pos hw))
  · exact cellIn_held he hw hn hvoid hheld
  · rw [cellIn_header s hb, dropCell_lost]
    unfold reseqOf
    rw [beatFindings_lnd]
  · exact cellIn_header_counted x s
  · obtain ⟨y, hm, hseq⟩ := hy
    exact row _ ((reseqTimeout_eq i j clk s).trans (if_neg fun h => h.1 y hm hseq))
  · exact row _ ((reseqTimeout_eq i j clk s).trans (if_neg fun h => by
      obtain ⟨-, y, hm, hle⟩ := h
      exact Nat.not_le.mpr (hy y hm) hle))
  · exact row _ ((reseqTimeout_eq i j clk s).trans (if_pos ⟨hn, hy⟩))
  · exact ⟨mcHold s, boundaryRow_at mcHold hh hb, fun k => by rw [mcHold_voq]; exact ⟨rfl, rfl, rfl⟩, mcHold_path s⟩

end Sys2Proof.Proofs

/-! ## The kerf engines (R218 to R266) -/

namespace Sys2Proof.Machine

/-! ### What the end of a copy leaves of the engines and of the counts of dispatch -/

/-- The engines, and the counts of routines begun and of copies that bypass them. -/
def engView (s : State) : Tab Eng × (Nat → Nat) × (Nat → Nat) :=
  (s.krf.eng, fun c => ctrGet s .krfRoutines c 0, fun c => ctrGet s .krfBypass c 0)

theorem engView_cnt {k : Ctr} (i j n : Nat) (s : State) (hr : k ≠ .krfRoutines) (hb : k ≠ .krfBypass) :
    engView (cnt k i j n s) = engView s := by
  have h1 (c : Nat) : ctrGet (cnt k i j n s) .krfRoutines c 0 = ctrGet s .krfRoutines c 0 :=
    ctrGet_cnt_ne _ _ (ctrKey_ne _ _ _ _ hr.symm)
  have h2 (c : Nat) : ctrGet (cnt k i j n s) .krfBypass c 0 = ctrGet s .krfBypass c 0 :=
    ctrGet_cnt_ne _ _ (ctrKey_ne _ _ _ _ hb.symm)
  simp only [engView, h1, h2, cnt_krf]

theorem engView_blaze (st : BitVec 128) (pos stage port cls u d side pipe : Nat) (s : State) :
    engView (blaze st pos stage port cls u d side pipe s) = engView s := by
  unfold blaze
  split
  · dsimp only
    split
    · exact engView_cnt _ _ _ s (by decide) (by decide)
    · exact foldS_keeps s engView _ (fun e t => by
        split
        · exact engView_cnt _ _ _ t (by decide) (by decide)
        · rfl) _
  · rfl

theorem ctrGet_ctrMax_ne {k d : Ctr} {i j a b : Nat} (n : Nat) (s : State) (h : d ≠ k) :
    ctrGet (ctrMax k i j n s) d a b = ctrGet s d a b := by
  simp only [ctrGet, ctrMax]
  exact tget_tmod_ne _ _ _ (ctrKey_ne _ _ _ _ h)

theorem engView_ctrMax {k : Ctr} (i j n : Nat) (s : State) (hr : k ≠ .krfRoutines) (hb : k ≠ .krfBypass) :
    engView (ctrMax k i j n s) = engView s := by
  have h1 (c : Nat) : ctrGet (ctrMax k i j n s) .krfRoutines c 0 = ctrGet s .krfRoutines c 0 :=
    ctrGet_ctrMax_ne _ _ hr.symm
  have h2 (c : Nat) : ctrGet (ctrMax k i j n s) .krfBypass c 0 = ctrGet s .krfBypass c 0 :=
    ctrGet_ctrMax_ne _ _ hb.symm
  simp only [engView, h1, h2, ctrMax_krf]

theorem engView_progEvt (u c cid q n : Nat) (s : State) : engView (progEvt u c cid q n s) = engView s := by
  simp only [engView, progEvt_krf, ctrGet_progEvt]

theorem engView_settle (c : Copy) (lost : Bool) (s : State) : engView (settle c lost s) = engView s := by
  change engView (settleFrame c lost s) = _
  unfold settleFrame
  dsimp only
  split
  · rfl
  next f _ =>
    change engView (match f.pset with | some p => _ | none => _) = _
    cases f.pset with
    | none => rfl
    | some p =>
      dsimp only
      split
      · exact engView_cnt _ _ _ _ (by decide) (by decide)
      · rfl

theorem engView_discardCrossed {k : Ctr} (i j cause : Nat) (lost : Bool) (c : Copy) (s : State) (hr : k ≠ .krfRoutines)
    (hb : k ≠ .krfBypass) : engView (discardCrossed k i j cause lost c s) = engView s := by
  unfold discardCrossed
  rw [engView_settle]
  change engView (blazeDrop _ _ _ _ _ _) = _
  unfold blazeDrop
  rw [engView_blaze, engView_cnt _ _ _ _ hr hb]

/-! ### What a dispatch releases (R218, R286) -/

theorem engView_reassembled (c : Copy) (s : State) : engView (reassembled c s) = engView s := by
  unfold reassembled
  dsimp only
  split
  · exact engView_discardCrossed _ _ _ _ _ _ (by decide) (by decide)
  split
  · exact engView_discardCrossed _ _ _ _ _ _ (by decide) (by decide)
  split
  · exact engView_discardCrossed _ _ _ _ _ _ (by decide) (by decide)
  · rfl

theorem engView_takeCell (i j : Nat) (x : Cell) (s : State) : engView (takeCell i j x s) = engView s := by
  unfold takeCell
  dsimp only
  split
  · rfl
  split
  · exact engView_reassembled _ _
  · rfl

theorem engView_releaseSeq (i j fuel : Nat) (s : State) : engView (releaseSeq i j fuel s) = engView s := by
  induction fuel generalizing s with
  | zero => rfl
  | succ n ih =>
    unfold releaseSeq
    dsimp only
    split
    · exact ih _
    · split
      · rfl
      · split
        · rfl
        · exact (ih _).trans (engView_takeCell _ _ _ _)

theorem engView_releaseHeld (p : Nat) (s : State) : engView (releaseHeld p s) = engView s :=
  foldS_keeps s engView _ (fun j t => foldS_keeps t engView _ (fun i u => engView_releaseSeq i j 128 u) _) _

theorem engOf_of_engView {s t : State} (h : engView t = engView s) (p e : Nat) : engOf t p e = engOf s p e := by
  have heng : t.krf.eng = s.krf.eng := (congrArg Prod.fst h :)
  unfold engOf
  rw [heng]

theorem routines_of_engView {s t : State} (h : engView t = engView s) (c : Nat) :
    ctrGet t .krfRoutines c 0 = ctrGet s .krfRoutines c 0 := congrArg (fun v => v.2.1 c) h

theorem bypass_of_engView {s t : State} (h : engView t = engView s) (c : Nat) :
    ctrGet t .krfBypass c 0 = ctrGet s .krfBypass c 0 := congrArg (fun v => v.2.2 c) h

theorem engOf_setEng_self (p e : Nat) (x : Eng) (s : State) : engOf (setEng p e x s) p e = x := tget_tput_self _ _ _ _

theorem engOf_setEng_ne {p e d : Nat} (x : Eng) (s : State) (h : d ≠ e) : engOf (setEng p e x s) p d = engOf s p d :=
  tget_tput_ne _ _ _ (by simpa using h)

/-! ### Dispatch (R218 to R222) -/

theorem enterDue_idle {p : Nat} {s : State} (h : tget [] s.krf.ready (k1 p) = []) : enterDue p s = s := by
  unfold enterDue
  dsimp only
  rw [h]
  rfl

theorem dispatchHead_none {p : Nat} {s : State} (h : tget [] s.krf.queue (k1 p) = []) : dispatchHead s p = none := by
  simp [dispatchHead, h]

/-- A head is not dispatched before its 24 clocks have passed (R31). -/
theorem dispatchHead_early {p : Nat} {s : State} {c : Copy} {r : List Copy} (h : tget [] s.krf.queue (k1 p) = c :: r)
    (hc : nowClk s < c.at_) : dispatchHead s p = none := by
  simp [dispatchHead, h, Option.filter, Nat.not_le.mpr hc]

theorem dispatchHead_due {p : Nat} {s : State} {c : Copy} {r : List Copy} (h : tget [] s.krf.queue (k1 p) = c :: r)
    (hc : c.at_ ≤ nowClk s) (hn : tget 0 s.krf.next (k1 p) ≤ nowClk s) : dispatchHead s p = some c := by
  simp [dispatchHead, h, Option.filter, hc, Nat.not_lt.mpr hn]

theorem kerfDispatch_none {p clk : Nat} {s : State} (errs : CellErrs) (found : Stores)
    (hr : tget [] s.krf.ready (k1 p) = []) (h : dispatchHead { s with clock := clk } p = none) :
    kerfDispatch p clk errs found s = { s with clock := clk } := by
  have henter : enterDue p { s with clock := clk } = { s with clock := clk } := enterDue_idle hr
  unfold kerfDispatch
  dsimp only
  rw [henter, h]

/-- The lowest idle engine of a pipeline. -/
def idleEngine (s : State) (p : Nat) : Option Nat := (List.range 32).find? (fun e => !engBusy s p e)

theorem idleEngine_none {s : State} {p : Nat} (h : ∀ e, e < 32 → engBusy s p e = true) : idleEngine s p = none := by
  simpa [idleEngine] using h

theorem idleEngine_some {s : State} {p e : Nat} (he : e < 32) (hi : engBusy s p e = false)
    (h : ∀ d, d < e → engBusy s p d = true) : idleEngine s p = some e := by
  unfold idleEngine
  rw [List.find?_range_eq_some]
  exact ⟨by simp [hi], List.mem_range.mpr he, fun d hd => by simp [h d hd]⟩

/-- A copy whose action has no routine bypasses the engines (R222). -/
def bypassed (p : Nat) (c : Copy) (s : State) : State :=
  let t := blaze c.fi.stamp c.fi.pos 8 c.port c.cls (uEgress p) 65535 1 p (cnt .krfBypass (stCid c.fi.stamp) 0 1 (takeHead p c s))
  releaseHeld p (leaveKerf p (nowClk t) { copy := c, bytes := c.fi.bytes, out := 0 } t)

/-- The engine that starts a copy at its action's entry (R222). -/
def startedEng (c : Copy) (s : State) : Eng :=
  { phase := 1, copy := some c, disp := nowClk s, upc := actEntry (copyAct s c), bytes := c.fi.bytes }

/-- Engine `e` takes the head of the dispatch queue. -/
def started (p e : Nat) (c : Copy) (s : State) : State :=
  let t := setEng p e (startedEng c s) (cnt .krfRoutines (stCid c.fi.stamp) 0 1 (takeHead p c s))
  releaseHeld p (blaze c.fi.stamp c.fi.pos 8 c.port c.cls (uEgress p) e 1 p
    (progEvt (uEgress p) 0x20 (stCid c.fi.stamp) (2 ^ c.cls) 1 (ctrMax .krfPeakBusy p 0 (busyCount t p) t)))

theorem headErrs_nil (s : State) : headErrs [] s = s := rfl

theorem nowClk_takeHead (p : Nat) (c : Copy) (s : State) : nowClk (takeHead p c s) = nowClk s := rfl

/-- A head read without errors bypasses the engines, waits, or goes to the lowest idle engine (R218, R222). -/
theorem kerfDispatch_clean {p clk : Nat} {s : State} {c : Copy} (hr : tget [] s.krf.ready (k1 p) = [])
    (h : dispatchHead { s with clock := clk } p = some c) (hb : storesBad s c [] = []) :
    let u : State := { s with clock := clk }
    kerfDispatch p clk [] [] s = if actEntry (copyAct s c) = 0 then bypassed p c u
      else match idleEngine u p with | none => u | some e => started p e c u := by
  intro u
  have henter : enterDue p u = u := enterDue_idle hr
  have hbad : storesBad u c [] = [] := hb
  unfold kerfDispatch
  dsimp only
  rw [henter, h]
  simp only [hbad, List.any_nil, List.isEmpty_nil, Bool.not_true, Bool.or_false, Bool.false_eq_true, if_false, headErrs_nil,
    nowClk_takeHead]
  refine if_congr Iff.rfl rfl ?_
  change (match idleEngine u p with | none => _ | some e => _) = _
  cases idleEngine u p with
  | none => rfl
  | some e => rfl

/-- What leaves the engines (R220) or is released behind a dispatch changes no engine and no count of dispatch. -/
theorem engView_bypassed (p : Nat) (c : Copy) (s : State) :
    engView (bypassed p c s) = engView (cnt .krfBypass (stCid c.fi.stamp) 0 1 s) := by
  unfold bypassed leaveKerf
  dsimp only
  rw [engView_releaseHeld, engView_settle]
  exact engView_blaze _ _ _ _ _ _ _ _ _ _

theorem engView_started (p e : Nat) (c : Copy) (s : State) :
    engView (started p e c s) = engView (setEng p e (startedEng c s) (cnt .krfRoutines (stCid c.fi.stamp) 0 1 s)) := by
  unfold started
  dsimp only
  rw [engView_releaseHeld, engView_blaze, engView_progEvt, engView_ctrMax _ _ _ _ (by decide) (by decide)]
  rfl

/-- A copy without a routine takes no engine and is counted (R222). -/
theorem bypassed_spec (p : Nat) (c : Copy) (s : State) :
    (∀ d, engOf (bypassed p c s) p d = engOf s p d) ∧
      ctrGet (bypassed p c s) .krfBypass (stCid c.fi.stamp) 0 = (ctrGet s .krfBypass (stCid c.fi.stamp) 0 + 1) % 2 ^ 64 := by
  have h := engView_bypassed p c s
  exact ⟨fun d => engOf_of_engView h p d, (bypass_of_engView h _).trans (ctrGet_cnt_self _ _ _ _ _ (by decide))⟩

/-- The engine taken stands at its routine's entry, the others as they stood, and the routine is counted (R222). -/
theorem started_spec (p e : Nat) (c : Copy) (s : State) :
    engOf (started p e c s) p e = startedEng c s ∧ (∀ d, d ≠ e → engOf (started p e c s) p d = engOf s p d) ∧
      ctrGet (started p e c s) .krfRoutines (stCid c.fi.stamp) 0 = (ctrGet s .krfRoutines (stCid c.fi.stamp) 0 + 1) % 2 ^ 64 := by
  have h := engView_started p e c s
  exact ⟨(engOf_of_engView h p e).trans (engOf_setEng_self _ _ _ _),
    fun d hd => (engOf_of_engView h p d).trans (engOf_setEng_ne _ _ hd),
    (routines_of_engView h _).trans (ctrGet_cnt_self _ _ _ _ _ (by decide))⟩

/-! ### The microcycle (R229, R234, R264) -/

theorem windowFetchDone_eq (p e clk : Nat) (s : State) :
    let u : State := { s with clock := clk }
    windowFetchDone p e clk s = if (engOf s p e).phase = 2 ∧ engDue (engOf s p e) ≤ nowClk u
      then setEng p e { (engOf s p e) with phase := 1 } (progEvt (uEgress p) 0x23 255 0 40 u) else u := rfl

/-- An engine without a copy, in a stall, or not yet done with its last word executes none (R234). -/
theorem microcycle_waits {p e clk : Nat} {s : State} (mb nb : Bool) (ab : Option (Fin 16))
    (h : (engOf s p e).copy = none ∨ (engOf s p e).phase ≠ 1 ∨ nowClk { s with clock := clk } < engDue (engOf s p e)) :
    microcycle p e clk mb nb ab s = { s with clock := clk } := by
  change (match (engOf s p e).copy with | none => _ | some c => _) = _
  cases hc : (engOf s p e).copy with
  | none => rfl
  | some c =>
    have hw := h.resolve_left (by simp [hc])
    exact if_pos hw

/-- An engine that is due fetches its word and executes it, or is aborted for a word that fails (R244, R264). -/
theorem microcycle_due {p e clk : Nat} {s : State} {c : Copy} (mb nb : Bool) (ab : Option (Fin 16))
    (hc : (engOf s p e).copy = some c) (hp : (engOf s p e).phase = 1) :
    let u : State := { s with clock := clk }
    let x := engOf s p e
    let mw := tget 0 (storesAt s x.disp).micro (k1 x.upc)
    let na := fld mw 31 18
    engDue x ≤ nowClk u → microcycle p e clk mb nb ab s =
      if mb || storeBad s p x.upc then storeParity p e x c 0 x.upc u
      else if nb || storeBad s p (16384 + na) then storeParity p e x c 1 na u
      else execWord p e x c mw (tget 0 (storesAt s x.disp).nano (k1 na)) ab u := by
  intro u x mw na hd
  change (match x.copy with | none => _ | some c => _) = _
  rw [show x.copy = some c from hc]
  exact if_neg (not_or.mpr ⟨not_not.mpr hp, Nat.not_lt.mpr hd⟩)

/-- A word that raises nothing and has no TRAP_RETURN (R264, R266). -/
theorem execWord_quiet {p e : Nat} {x : Eng} {c : Copy} {mw : BitVec 32} {nw : BitVec 256} {ab : Option (Fin 16)} {s : State}
    (hn : bit nw 240 = false) :
    let o := runWord (inRegions s (stCid c.fi.stamp)) x c (actView s c ab) nw
    let y := { o.eng with used := x.used + 1 }
    let v := progEvt (uEgress p) 0x23 255 0 1 s
    let next := nextAddr (fld mw 17 4) (condTrue (fld mw 3 0) y.z y.n y.c y.v y.u)
    o.causes = [] → fld mw 3 0 ≠ 14 → execWord p e x c mw nw ab s =
      if fld mw 3 0 = 15 then finish p e y c v else budgetTest p e { y with upc := next } c x.upc v := by
  intro o y v next ho h14
  unfold execWord
  dsimp only
  rw [show (runWord (inRegions s (stCid c.fi.stamp)) x c (actView s c ab) nw).causes = [] from ho]
  simp only [hn, Bool.false_and, Bool.false_eq_true, if_false, if_neg h14]
  rfl

theorem budgetTest_within {p e : Nat} {x : Eng} {c : Copy} (upc : Nat) (s : State) (h : x.used < copyBudget c) :
    budgetTest p e x c upc s = setEng p e x s := if_pos h

/-! ### To the scheduler (R220, R441, R442) -/

theorem copyToScheduler_none {p port cls clk : Nat} {s : State}
    (h : ∀ o ∈ tget [] s.krf.order (k1 p), o.port ≠ port ∨ o.cls ≠ cls) :
    copyToScheduler p port cls clk s = { s with clock := clk } := by
  have hfind : (tget [] s.krf.order (k1 p)).find? (fun o => o.port == port && o.cls == cls) = none := by
    rw [List.find?_eq_none]
    intro o ho
    have := h o ho
    simp only [Bool.and_eq_true, beq_iff_eq, not_and_or]
    exact this
  unfold copyToScheduler
  dsimp only
  rw [hfind]

section
variable {p port cls clk : Nat} {s : State} {o : Slot220}

/-- The oldest copy of a port and class waits for its routine's end (R220). -/
theorem copyToScheduler_waits
    (h : (tget [] s.krf.order (k1 p)).find? (fun o => o.port == port && o.cls == cls) = some o)
    (hw : o.done = none ∨ nowClk { s with clock := clk } < o.at_) :
    copyToScheduler p port cls clk s = { s with clock := clk } := by
  unfold copyToScheduler
  cases hd : o.done with
  | none => simp only [h, hd]
  | some d => simpa only [h, hd] using if_pos (hw.resolve_left (by simp [hd]))

/-- The oldest copy of a port and class that has left its engine passes to the scheduler (R220). -/
theorem copyToScheduler_passes {d : Done}
    (h : (tget [] s.krf.order (k1 p)).find? (fun o => o.port == port && o.cls == cls) = some o)
    (hd : o.done = some d) (hat : o.at_ ≤ nowClk { s with clock := clk }) :
    copyToScheduler p port cls clk s =
      guardTick port (dropOversize port (toScheduler d (dropOrder p d.copy { s with clock := clk }))) := by
  unfold copyToScheduler
  simpa only [h, hd] using if_neg (Nat.not_lt.mpr hat)

end

/-- The queue entry of a copy that no rule discards (R220, R442). -/
theorem toScheduler_joins {d : Done} {s : State} (hs : stale s d.copy = false) (hup : (port s d.copy.port).up = true)
    (ha : attached s (stCid d.copy.fi.stamp) d.copy.port = true)
    (hd : tget 0 s.cmp.detached (k2 (stCid d.copy.fi.stamp) d.copy.port) ≤ d.copy.q) (he : egressOwn s d = true) :
    let k := k3 d.copy.port d.copy.cls (stCid d.copy.fi.stamp)
    toScheduler d s = { s with sch := { s.sch with
      queue := tput [] s.sch.queue k (tget [] s.sch.queue k ++ [{ d with arr := s.sch.arr }]), arr := s.sch.arr + 1 } } := by
  simp [toScheduler, hs, hup, ha, he, Nat.not_lt.mpr hd]

/-- With no gated head that no window can hold, none is discarded (R330). -/
theorem dropOversize_idle {p : Nat} {s : State} (h : oversizeHead s p = none) : dropOversize p s = s := by
  unfold dropOversize
  cases (s.sch.queue.map (fun e => if e.1.1 = p then e.2.length else 0)).foldl (· + ·) 0 with
  | zero => rfl
  | succ n => simp only [dropOversizeN, h]

end Sys2Proof.Machine

namespace Sys2Proof.Proofs
open Machine

/-- Settles O51: dispatch by the lowest idle engine, a microcycle by what its word raises, the hand-over by the head of its order. -/
theorem kerfRoutines : Obligations.KerfRoutines := by
  intro s p clk hh u
  have row {t : State} (v : State) (h : v = t) : (.next (unlessHalted s v) : Out) = .next t :=
    congrArg Host.Outcome.next ((unlessHalted_running _ hh).trans h)
  refine ⟨fun errs stores hr hq => ?_, fun errs stores c r hr hq hc => ?_, fun c r hr hq hc hn hb => ?_, fun e hp hd => ?_,
    fun e h => ?_, fun e mb nb ab h => ?_, fun e c nb ab hcp hp hd => ?_, fun e c ab hcp hp hd => ?_, fun q cls h => ?_,
    fun q cls o hfind => ⟨fun h => ?_, fun d hdone hat hs hup ha hdet hown => ?_⟩⟩
  · exact row _ (kerfDispatch_none errs stores hr (dispatchHead_none hq))
  · exact row _ (kerfDispatch_none errs stores hr (dispatchHead_early (s := u) hq hc))
  · have hrun := kerfDispatch_clean (clk := clk) hr (dispatchHead_due (s := u) hq hc hn) hb
    refine ⟨fun ha hbusy => ?_, fun e ha he hidle hbusy => ?_, fun ha => ?_⟩
    · exact row _ (hrun.trans ((if_neg ha).trans (by rw [idleEngine_none (s := u) hbusy])))
    · obtain ⟨hself, hne, hcnt⟩ := started_spec p e c u
      exact ⟨started p e c u, row _ (hrun.trans ((if_neg ha).trans (by rw [idleEngine_some (s := u) he hidle hbusy]))), hself, hne, hcnt⟩
    · obtain ⟨heng, hcnt⟩ := bypassed_spec p c u
      exact ⟨bypassed p c u, row _ (hrun.trans (if_pos ha)), heng, hcnt⟩
  · exact row _ ((windowFetchDone_eq p e clk s).trans (if_pos ⟨hp, hd⟩))
  · refine row _ ((windowFetchDone_eq p e clk s).trans (if_neg fun hpd => ?_))
    obtain ⟨hp, hd⟩ := hpd
    exact h.elim (fun hne => hne hp) (Nat.not_lt.mpr hd)
  · exact row _ (microcycle_waits mb nb ab h)
  · exact row _ ((microcycle_due true nb ab hcp hp hd).trans (if_pos rfl))
  · intro x mw nw hmb hnb o y v
    have hword : exec (.microcycle p e clk false false ab) s = .next (execWord p e x c mw nw ab u) :=
      row _ ((microcycle_due false false ab hcp hp hd).trans
        ((if_neg (ne_true_of_eq_false hmb)).trans (if_neg (ne_true_of_eq_false hnb))))
    refine ⟨hword, fun ho hx hcond hused => ?_, fun ho hx hcond => ?_⟩ <;>
      refine hword.trans (congrArg Host.Outcome.next ((execWord_quiet hx ho (by omega)).trans ?_))
    · rw [if_neg (by omega)]
      exact budgetTest_within _ _ hused
    · exact if_pos hcond
  · exact row _ (copyToScheduler_none h)
  · exact row _ (copyToScheduler_waits hfind h)
  · have hjoin := toScheduler_joins (d := d) (s := dropOrder p d.copy u) hs hup ha hdet hown
    refine ⟨toScheduler d (dropOrder p d.copy u), row _ (copyToScheduler_passes hfind hdone hat), ?_, ?_, ?_, fun hv => dropOversize_idle hv⟩
    all_goals rw [hjoin]
    · exact ⟨tget_tput_self _ _ _ _, fun j hj => tget_tput_ne _ _ _ hj⟩
    · rfl
    · rfl

end Sys2Proof.Proofs

/-! ## The DRAM controller (R341 to R358) -/

namespace Sys2Proof.Machine

/-! ### The start of a request (R347 to R355) -/

theorem clearFrom_ge (bars : List (Nat × Nat)) (n fuel t : Nat) : t ≤ clearFrom bars n fuel t := by
  induction fuel generalizing t with
  | zero => exact Nat.le_refl t
  | succ k ih =>
    unfold clearFrom
    split
    · next b hb =>
      have hp := List.find?_some hb
      simp only [Bool.and_eq_true, decide_eq_true_eq] at hp
      obtain ⟨hlt, -⟩ := hp
      exact (Nat.le_of_lt hlt).trans (ih b.2)
    · exact Nat.le_refl t

theorem turnCost_le (s : State) (ch : Nat) (r : DReq) : turnCost s ch r ≤ 32 := by
  unfold turnCost
  dsimp only
  split
  · exact Nat.zero_le _
  · omega

/-- What a request waits for before it begins (R347 to R355). -/
theorem dramStart_after (s : State) (ch : Nat) (r : DReq) :
    r.at_ ≤ dramStart s ch r ∧ tget 0 s.dram.busy (k1 ch) + turnCost s ch r ≤ dramStart s ch r ∧
      (rankOf s ch (pageRank s r.page)).wakeAt ≤ dramStart s ch r ∧
      (r.cls = 0 → ((voqOf s r.voq).dram.head?.map Copy.at_).getD 0 + 1120 - dramClocks r ≤ dramStart s ch r) := by
  unfold dramStart
  dsimp only
  refine ⟨?_, ?_, ?_, fun h => ?_⟩ <;> refine le_trans ?_ (clearFrom_ge _ _ _ _)
  · omega
  · omega
  · omega
  · rw [if_pos h]
    omega

theorem foldl_min_le (l : List Nat) (a : Nat) : l.foldl min a ≤ a ∧ ∀ x ∈ l, l.foldl min a ≤ x := by
  induction l generalizing a with
  | nil => exact ⟨Nat.le_refl a, fun x hx => absurd hx List.not_mem_nil⟩
  | cons b l ih =>
    obtain ⟨hle, hall⟩ := ih (min a b)
    rw [List.foldl_cons]
    refine ⟨hle.trans (min_le_left a b), fun x hx => ?_⟩
    rcases List.mem_cons.mp hx with rfl | hx
    · exact hle.trans (min_le_right a x)
    · exact hall x hx

/-- No request of a list begins before the first. -/
theorem firstStart_le {s : State} {ch : Nat} {l : List DReq} {r : DReq} (h : r ∈ l) : firstStart s ch l ≤ dramStart s ch r := by
  cases l with
  | nil => exact absurd h List.not_mem_nil
  | cons b l =>
    obtain ⟨hle, hall⟩ := foldl_min_le (l.map (dramStart s ch)) (dramStart s ch b)
    rcases List.mem_cons.mp h with rfl | h
    · exact hle
    · exact hall _ (List.mem_map_of_mem h)

/-- The requests that can begin first all begin at one clock. -/
theorem servable_start {s : State} {ch : Nat} {r : DReq} (h : servable s ch r = true) :
    dramStart s ch r = firstStart s ch (dramCands s ch) := by
  simp only [servable, Bool.and_eq_true, List.contains_iff_mem, decide_eq_true_eq] at h
  obtain ⟨hm, hle⟩ := h
  exact Nat.le_antisymm hle (firstStart_le hm)

/-! ### The order of service (R347, R348) -/

/-- The next request of a class, where the class is within its entitlement, or where it is beyond it. -/
def spillPick (s : State) (ch : Nat) (l : List DReq) (w : Bool) (c : Nat) : Option DReq :=
  if decide (tget 0 s.dram.served (k2 ch c) < 4) == w then l.find? (fun r => r.cls == c) else none

theorem nextSpill_eq (s : State) (ch : Nat) (l : List DReq) (w : Bool) :
    nextSpill s ch l w = match spillPick s ch l w 0, spillPick s ch l w 1 with
      | some a, some b => if tget 0 s.dram.last (k1 ch) = 1 then some b else some a
      | some a, none => some a
      | none, x => x := rfl

theorem firstOf_some {l : List DReq} {c : Nat} {r : DReq} (h : l.find? (fun r => r.cls == c) = some r) : r ∈ l ∧ r.cls = c :=
  ⟨List.mem_of_find?_eq_some h, by simpa using List.find?_some h⟩

theorem firstOf_none {l : List DReq} {c : Nat} (h : l.find? (fun r => r.cls == c) = none) : ∀ x ∈ l, x.cls ≠ c := by
  simpa using h

theorem spillPick_some {s : State} {ch : Nat} {l : List DReq} {w : Bool} {c : Nat} {r : DReq} (h : spillPick s ch l w c = some r) :
    r ∈ l ∧ r.cls = c := by
  unfold spillPick at h
  split at h
  · exact firstOf_some h
  · contradiction

theorem spillPick_none {s : State} {ch : Nat} {l : List DReq} {w : Bool} {x : DReq} (h : spillPick s ch l w x.cls = none)
    (hx : x ∈ l) : decide (tget 0 s.dram.served (k2 ch x.cls) < 4) ≠ w := by
  intro hw
  unfold spillPick at h
  rw [if_pos (beq_iff_eq.mpr hw)] at h
  exact firstOf_none h x hx rfl

/-- A spill request that is chosen is of class 0 or 1. -/
theorem nextSpill_some {s : State} {ch : Nat} {l : List DReq} {w : Bool} {r : DReq} (h : nextSpill s ch l w = some r) :
    r ∈ l ∧ r.cls < 2 := by
  rw [nextSpill_eq] at h
  cases h0 : spillPick s ch l w 0 with
  | none =>
    obtain ⟨hm, hc⟩ := spillPick_some (c := 1) (r := r) (by simpa [h0] using h)
    exact ⟨hm, by omega⟩
  | some a =>
    obtain ⟨hma, hca⟩ := spillPick_some h0
    cases h1 : spillPick s ch l w 1 with
    | none =>
      obtain rfl : a = r := by simpa [h0, h1] using h
      exact ⟨hma, by omega⟩
    | some b =>
      obtain ⟨hmb, hcb⟩ := spillPick_some h1
      simp only [h0, h1] at h
      split at h <;> obtain rfl := Option.some.inj h
      · exact ⟨hmb, by omega⟩
      · exact ⟨hma, by omega⟩

/-- Where none is chosen, every spill request stands on the other side of its entitlement. -/
theorem nextSpill_none {s : State} {ch : Nat} {l : List DReq} {w : Bool} (h : nextSpill s ch l w = none) {x : DReq} (hx : x ∈ l)
    (hc : x.cls < 2) : decide (tget 0 s.dram.served (k2 ch x.cls) < 4) ≠ w := by
  refine spillPick_none ?_ hx
  rw [nextSpill_eq] at h
  cases h0 : spillPick s ch l w 0 with
  | some a =>
    cases h1 : spillPick s ch l w 1 with
    | none => simp [h0, h1] at h
    | some b => simp only [h0, h1] at h; split at h <;> contradiction
  | none =>
    have h1 : spillPick s ch l w 1 = none := by simpa [h0] using h
    have hcls : x.cls = 0 ∨ x.cls = 1 := by omega
    rcases hcls with e | e <;> rw [e]
    · exact h0
    · exact h1

/-- The first that a list of choices names. -/
theorem orElse_cases {α : Type} {a : Option α} {l : List (Option α)} {r : α} (h : (a :: l).findSome? id = some r) :
    a = some r ∨ a = none ∧ l.findSome? id = some r := by
  cases a with
  | none => exact .inr ⟨rfl, h⟩
  | some b => exact .inl h

/-- The request served next is one that can begin first, and no class that goes before it has one (R347). -/
theorem nextServe_order {s : State} {ch : Nat} {r : DReq} (h : nextServe s ch = some r) :
    (r ∈ s.dram.reqs ∧ servable s ch r = true) ∧ ∀ x ∈ s.dram.reqs, servable s ch x = true →
      (2 < r.cls → r.cls ≤ x.cls) ∧ (2 ≤ r.cls → x.cls < 2 → 4 ≤ tget 0 s.dram.served (k2 ch x.cls)) := by
  suffices hl : r ∈ s.dram.reqs.filter (servable s ch) ∧ ∀ x ∈ s.dram.reqs.filter (servable s ch),
      (2 < r.cls → r.cls ≤ x.cls) ∧ (2 ≤ r.cls → x.cls < 2 → 4 ≤ tget 0 s.dram.served (k2 ch x.cls)) from
    ⟨List.mem_filter.mp hl.1, fun x hx hs => hl.2 x (List.mem_filter.mpr ⟨hx, hs⟩)⟩
  unfold nextServe at h
  generalize s.dram.reqs.filter (servable s ch) = l at h ⊢
  rcases orElse_cases h with h1 | ⟨h1, h⟩
  · obtain ⟨hm, hc⟩ := nextSpill_some h1
    exact ⟨hm, fun x hx => ⟨by omega, by omega⟩⟩
  have beyond (x : DReq) (hx : x ∈ l) (hc : x.cls < 2) : 4 ≤ tget 0 s.dram.served (k2 ch x.cls) := by
    simpa using nextSpill_none h1 hx hc
  rcases orElse_cases h with h2 | ⟨h2, h⟩
  · obtain ⟨hm, hc⟩ := firstOf_some h2
    exact ⟨hm, fun x hx => ⟨by omega, fun _ => beyond x hx⟩⟩
  rcases orElse_cases h with h3 | ⟨h3, h⟩
  · obtain ⟨hm, hc⟩ := nextSpill_some h3
    exact ⟨hm, fun x hx => ⟨by omega, by omega⟩⟩
  have later (x : DReq) (hx : x ∈ l) : 2 < x.cls := by
    have hno2 := firstOf_none h2 x hx
    by_contra hle
    have hc : x.cls < 2 := by omega
    exact nextSpill_none h3 hx hc (by simpa using beyond x hx hc)
  have chosen {c : Nat} (hf : l.find? (fun r => r.cls == c) = some r) (hlow : ∀ x ∈ l, c ≤ x.cls) :
      r ∈ l ∧ ∀ x ∈ l, (2 < r.cls → r.cls ≤ x.cls) ∧ (2 ≤ r.cls → x.cls < 2 → 4 ≤ tget 0 s.dram.served (k2 ch x.cls)) := by
    obtain ⟨hm, hc⟩ := firstOf_some hf
    exact ⟨hm, fun x hx => ⟨fun _ => hc ▸ hlow x hx, fun _ => beyond x hx⟩⟩
  rcases orElse_cases h with h4 | ⟨h4, h⟩
  · exact chosen h4 fun x hx => later x hx
  rcases orElse_cases h with h5 | ⟨h5, h⟩
  · refine chosen h5 fun x hx => ?_
    have hlater := later x hx
    have hno3 := firstOf_none h4 x hx
    omega
  rcases orElse_cases h with h6 | ⟨h6, h⟩
  · refine chosen h6 fun x hx => ?_
    have hlater := later x hx
    have hno3 := firstOf_none h4 x hx
    have hno4 := firstOf_none h5 x hx
    omega
  · exact absurd h (by simp)

/-- After four switches in a ring the channel keeps its direction while reads and writes both wait (R348). -/
theorem nextServe_direction {s : State} {ch : Nat} {r x y : DReq} (h : nextServe s ch = some r)
    (ht : 4 ≤ tget 0 s.dram.turns (k1 ch)) (hx : x ∈ dramReady s ch) (hy : y ∈ dramReady s ch)
    (hxw : x.at_ ≤ firstStart s ch (dramReady s ch)) (hyw : y.at_ ≤ firstStart s ch (dramReady s ch))
    (hxd : dramDir x = tget 0 s.dram.dir (k1 ch)) (hyd : dramDir y ≠ tget 0 s.dram.dir (k1 ch)) :
    dramDir r = tget 0 s.dram.dir (k1 ch) := by
  obtain ⟨⟨-, hs⟩, -⟩ := nextServe_order h
  simp only [servable, Bool.and_eq_true, List.contains_iff_mem] at hs
  obtain ⟨hr, -⟩ := hs
  unfold dramCands at hr
  dsimp only at hr
  have hsame : x ∈ ((dramReady s ch).filter (fun r => decide (r.at_ ≤ firstStart s ch (dramReady s ch)))).filter
      (fun r => dramDir r == tget 0 s.dram.dir (k1 ch)) := by
    simp [hx, hxw, hxd]
  rw [if_pos ⟨ht, List.ne_nil_of_mem hsame, by simpa using ⟨y, hy, hyw, hyd⟩⟩] at hr
  simpa using (List.mem_filter.mp hr).2

theorem servedNow_iff (s : State) (ch : Nat) (r : DReq) :
    servedNow s ch = some r ↔ nextServe s ch = some r ∧ dramStart s ch r + 8 * r.slots.length ≤ nowClk s := by
  rw [servedNow, Option.filter_eq_some_iff]
  exact and_congr_right fun _ => decide_eq_true_iff

/-! ### A request that is served (R344, R346, R348) -/

theorem pageDone_fault (ch clk : Nat) (errs : Bursts) (s : State) :
    pageDone ch clk true errs s = restartFault 0x44 0x0C03 255 [] (stageDue (clkOf s clk) { s with clock := clk }) := rfl

theorem pageDone_none {ch clk : Nat} (errs : Bursts) {s : State}
    (h : chLive (stageDue (clkOf s clk) { s with clock := clk }) ch = false ∨
      servedNow (stageDue (clkOf s clk) { s with clock := clk }) ch = none) :
    pageDone ch clk false errs s = stageDue (clkOf s clk) { s with clock := clk } := by
  unfold pageDone
  dsimp only
  rw [if_neg Bool.false_ne_true]
  rcases h with h | h
  · simp [h]
  · rw [h]
    exact ite_self _

theorem pageDone_serves {ch clk : Nat} (errs : Bursts) {s : State} {r : DReq}
    (hl : chLive (stageDue (clkOf s clk) { s with clock := clk }) ch = true)
    (h : servedNow (stageDue (clkOf s clk) { s with clock := clk }) ch = some r) :
    pageDone ch clk false errs s = (let w := channelTake ch r (stageDue (clkOf s clk) { s with clock := clk })
      if r.write then writeServed r w else readServed r errs w) := by
  unfold pageDone
  dsimp only
  rw [if_neg Bool.false_ne_true, hl, h]
  rfl

theorem writeServed_scrub {r : DReq} (s : State) (h : r.cls = 5) : writeServed r s = scrubBack r s := if_pos h

theorem writeServed_stores {r : DReq} (s : State) (h : r.cls ≠ 5) : writeServed r s =
    (let m := dropBack r.page (foldS (r.slots.zip r.data) (fun e => writeSlot r.page r.ver e.1 e.2) s)
     if r.cls = 1 ∧ reqsOf m 1 r.voq = false then toDirect r.voq (writeDone r.voq m) else m) := if_neg h

/-! What the requester of a read does with what its bursts show (R346), by the request's class. -/

section
variable {r : DReq} {errs : Bursts} {s m : State} {f : List (Nat × Nat × Nat)}

theorem readServed_spill (h : readPage r errs s = (f, m)) (hc : r.cls = 0) : readServed r errs s =
    if reqsOf (markRead r (badSlots f) m) 0 r.voq then markRead r (badSlots f) m
    else readDone r.voq (markRead r (badSlots f) m) := by
  simp only [readServed, h, hc]

theorem readServed_tally (h : readPage r errs s = (f, m)) (hc : r.cls = 3) : readServed r errs s = readGot r (badSlots f) m := by
  simp only [readServed, h, hc]

theorem readServed_walk (h : readPage r errs s = (f, m)) (hc : r.cls = 4) : readServed r errs s = walkDone r.voq m := by
  simp only [readServed, h, hc]

theorem readServed_scrub (h : readPage r errs s = (f, m)) (hc : r.cls = 5) : readServed r errs s = scrubDone r f m := by
  simp only [readServed, h, hc]

end

/-! ### Bursts and their tags (R342, R344 to R346) -/

/-- The register of the CRC-16 holds 16 bits. -/
theorem crc16Byte_lt {r : Nat} (b : Byte) (h : r < 65536) : crc16Byte r b < 65536 := by
  unfold crc16Byte
  refine List.foldlRecOn (motive := (· < 2 ^ 16)) _ _ ?_ (fun a ha _ _ => ?_)
  · exact Nat.xor_lt_two_pow h (by have := b.isLt; omega)
  · split
    · exact Nat.xor_lt_two_pow (by omega) (by decide)
    · omega

theorem crc16_lt (l : List Byte) : crc16 l < 65536 := by
  unfold crc16
  exact List.foldlRecOn (motive := (· < 65536)) _ _ (by decide) (fun a ha b _ => crc16Byte_lt b ha)

/-- Address and version of a burst as its tag holds them (R345). -/
def tagBody (page subch burst ver : Nat) : Nat :=
  page % 2 ^ 25 + burst % 32 * 2 ^ 25 + subch % 2 * 2 ^ 30 + ver % 2 ^ 16 * 2 ^ 32

theorem tagBody_lt (page subch burst ver : Nat) : tagBody page subch burst ver < 2 ^ 48 := by
  unfold tagBody; omega

theorem tagOf_toNat (page subch burst ver : Nat) : (tagOf page subch burst ver).toNat =
    tagBody page subch burst ver + crc16 (leBytes 6 (tagBody page subch burst ver)) * 2 ^ 48 := by
  have hx := tagBody_lt page subch burst ver
  have hc := crc16_lt (leBytes 6 (tagBody page subch burst ver))
  change (BitVec.ofNat 64 (tagBody page subch burst ver + crc16 (leBytes 6 (tagBody page subch burst ver)) * 2 ^ 48)).toNat = _
  rw [BitVec.toNat_ofNat]
  exact Nat.mod_eq_of_lt (by omega)

/-- The fields of a tag: what its check covers, and the check. -/
theorem tagOf_check (page subch burst ver : Nat) :
    fld (tagOf page subch burst ver) 47 0 = tagBody page subch burst ver ∧
      fld (tagOf page subch burst ver) 63 48 = crc16 (leBytes 6 (tagBody page subch burst ver)) := by
  have hx := tagBody_lt page subch burst ver
  have hc := crc16_lt (leBytes 6 (tagBody page subch burst ver))
  unfold fld
  rw [tagOf_toNat]
  generalize crc16 (leBytes 6 (tagBody page subch burst ver)) = c at hc ⊢
  omega

/-- The address and the version that a tag gives (R345). -/
theorem tagOf_fields {page subch burst : Nat} (ver : Nat) (hp : page < 2 ^ 25) (hs : subch < 2) (hb : burst < 32) :
    fld (tagOf page subch burst ver) 24 0 = page ∧ fld (tagOf page subch burst ver) 29 25 = burst ∧
      fld (tagOf page subch burst ver) 30 30 = subch ∧ fld (tagOf page subch burst ver) 47 32 = ver % 65536 := by
  unfold fld
  rw [tagOf_toNat]
  generalize crc16 (leBytes 6 (tagBody page subch burst ver)) = c
  unfold tagBody
  omega

/-- A burst that stands under its own tag passes the first step of R346; what follows is up to its codewords and its version. -/
theorem burstStep_tagged {page subch burst : Nat} (ver : Nat) (want : Option Nat) {x : Burst} (hp : page < 2 ^ 25)
    (hs : subch < 2) (hb : burst < 32) (ht : x.tag = tagOf page subch burst ver) (hf : x.tagFlip = 0) :
    burstStep page subch burst want x =
      if x.flips.any (fun n => decide (2 ≤ n)) then some 1
      else if want.any (fun v => v % 65536 != ver % 65536) then some 2
      else if x.flips.any (· == 1) then some 3 else none := by
  obtain ⟨hbody, hcheck⟩ := tagOf_check page subch burst ver
  obtain ⟨hpage, hburst, hsub, hver⟩ := tagOf_fields ver hp hs hb
  have hx : x.tag ^^^ x.tagFlip = tagOf page subch burst ver := by rw [ht, hf]; simp
  unfold burstStep
  dsimp only
  rw [hx, hbody, hcheck, hpage, hburst, hsub, hver]
  simp

theorem fld_xor {w : Nat} (x y : BitVec w) (hi lo : Nat) : fld (x ^^^ y) hi lo = fld x hi lo ^^^ fld y hi lo := by
  unfold fld
  rw [BitVec.toNat_xor, Nat.xor_div_two_pow, Nat.xor_mod_two_pow]

theorem fld_twoPow {hi lo j : Nat} (hj : j < 64) (hlo : lo ≤ j) (hhi : j ≤ hi) :
    fld (BitVec.ofNat 64 (2 ^ j)) hi lo = 2 ^ (j - lo) := by
  unfold fld
  rw [BitVec.toNat_ofNat, Nat.mod_eq_of_lt (Nat.pow_lt_pow_right (by decide) hj), Nat.pow_div hlo (by decide)]
  exact Nat.mod_eq_of_lt (Nat.pow_lt_pow_right (by decide) (by omega))

theorem fld_twoPow_above {hi j : Nat} (hj : j < 64) (hhi : hi < j) : fld (BitVec.ofNat 64 (2 ^ j)) hi 0 = 0 := by
  unfold fld
  rw [BitVec.toNat_ofNat, Nat.mod_eq_of_lt (Nat.pow_lt_pow_right (by decide) hj), pow_zero, Nat.div_one]
  exact Nat.mod_eq_zero_of_dvd (Nat.pow_dvd_pow 2 (by omega))

/-- A wrong bit in the check of a tag is found (R346). -/
theorem burstStep_checkFlip {page subch burst ver j : Nat} (want : Option Nat) {x : Burst}
    (ht : x.tag = tagOf page subch burst ver) (hlo : 48 ≤ j) (hhi : j < 64) (hf : x.tagFlip = BitVec.ofNat 64 (2 ^ j)) :
    burstStep page subch burst want x = some 0 := by
  obtain ⟨hbody, hcheck⟩ := tagOf_check page subch burst ver
  have hbody' : fld (x.tag ^^^ x.tagFlip) 47 0 = tagBody page subch burst ver := by
    rw [fld_xor, ht, hf, hbody, fld_twoPow_above hhi hlo, Nat.xor_zero]
  have hcheck' : fld (x.tag ^^^ x.tagFlip) 63 48 ≠ crc16 (leBytes 6 (tagBody page subch burst ver)) := by
    rw [fld_xor, ht, hf, hcheck, fld_twoPow hhi hlo (by omega)]
    intro h
    have hpos := Nat.two_pow_pos (j - 48)
    exact hpos.ne' (Nat.xor_right_injective (h.trans (Nat.xor_zero _).symm))
  unfold burstStep
  dsimp only
  rw [hbody']
  exact if_pos (.inl hcheck'.symm)

/-! ### Slots as they are written (R342, R344) -/

theorem burstAt_putBurst_self (page c b : Nat) (x : Burst) (s : State) : burstAt (putBurst page c b x s) page c b = x :=
  tget_tput_self _ _ _ _

theorem burstAt_putBurst_ne {page c b d e : Nat} (x : Burst) (s : State) (h : (d, e) ≠ (c, b)) :
    burstAt (putBurst page c b x s) page d e = burstAt s page d e :=
  tget_tput_ne _ _ _ (by simpa using h)

theorem burstAt_foldS_ne {f : Nat × Nat × Nat → Burst} {page c b : Nat} {l : List (Nat × Nat × Nat)} (s : State)
    (h : (c, b) ∉ l.map (fun b => (b.1, b.2.1))) :
    burstAt (foldS l (fun b => putBurst page b.1 b.2.1 (f b)) s) page c b = burstAt s page c b := by
  induction l generalizing s with
  | nil => rfl
  | cons a l ih =>
    obtain ⟨ha, hl⟩ := not_or.mp (List.mem_cons.not.mp h)
    exact (ih _ hl).trans (burstAt_putBurst_ne _ s ha)

/-- Bursts written at different places stand as they were written. -/
theorem burstAt_foldS_putBurst {f : Nat × Nat × Nat → Burst} {page : Nat} {l : List (Nat × Nat × Nat)} {b : Nat × Nat × Nat}
    (s : State) (hn : (l.map (fun b => (b.1, b.2.1))).Nodup) (hb : b ∈ l) :
    burstAt (foldS l (fun b => putBurst page b.1 b.2.1 (f b)) s) page b.1 b.2.1 = f b := by
  induction l generalizing s with
  | nil => exact absurd hb List.not_mem_nil
  | cons a l ih =>
    obtain ⟨ha, hl⟩ := List.nodup_cons.mp hn
    rcases List.mem_cons.mp hb with rfl | hb
    · exact (burstAt_foldS_ne _ ha).trans (burstAt_putBurst_self _ _ _ _ s)
    · exact ih _ hl hb

theorem slotBursts_nodup (i : Nat) : ((slotBursts i).map (fun b => (b.1, b.2.1))).Nodup := by
  simp [slotBursts]

theorem slotBursts_bounds {i : Nat} {b : Nat × Nat × Nat} (hi : i < 16) (hb : b ∈ slotBursts i) : b.1 < 2 ∧ b.2.1 < 32 := by
  simp only [slotBursts, List.mem_cons, List.not_mem_nil, or_false] at hb
  rcases hb with rfl | rfl | rfl | rfl <;> constructor <;> dsimp only <;> omega

/-- A burst of a slot as `writeSlot` stores it. -/
def written (page ver : Nat) (l : List Byte) (b : Nat × Nat × Nat) : Burst :=
  { tag := tagOf page b.1 b.2.1 ver, data := padTo 64 (slice l b.2.2 64),
    check := burstCheck page b.1 b.2.1 (padTo 64 (slice l b.2.2 64)) }

theorem burstAt_writeSlot {page ver i : Nat} {l : List Byte} {b : Nat × Nat × Nat} (s : State) (hb : b ∈ slotBursts i) :
    burstAt (writeSlot page ver i l s) page b.1 b.2.1 = written page ver l b :=
  burstAt_foldS_putBurst (f := written page ver l) s (slotBursts_nodup i) hb

section
variable {page ver i : Nat} {l : List Byte} {b : Nat × Nat × Nat}

/-- What reading a written burst shows when bits of its codewords are wrong: its tag passes. -/
theorem burstStep_written (want : Option Nat) (flips : List Nat) (hp : page < 2 ^ 25) (hi : i < 16) (hb : b ∈ slotBursts i) :
    burstStep page b.1 b.2.1 want { written page ver l b with flips := flips } =
      if flips.any (fun n => decide (2 ≤ n)) then some 1
      else if want.any (fun v => v % 65536 != ver % 65536) then some 2
      else if flips.any (· == 1) then some 3 else none := by
  obtain ⟨hsub, hburst⟩ := slotBursts_bounds hi hb
  exact burstStep_tagged ver want hp hsub hburst rfl rfl

theorem any_set_flip {j n : Nat} (p : Nat → Bool) (hj : j < 4) (h0 : p 0 = false) :
    ((List.replicate 4 0).set j n).any p = p n := by
  have hcases : j = 0 ∨ j = 1 ∨ j = 2 ∨ j = 3 := by omega
  rcases hcases with rfl | rfl | rfl | rfl <;> simp [h0]

/-- One wrong bit of a codeword is corrected, two are not (R344). -/
theorem burstStep_written_flip {j : Nat} (n : Nat) (hp : page < 2 ^ 25) (hi : i < 16) (hb : b ∈ slotBursts i) (hj : j < 4) :
    burstStep page b.1 b.2.1 none { written page ver l b with flips := (List.replicate 4 0).set j n } =
      if 2 ≤ n then some 1 else if n = 1 then some 3 else none := by
  rw [burstStep_written none _ hp hi hb, any_set_flip _ hj (by decide), any_set_flip _ hj (by decide)]
  simp

/-- A slot that is written reads back without a finding when its version is expected, and with step 3's otherwise (R346). -/
theorem burstStep_written_clean (want : Option Nat) (hp : page < 2 ^ 25) (hi : i < 16) (hb : b ∈ slotBursts i) :
    burstStep page b.1 b.2.1 want (written page ver l b) =
      if want.any (fun v => v % 65536 != ver % 65536) then some 2 else none :=
  burstStep_written want [] hp hi hb

end

/-! ### Refresh, temperature and retraining (R349, R350, R357) -/

section
variable {s : State} {ch r : Nat}

theorem dramRefresh_due (hl : chLive s ch = true) (h0 : (rankOf s ch r).state = 0)
    (hd : s.ring % 3 = ch % 3 ∨ (rankOf s ch r).hot = true) (hr : (rankOf s ch r).refreshed ≠ s.ran + 1) :
    dramRefresh ch r s = progEvt (uChannel ch) 0x62 255 0 312
      (modRank ch r (fun y => { y with refreshes := y.refreshes + 1, refreshed := s.ran + 1 }) { s with clock := 800 * r }) :=
  if_pos (by simp [hl, h0, hr, refreshIn, hd])

theorem dramRefresh_idle (h : chLive s ch = false ∨ (rankOf s ch r).state ≠ 0 ∨
      ((rankOf s ch r).hot = false ∧ s.ring % 3 ≠ ch % 3) ∨ (rankOf s ch r).refreshed = s.ran + 1) :
    dramRefresh ch r s = s := by
  refine if_neg ?_
  simp only [refreshIn, Bool.and_eq_true, Bool.or_eq_true, beq_iff_eq, bne_iff_ne]
  rintro ⟨⟨⟨hl, hd⟩, h0⟩, hr⟩
  rcases h with h | h | ⟨hhot, hring⟩ | h
  · simp [h] at hl
  · exact h h0
  · exact hd.elim hring (by simp [hhot])
  · exact hr h

theorem dramTemp_off (t : Int) (hl : chLive s ch = false) : dramTemp ch r t s = s := if_neg (by simp [hl])

theorem dramTemp_live (t : Int) (hl : chLive s ch = true) :
    let w := modRank ch r (fun y => { y with temp := t, hot := decide (85 < t) }) s
    dramTemp ch r t s = if 95 < t then channelFault ch 3 w else w := if_pos hl

theorem dramRetrain_idle (ok : Bool) (h : chLive s ch = false ∨ s.ring % 100000 ≠ 6250 * ch ∨
      tget 0 s.dram.paused (k1 ch) = s.ran + 1) : dramRetrain ch ok s = s := by
  refine if_neg ?_
  simp only [pauseIn, Bool.and_eq_true, beq_iff_eq, bne_iff_ne]
  rintro ⟨⟨hl, hring⟩, hp⟩
  rcases h with h | h | h
  · simp [h] at hl
  · exact h hring
  · exact hp h

theorem dramRetrain_due (ok : Bool) (hl : chLive s ch = true) (hring : s.ring % 100000 = 6250 * ch)
    (hp : tget 0 s.dram.paused (k1 ch) ≠ s.ran + 1) :
    let w := progEvt (uChannel ch) 0x62 255 0 320
      { s with clock := 1000, dram := { s.dram with retrains := tmod 0 s.dram.retrains (k1 ch) (· + 1),
                                                    paused := tput 0 s.dram.paused (k1 ch) (s.ran + 1) } }
    dramRetrain ch ok s = if ok then w else channelFault ch 2 w :=
  if_pos (by simp [hl, pauseIn, hring, hp])

/-! ### Self-refresh and the wake (R352) -/

theorem rankSleep_idle (h : chLive s ch = false ∨ bit s.dram.cfg 0 = false ∨
      s.ran < max (rankOf s ch r).lastReq s.dram.since + idleRings s ∨ rankHolds s ch r = true) : rankSleep ch r s = s := by
  refine if_neg ?_
  simp only [Bool.and_eq_true, decide_eq_true_eq, Bool.not_eq_true']
  rintro ⟨⟨⟨⟨hl, hc⟩, -⟩, hq⟩, hh⟩
  rcases h with h | h | h | h
  · simp [h] at hl
  · simp [h] at hc
  · exact Nat.not_lt.mpr hq h
  · simp [h] at hh

theorem rankSleep_due (hl : chLive s ch = true) (hc : bit s.dram.cfg 0 = true) (h0 : (rankOf s ch r).state = 0)
    (hq : max (rankOf s ch r).lastReq s.dram.since + idleRings s ≤ s.ran) (hh : rankHolds s ch r = false) :
    rankSleep ch r s = dramLatch (cnt .dramSrEntries ch r 1 (modRank ch r (fun y => { y with state := 1 }) s)) :=
  if_pos (by simp [hl, hc, h0, hq, hh])

theorem rankWake_due {clk : Nat} (h2 : (rankOf s ch r).state = 2) (hw : (rankOf s ch r).wakeAt ≤ nowClk { s with clock := clk }) :
    rankWake ch r clk s = modRank ch r (fun y => { y with state := 0 }) { s with clock := clk } := if_pos ⟨h2, hw⟩

theorem rankWake_idle {clk : Nat} (h : (rankOf s ch r).state ≠ 2 ∨ nowClk { s with clock := clk } < (rankOf s ch r).wakeAt) :
    rankWake ch r clk s = { s with clock := clk } :=
  if_neg fun ⟨h2, hw⟩ => h.elim (fun hne => hne h2) (Nat.not_lt.mpr hw)

end

/-! ### Row hammer (R354) -/

theorem hammerWindow_idle {s : State} (h : s.ring % 32000 ≠ 0 ∨ s.clock ≠ 0 ∨ s.dram.hamWin = s.ran + 1) : hammerWindow s = s :=
  if_neg fun ⟨hring, hclock, hwin⟩ => h.elim (· hring) (Or.elim · (· hclock) hwin)

/-- A key that a list of writes names reads what they write, as one that already did. -/
theorem tget_foldl_tput {α : Type} (f : α → Key) (x : Nat) (l : List α) (t : Tab Nat) {k : Key}
    (h : (∃ v ∈ l, f v = k) ∨ tget 0 t k = x) : tget 0 (l.foldl (fun t v => tput 0 t (f v) x) t) k = x := by
  induction l generalizing t with
  | nil => simpa using h
  | cons a l ih =>
    refine ih _ ?_
    by_cases ha : f a = k
    · exact .inr (ha ▸ tget_tput_self _ _ _ _)
    · rw [tget_tput_ne _ _ _ (Ne.symm ha)]
      simpa [ha] using h

theorem dramTurn_victims {s : State} {v : Nat × Nat × Nat} (hv : v ∈ s.dram.victims) :
    tget 0 (dramTurn s).dram.rowDone (k3 v.1 v.2.1 v.2.2) = s.ran :=
  tget_foldl_tput (fun v : Nat × Nat × Nat => k3 v.1 v.2.1 v.2.2) s.ran s.dram.victims s.dram.rowDone (.inl ⟨v, hv, rfl⟩)

/-! ### The patrol scrub and the chain walk (R356, R358) -/

/-- The scrub reads no page that it passes over or waits at. -/
theorem scrubPick_some {s : State} {fuel p x pos : Nat} (h : scrubPick s fuel p = (some x, pos)) :
    scrubSkips s x = false ∧ scrubWaits s x = false := by
  induction fuel generalizing p with
  | zero => cases h
  | succ n ih =>
    unfold scrubPick at h
    split at h
    · cases h
    · next y _ =>
      split at h
      · exact ih h
      · next hs =>
        split at h
        · cases h
        · next hw =>
          cases h
          exact ⟨by simpa using hs, by simpa using hw⟩

theorem dramScrub_off {s : State} (h : bit s.dram.cfg 21 = false ∨ s.variant = .e) : dramScrub s = s :=
  if_neg (by rcases h with h | h <;> simp [h])

theorem dramScrub_none {s : State} {pos : Nat} (hc : bit s.dram.cfg 21 = true) (hv : s.variant ≠ .e)
    (h : scrubPick s 64 s.dram.scrub = (none, pos)) : dramScrub s = { s with dram := { s.dram with scrub := pos } } := by
  unfold dramScrub
  simp only [hc, bne_iff_ne.mpr hv, Bool.and_self, if_true, h]

theorem dramScrub_reads {s : State} {p pos : Nat} (hc : bit s.dram.cfg 21 = true) (hv : s.variant ≠ .e)
    (h : scrubPick s 64 s.dram.scrub = (some p, pos)) :
    dramScrub s = enqueueReq { cls := 5, page := p, write := false, slots := List.range 16 }
      { s with dram := { s.dram with
        scrub := pos, lastScrub := tput 0 s.dram.lastScrub (k1 (pageCh s p)) (s.ran + 1) } } := by
  unfold dramScrub
  simp only [hc, bne_iff_ne.mpr hv, Bool.and_self, if_true, h]

theorem chainWalk_idle {s : State} (h : s.dram.walk = false ∨ reqsOf s 4 chainKey = true) : chainWalk s = s :=
  if_neg (by rcases h with h | h <;> simp [h])

theorem chainWalk_due {s : State} (hw : s.dram.walk = true) (hr : reqsOf s 4 chainKey = false) :
    let l := (heldPages s).filter (fun p => !isFenced s (uChannel (pageCh s p)))
    chainWalk s = if l.isEmpty then returnOrphans { s with dram := { s.dram with walk := false } }
      else foldS l (walkReq chainKey) s := if_pos (by simp [hw, hr])

theorem walkDone_chain {s : State} (hr : reqsOf s 4 chainKey = false) :
    walkDone chainKey s = returnOrphans { s with dram := { s.dram with walk := false } } :=
  (if_neg (by simp [hr])).trans (if_pos rfl)

end Sys2Proof.Machine

namespace Sys2Proof.Proofs
open Machine

/-- Settles O57: the order of service is that of `nextServe` over the requests that can begin first, a written slot stands as
`writeSlot` stored it, and each row of a rank or channel is its one condition. -/
theorem dramController : Obligations.DramController := by
  unfold Obligations.DramController
  refine ⟨fun s ch clk errs hh => ?_, fun s page ver i l b hp hi hb => ?_, fun s ch r clk hh => ?_⟩
  · intro z go begin_
    have row (fault : Bool) {t : State} (h : pageDone ch.val clk.val fault errs s = t) :
        exec (.dramPageDone ch clk ⟨fault, errs⟩) s = .next (spillMark t) :=
      congrArg Host.Outcome.next ((unlessHalted_running _ hh).trans (congrArg spillMark h))
    refine ⟨row true (pageDone_fault ..), fun h => row false (pageDone_none errs h), fun r _ => ?_, fun r hr => ?_,
      fun r x y hr ht hx hy hxw hyw hxd hyd => nextServe_direction hr ht hx hy hxw hyw hxd hyd,
      fun r => servedNow_iff z ch.val r, fun r hl hr => ?_⟩
    · obtain ⟨hat, hbusy, hwake, hdone⟩ := dramStart_after z ch.val r
      refine ⟨hat, hbusy, turnCost_le z ch.val r, hwake, fun h0 c l hv => ?_⟩
      have hread := hdone h0
      rw [hv] at hread
      exact Nat.sub_le_iff_le_add.mp hread
    · obtain ⟨⟨hm, hs⟩, hfirst⟩ := nextServe_order hr
      exact ⟨hm, hs, fun x hx hxs => ⟨(servable_start hxs).trans (servable_start hs).symm, hfirst x hx hxs⟩⟩
    · intro cost u w
      have hw : channelTake ch.val r z = w := rfl
      have hserve := pageDone_serves errs hl hr
      dsimp only at hserve
      rw [hw] at hserve
      refine ⟨fun hwr h5 => row false (hserve.trans ((if_pos hwr).trans (writeServed_scrub w h5))),
        fun hwr h5 => row false (hserve.trans ((if_pos hwr).trans (writeServed_stores w h5))), fun hwr f m hf => ?_⟩
      have hread : pageDone ch.val clk.val false errs s = readServed r errs w :=
        hserve.trans (if_neg (ne_true_of_eq_false hwr))
      exact ⟨fun hc => row false (hread.trans (readServed_spill hf hc)), fun hc => row false (hread.trans (readServed_tally hf hc)),
        fun hc => row false (hread.trans (readServed_walk hf hc)), fun hc => row false (hread.trans (readServed_scrub hf hc))⟩
  · intro x
    have hx : x = written page ver l b := burstAt_writeSlot s hb
    clear_value x
    subst hx
    refine ⟨rfl, rfl, burstStep_written_clean none hp hi hb, fun v hv => ?_, fun v hv => ?_,
      fun j hj => ⟨burstStep_written_flip 1 hp hi hb hj, burstStep_written_flip 2 hp hi hb hj⟩,
      fun j hlo hhi => burstStep_checkFlip none rfl hlo hhi rfl⟩
    · exact (burstStep_written_clean (some v) hp hi hb).trans (if_neg (by simp [hv]))
    · exact (burstStep_written_clean (some v) hp hi hb).trans (if_pos (by simp [hv]))
  · intro x z
    have row {t : State} (v : State) (h : v = t) : (.next (unlessHalted s v) : Out) = .next t :=
      congrArg Host.Outcome.next ((unlessHalted_running _ hh).trans h)
    refine ⟨fun hl => ⟨row _ (dramRefresh_idle (.inl hl)), fun t => row _ (dramTemp_off t hl),
        fun ok => row _ (dramRetrain_idle ok (.inl hl)), boundaryRow_idle hh fun _ => rankSleep_idle (.inl hl)⟩,
      fun hl h0 hd hr => row _ (dramRefresh_due hl h0 hd hr), fun h => row _ (dramRefresh_idle (.inr h)),
      fun hl t => ⟨fun ht => row _ ((dramTemp_live t hl).trans (if_neg (not_lt.mpr ht))),
        fun ht => row _ ((dramTemp_live t hl).trans (if_pos ht))⟩,
      fun h ok => row _ (dramRetrain_idle ok (.inr h)),
      fun hl hring hp => ⟨row _ ((dramRetrain_due true hl hring hp).trans (if_pos rfl)),
        row _ ((dramRetrain_due false hl hring hp).trans (if_neg Bool.false_ne_true))⟩,
      fun hb hl hc h0 hq hn => (boundaryRow_at (rankSleep ch.val r.val) hh hb).trans
        (congrArg Host.Outcome.next (rankSleep_due hl hc h0 hq hn)),
      fun h => boundaryRow_idle hh fun hb => rankSleep_idle (.inr (h.resolve_left (by simp [hb]))),
      fun h2 hw => row _ (rankWake_due h2 hw), fun h => row _ (rankWake_idle h),
      fun hring hclock hwin => row _ (if_pos ⟨hring, hclock, hwin⟩), fun h => row _ (hammerWindow_idle h),
      fun v hv => dramTurn_victims hv, fun h => row _ (dramScrub_off h),
      fun hc hv => ⟨fun pos hpick => row _ (dramScrub_none hc hv hpick), fun p pos hpick => ?_⟩,
      fun h => row _ (chainWalk_idle h), fun hw hr => ?_⟩
    · obtain ⟨hskip, hwait⟩ := scrubPick_some hpick
      exact ⟨hskip, hwait, row _ (dramScrub_reads hc hv hpick)⟩
    · intro l w
      have hdue := chainWalk_due hw hr
      exact ⟨fun hl => row _ (hdue.trans (if_pos (List.isEmpty_iff.mpr hl))),
        fun hl => row _ (hdue.trans (if_neg (fun he => hl (List.isEmpty_iff.mp he)))), walkDone_chain hr⟩

end Sys2Proof.Proofs

/-! ## What a power cycle leaves (R510, R513) -/

namespace Sys2Proof.Machine

/-- Every compartment begins at rotation 0 (log entry 3). -/
theorem reset_rotation (c : Nat) : (cmpOf State.reset c).rotation = 0 := by
  change (tget {} [(k1 0, factoryCid0 .f)] (k1 c)).rotation = 0
  rw [tget_cons]
  split <;> rfl

end Sys2Proof.Machine

namespace Sys2Proof.Proofs
open Machine

/-- Settles O3: an empty table gives every resource its record's reset value. -/
theorem resetValues : Obligations.ResetValues := by
  refine ⟨rfl, rfl, rfl, rfl, fun c => ⟨rfl, rfl, rfl, rfl, rfl, rfl⟩, fun c k => rfl, fun u => ⟨rfl, rfl⟩, reset_rotation,
    ?_, ?_, ?_, ?_, fun u => ?_, ?_⟩
  · decide
  · decide
  · decide
  · decide
  · have h : cvOf State.reset u = {} := rfl
    rw [h]
    decide
  · decide

end Sys2Proof.Proofs

/-! ## Readings of the time sources (R54 to R58) -/

namespace Sys2Proof.Machine

@[simp] theorem ctrGet_modSrc (k : Ctr) (a b i : Nat) (f : SrcSt → SrcSt) (s : State) :
    ctrGet (modSrc i f s) k a b = ctrGet s k a b := rfl

@[simp] theorem noted_modSrc (u k c i : Nat) (f : SrcSt → SrcSt) (s : State) :
    noted (modSrc i f s) u k c = noted s u k c := rfl

/-- `TIM.REJ` counts modulo 2^32 (R57). -/
theorem ctrGet_cnt_timRej (k : Nat) (s : State) :
    ctrGet (cnt .timRej k 0 1 s) .timRej k 0 = (ctrGet s .timRej k 0 + 1) % 2 ^ 32 := by
  simp [ctrGet, cnt]

/-- A rejection is counted once (R57). -/
@[simp] theorem ctrGet_timReject (k : Nat) (s : State) :
    ctrGet (timReject k s) .timRej k 0 = (ctrGet s .timRej k 0 + 1) % 2 ^ 32 :=
  (ctrGet_note _ _ _ _ _ _ _ (by decide)).trans (ctrGet_cnt_timRej k s)

/-- A rejection is reported (R57). -/
@[simp] theorem noted_timReject (k : Nat) (s : State) : noted (timReject k s) 0x45 0x0101 255 = true := noted_note _ _ _ _ _

@[simp] theorem srcOf_timReject (k i : Nat) (s : State) : srcOf (timReject k s) i = srcOf s i := by
  simp [srcOf]

/-- A lost source is not qualified (R55 to R57). -/
@[simp] theorem srcLost_qualified (i : Nat) (s : State) : (srcOf (srcLost i s) i).qualified = false := by
  simp [srcLost]

theorem modSrc_congr {i : Nat} {f g : SrcSt → SrcSt} {s : State} (h : f (srcOf s i) = g (srcOf s i)) :
    modSrc i f s = modSrc i g s := by
  have htab : tmod {} s.tim.srcs (k1 i) f = tmod {} s.tim.srcs (k1 i) g := congrArg (tput ({} : SrcSt) s.tim.srcs (k1 i)) h
  simp only [modSrc, htab]

/-! ### Steering (R58, R71) -/

/-- A reading of the selected source sets what the DPLL follows. -/
theorem steer_selected {i : Nat} {s : State} (fil frq : Int) (h : s.tim.source = some i) :
    (steer i fil frq s).tim.phaseOffset = fil ∧ (steer i fil frq s).tim.freqOffset = frq ∧
      srcOf (steer i fil frq s) i = { srcOf s i with offset := fil } ∧ (steer i fil frq s).tim.state = s.tim.state := by
  have hsel : (modSrc i (fun x => { x with offset := fil }) s).tim.source = some i := h
  unfold steer
  dsimp only
  rw [if_pos hsel]
  exact ⟨rfl, rfl, srcOf_modSrc_self s i (fun x => { x with offset := fil }), rfl⟩

theorem steer_other {i : Nat} {s : State} (fil frq : Int) (h : s.tim.source ≠ some i) :
    steer i fil frq s = modSrc i (fun x => { x with offset := fil }) s := if_neg h

/-! ### 1PPS and ToD (R55, R69) -/

section
variable {i : Nat} {s : State}

/-- A pulse near its instant, or of a module that is not LOCKED, is accepted. -/
theorem ppsPulse_accepted {off : Int} (fil frq : Int) (h : srcIs s i 2 = true)
    (hd : s.tim.state ≠ .locked ∨ (ppsFix s off).natAbs ≤ 200) :
    ppsPulse i off fil frq s = steer i fil frq (modSrc i (fun x =>
      { x with missed := 0, lastPulse := some s.ran, pulses := if x.lastPulse.isSome then 0 else x.pulses }) s) := by
  have hnot : ¬ (s.tim.state = .locked ∧ 200 < (ppsFix s off).natAbs) := fun ⟨hl, hf⟩ =>
    hd.elim (fun h => h hl) (fun h => absurd hf (Nat.not_lt.mpr h))
  simp only [ppsPulse, h, Bool.not_true, Bool.false_eq_true, if_false, if_neg hnot]

theorem ppsPulse_rejected {off : Int} (fil frq : Int) (h : srcIs s i 2 = true) (hl : s.tim.state = .locked)
    (hd : 200 < (ppsFix s off).natAbs) : ppsPulse i off fil frq s = pulseBad i (timReject rejPps s) := by
  simp only [ppsPulse, h, Bool.not_true, Bool.false_eq_true, if_false, if_pos (And.intro hl hd)]

/-- The second expected pulse in a row that fails loses the source. -/
theorem pulseBad_second (h : 1 ≤ (srcOf s i).missed) : pulseBad i s = srcLost i s := if_pos (by omega)

theorem pulseBad_first (h : (srcOf s i).missed = 0) (hq : (srcOf s i).qualified = true) :
    pulseBad i s = modSrc i (fun x => { x with missed := x.missed + 1 }) s :=
  (if_neg (by omega)).trans (modSrc_congr (if_pos hq))

/-- A sentence that names the second after the last one pairs its pulse. -/
theorem todSentence_pairs {utc r : Nat} (h : srcIs s i 2 = true) (hp : (srcOf s i).lastPulse = some r) (hlo : r + 10000 ≤ s.ran)
    (hhi : s.ran ≤ r + 900000) (ht : (srcOf s i).lastTod = some (utc + taiUtc s - 1)) (hu : 0 < utc) (hl : s.tim.state ≠ .locked) :
    todSentence i utc s = modSrc i (fun x =>
      { x with lastPulse := none, lastTod := some (utc + taiUtc s), pulses := x.pulses + 1 }) s := by
  have hwin : ¬ (s.ran < r + 10000 ∨ r + 900000 < s.ran) := by omega
  have hnext : utc + taiUtc s = utc + taiUtc s - 1 + 1 := by omega
  unfold todSentence
  simp only [h, hp, ht, hwin, Bool.not_true, Bool.false_eq_true, if_false, ← hnext, Bool.true_and,
    bne_iff_ne.mpr hl, Bool.true_or, beq_self_eq_true, if_true]

/-! ### PTP (R56, R91) -/

/-- A message of the source's domain that fails no other check of R56. -/
theorem ptpFails_announce {m : PtpMsg} (hd : m.domain = srcDomain s i) (ha : m.announce = true) (hc : m.clockClass ≤ srcClass s i)
    (hs : m.steps < 255) (hr : m.rateOk = true) : ptpFails s i m = none := by
  have hclass : ¬ (srcClass s i < m.clockClass ∨ 255 ≤ m.steps) := by omega
  simp [ptpFails, hd, ha, hr, hclass]

theorem ptpFails_sync {m : PtpMsg} (hd : m.domain = srcDomain s i) (ha : m.announce = false) (hr : m.rateOk = true)
    (hs : (m.offset - (srcOf s i).offset).natAbs ≤ 2 * srcStep s i) : ptpFails s i m = none := by
  simp [ptpFails, hd, ha, hr, Nat.not_lt.mpr hs]

theorem ptpMessage_announce {m : PtpMsg} (fil frq : Int) (h : srcIs s i 1 = true) (hup : srcPortUp s i = true)
    (hd : m.domain = srcDomain s i) (ha : m.announce = true) (hc : m.clockClass ≤ srcClass s i) (hs : m.steps < 255)
    (hr : m.rateOk = true) : ptpMessage i m fil frq s = modSrc i (fun x =>
      { x with lastAnnounce := s.ran, utcOffset := some m.utc, clockClass := m.clockClass }) s := by
  have hok : ptpFails s i { m with offset := m.offset - portAsym s (srcPort s i) } = none := ptpFails_announce hd ha hc hs hr
  unfold ptpMessage
  rw [if_neg (by simp [h, hup])]
  dsimp only
  rw [hok]
  exact if_pos ha

theorem ptpMessage_sync {m : PtpMsg} (fil frq : Int) (h : srcIs s i 1 = true) (hup : srcPortUp s i = true)
    (hd : m.domain = srcDomain s i) (ha : m.announce = false) (hr : m.rateOk = true)
    (hs : (m.offset - portAsym s (srcPort s i) - (srcOf s i).offset).natAbs ≤ 2 * srcStep s i) :
    ptpMessage i m fil frq s = steer i (fil - portAsym s (srcPort s i)) frq
      (modSrc i (fun x => { x with lastSync := s.ran, goodSince := some (x.goodSince.getD s.ran) }) s) := by
  have hok : ptpFails s i { m with offset := m.offset - portAsym s (srcPort s i) } = none := ptpFails_sync hd ha hr hs
  unfold ptpMessage
  rw [if_neg (by simp [h, hup])]
  dsimp only
  rw [hok]
  exact if_neg (by simp [ha])

/-! ### SyncE and 10 MHz (R54, R57) -/

theorem esmcMessage_eq (ql : Nat) (h : srcIs s i 3 = true) (hup : srcPortUp s i = true) :
    esmcMessage i ql s = if srcClass s i < ql
      then srcLost i (timReject rejQl (modSrc i (fun x => { x with ql := ql, lastEsmc := s.ran }) s))
      else modSrc i (fun x => { x with goodSince := some (x.goodSince.getD s.ran) })
        (modSrc i (fun x => { x with ql := ql, lastEsmc := s.ran }) s) := by
  unfold esmcMessage
  rw [if_neg (by simp [h, hup])]
  rfl

theorem freqRange_lost (h : srcIs s i 3 = true ∨ srcIs s i 4 = true) : freqRange i s =
    modSrc i (fun x => { x with goodSince := if srcType s i = 4 then some s.ran else none }) (srcLost i (timReject rejFreq s)) :=
  if_pos (by simpa using h)

/-- What a source that is lost for a rejected reading shows: not qualified, counted, reported. -/
theorem srcLost_timReject (k : Nat) :
    (srcOf (srcLost i (timReject k s)) i).qualified = false ∧
      ctrGet (srcLost i (timReject k s)) .timRej k 0 = (ctrGet s .timRej k 0 + 1) % 2 ^ 32 ∧
      noted (srcLost i (timReject k s)) 0x45 0x0101 255 = true :=
  ⟨srcLost_qualified _ _, ctrGet_timReject k s, noted_timReject k s⟩

/-! ### Qualification (R54) -/

theorem sourceQualify_frequency (off : Int) (he : srcEnabled s i = true) (hq : (srcOf s i).qualified = false)
    (hg : goodLong s i = true) (ht : srcType s i = 3 ∨ srcType s i = 4) :
    sourceQualify i off s = modSrc i (fun x => { x with qualified := true, offset := off, missed := 0, far := false }) s := by
  have hphase : ¬ (srcType s i = 1 ∨ srcType s i = 2) := by omega
  unfold sourceQualify
  rw [if_pos (by simp [he, hq, hg])]
  exact if_neg hphase

end

end Sys2Proof.Machine

namespace Sys2Proof.Proofs
open Machine

/-- Settles O25: each reading by the equation of its operation. -/
theorem timeReadings : Obligations.TimeReadings := by
  intro s i off fil frq hh x d asym
  have row {t : State} (v : State) (h : v = t) : (.next (unlessHalted s v) : Out) = .next t :=
    congrArg Host.Outcome.next ((unlessHalted_running _ hh).trans h)
  refine ⟨fun h hd hsel => ?_, fun h hl hd hq hm => ?_, fun h hm => ?_, fun h hm hq => ?_,
    fun utc r h hp hlo hhi ht hu hl => row _ (todSentence_pairs h hp hlo hhi ht hu hl),
    fun dom cc st utc h hup hdom => ⟨fun hc hs => ?_, fun hs hsel => ?_⟩, fun h hr => ?_, fun h => ?_,
    fun ql h hup => ⟨fun hql => ?_, fun hql => ?_⟩, fun h hr => ?_, fun h => ?_,
    fun he hq hg ht => row _ (sourceQualify_frequency off he hq hg ht)⟩
  · obtain ⟨hphase, hfreq, hsrc, hstate⟩ := steer_selected (i := i.val) (s := modSrc i.val (fun x =>
      { x with missed := 0, lastPulse := some s.ran, pulses := if x.lastPulse.isSome then 0 else x.pulses }) s) fil frq hsel
    exact ⟨_, row _ (ppsPulse_accepted fil frq h hd), hphase, hfreq, hsrc.trans (by rw [srcOf_modSrc_self]), hstate⟩
  · have hx : srcOf (timReject rejPps s) i = x := srcOf_timReject _ _ _
    have hbad := pulseBad_first (by rw [hx]; exact hm) (by rw [hx]; exact hq)
    refine ⟨_, row _ ((ppsPulse_rejected fil frq h hl hd).trans hbad), ?_, ?_, ctrGet_timReject 0 s, noted_timReject 0 s⟩
    · change (timReject rejPps s).tim.phaseOffset = _
      rw [timReject_tim]
    · rw [srcOf_modSrc_self, hx, hm]
  · exact row _ ((if_pos h).trans (pulseBad_second hm))
  · exact row _ ((if_pos h).trans (pulseBad_first hm hq))
  · exact row _ (ptpMessage_announce fil frq h hup hdom rfl hc hs rfl)
  · exact row _ ((ptpMessage_sync fil frq h hup hdom rfl rfl hs).trans (steer_other _ _ hsel))
  · exact row _ (if_pos (Bool.and_eq_true_iff.mpr ⟨h, decide_eq_true hr⟩))
  · exact row _ (if_pos h)
  · exact row _ ((esmcMessage_eq _ h hup).trans (if_neg (Nat.not_lt.mpr hql)))
  · obtain ⟨hqual, hcnt, hnote⟩ := srcLost_timReject (i := i.val)
      (s := modSrc i (fun x => { x with ql := ql.toNat, lastEsmc := s.ran }) s) rejQl
    exact ⟨_, row _ ((esmcMessage_eq _ h hup).trans (if_pos hql)), hqual, hcnt, hnote⟩
  · obtain ⟨hqual, hcnt, -⟩ := srcLost_timReject (i := i.val) (s := s) rejQl
    exact ⟨_, row _ (if_pos (Bool.and_eq_true_iff.mpr ⟨h, decide_eq_true hr⟩)), hqual, hcnt⟩
  · obtain ⟨hqual, hcnt, hnote⟩ := srcLost_timReject (i := i.val) (s := s) rejFreq
    exact ⟨_, row _ (freqRange_lost h), by rw [srcOf_modSrc_self]; exact hqual, hcnt, hnote⟩

end Sys2Proof.Proofs

/-! ## Ticks of the grid (R51, R60, R66, R70) -/

namespace Sys2Proof.Machine

theorem holdExpire_due {s : State} (h : s.tim.state = .holdoverCart ∨ s.tim.state = .holdoverTcxo)
    (hd : s.tim.holdStart + holdSeconds s * 1000000 ≤ s.ran) :
    holdExpire s = { s with tim := { s.tim with holdExpired := true } } := if_pos (by simp [h, hd])

/-- The outputs are driven in LOCKED, and by `TIM.CTL` bit 0 in every state (R70). -/
theorem outDriven_of {s : State} (hs : s.link.squelched = false) (h : s.tim.state = .locked ∨ bit s.tim.ctl 0 = true) :
    outDriven s = true := by
  rcases h with h | h <;> simp [outDriven, hs, h]

end Sys2Proof.Machine

namespace Sys2Proof.Proofs
open Machine

/-- Settles O27: each tick is the one condition of its operation. -/
theorem timingTicks : Obligations.TimingTicks := by
  intro s hh
  have row {t : State} (v : State) (h : v = t) : (.next (unlessHalted s v) : Out) = .next t :=
    congrArg Host.Outcome.next ((unlessHalted_running _ hh).trans h)
  exact ⟨fun h hd => row _ (holdExpire_due h hd), fun h => row _ (if_pos h), fun h => row _ (if_neg (Nat.not_le.mpr h)),
    fun h => row _ (if_pos (.inl h)), fun hlo hhi => row _ (if_neg (by omega)),
    fun hr hs h => row _ (if_pos ⟨hr, outDriven_of hs h⟩), fun hr => row _ (if_neg fun h => hr h.1)⟩

end Sys2Proof.Proofs

/-! ## The cartridge (R62 to R68) -/

namespace Sys2Proof.Machine

section
variable {s : State}

@[simp] theorem ctrGet_modCart (k : Ctr) (a b : Nat) (f : CartSt → CartSt) (s : State) :
    ctrGet (modCart f s) k a b = ctrGet s k a b := rfl

/-- A cartridge that is rejected for a reading is marked with the reason and counted (R57, R67). -/
theorem timReject_cartReject (reason : Nat) (s : State) :
    (timReject rejCart (cartReject reason s)).tim.cart = { s.tim.cart with rejected := true, reason := reason } ∧
      ctrGet (timReject rejCart (cartReject reason s)) .timRej 7 0 = (ctrGet s .timRej 7 0 + 1) % 2 ^ 32 :=
  ⟨congrArg TimSt.cart (timReject_tim _ _), ctrGet_timReject rejCart (cartReject reason s)⟩

/-! ### Insertion and warm-up (R63) -/

/-- A cartridge whose identity and life counter pass begins its warm-up. -/
theorem cartInsert_passes {serial hours : Nat} (learn : Nat) (hp : s.tim.cart.present = false) (hh : hours < 61320)
    (hl : tget 0 s.tim.lastLife (k1 serial) ≤ hours) :
    cartInsert serial true true hours learn s = seenLife serial hours (modCart (fun c =>
      { present := true, idValid := true, lifeValid := true, serial := serial, hours := hours, learn := learn,
        warmStart := s.ran, inUse := c.inUse }) s) := by
  have hlast : ¬ hours < tget 0 s.tim.lastLife (k1 serial) := Nat.not_lt.mpr hl
  simp [cartInsert, hp, hlast, Nat.not_le.mpr hh, modCart]

/-- One whose identity fails is rejected with reason 1. -/
theorem cartInsert_badId (serial hours learn : Nat) (life : Bool) (hp : s.tim.cart.present = false) :
    cartInsert serial false life hours learn s = timReject rejCart (cartReject 1 (modCart (fun c =>
      { present := true, learn := learn, warmStart := s.ran, inUse := c.inUse }) s)) := by
  simp [cartInsert, hp, modCart]

theorem warmFail_due (hp : s.tim.cart.present = true) (hr : s.tim.cart.rejected = false) (hw : s.tim.cart.warm = false)
    (hd : s.tim.cart.warmStart + 7200000000 ≤ s.ran) : warmFail s = cartReject 5 s := if_pos (by simp [hp, hr, hw, hd])

theorem warmFail_early (h : s.ran < s.tim.cart.warmStart + 7200000000) : warmFail s = s := if_neg (by simp [h])

/-! ### Use (R62, R64, R67) -/

/-- The conditions of R62, with the record of R72. -/
theorem mayUse_iff (s : State) : mayUse s = true ↔ bit s.tim.ctl 1 = true ∧ s.tim.cart.present = true ∧
    s.tim.cart.idValid = true ∧ s.tim.cart.lifeValid = true ∧ s.tim.cart.warm = true ∧ s.tim.cart.rejected = false ∧
    s.tim.cart.hours < 61320 ∧ 7200000000 ≤ s.tim.cart.lockedRings := by
  simp [mayUse, and_assoc]

/-- A cartridge found to meet R62 enters use at the next boundary. -/
theorem cartLeaves_enters (h : mayUse s = true) : (cartLeaves (modCart (fun c => { c with useDue := true }) s)).tim.cart.inUse = true := by
  have hu : mayUse (modCart (fun c => { c with useDue := true }) s) = true := h
  simp only [cartLeaves, hu, Bool.or_eq_true, Bool.and_eq_true]
  exact .inr ⟨rfl, trivial⟩

/-- One that is gone, has been changed or rejected, or is short of its 2 h leaves use at the boundary. -/
theorem cartLeaves_leaves (hd : s.tim.cart.useDue = false) (h : s.tim.cart.present = false ∨ s.tim.cart.warm = false ∨
    s.tim.cart.rejected = true ∨ s.tim.cart.lockedRings < 7200000000) : (cartLeaves s).tim.cart.inUse = false := by
  rcases h with h | h | h | h <;> simp [cartLeaves, hd, h]

/-! ### The life counter and the temperature (R64, R68) -/

section
variable (hp : s.tim.cart.present = true)
include hp

theorem cartLife_rises {n : Nat} (hr : s.tim.cart.rejected = false) (hn : n = s.tim.cart.hours + 1) :
    cartLife true n s = seenLife s.tim.cart.serial n (modCart (fun c =>
      { c with hours := n, lifeEnd := decide (61320 ≤ n) && !(s.tim.state == .holdoverCart && c.inUse) }) s) := by
  subst hn
  simp [cartLife, hp, hr, modCart]

theorem cartLife_wrong {n : Nat} (hr : s.tim.cart.rejected = false) (hn : n ≠ s.tim.cart.hours + 1) :
    cartLife true n s = timReject rejCart (cartReject 3 s) := by
  simp [cartLife, hp, hr, hn]

theorem cartRemove_eq (noResponse : Bool) :
    cartRemove noResponse s = if noResponse then cartReject 6 s else modCart (fun c => { inUse := c.inUse }) s :=
  if_neg (by simp [hp])

theorem cartTemp_kept {x : Int} (hlo : -720 ≤ x) (hhi : x ≤ 1520)
    (hc : s.tim.cart.tempSeen = false ∨ (x - s.tim.cart.temp).natAbs ≤ 32) :
    cartTemp x s = modCart (fun c => { c with temp := x, tempSeen := true }) s := by
  have hok : ¬ (x < -720 ∨ 1520 < x ∨ (s.tim.cart.tempSeen = true ∧ 32 < (x - s.tim.cart.temp).natAbs)) := by
    rintro (h | h | ⟨hs, h⟩)
    · omega
    · omega
    · exact hc.elim (fun hf => by simp [hf] at hs) (Nat.not_le.mpr h)
  simp [cartTemp, hp, hok]

theorem cartTemp_outOfRange {x : Int} (h : x < -720 ∨ 1520 < x) : cartTemp x s = timReject rejTemp s := by
  have hbad : x < -720 ∨ 1520 < x ∨ (s.tim.cart.tempSeen = true ∧ 32 < (x - s.tim.cart.temp).natAbs) := h.imp_right .inl
  simp only [cartTemp, hp, Bool.not_true, Bool.false_eq_true, if_false, if_pos hbad]

end
end

end Sys2Proof.Machine

namespace Sys2Proof.Proofs
open Machine

/-- Settles O28: each row of the cartridge by its equation; use is read off the conditions of R62. -/
theorem cartridge : Obligations.Cartridge := by
  intro s hh c
  have row {t : State} (v : State) (h : v = t) : (.next (unlessHalted s v) : Out) = .next t :=
    congrArg Host.Outcome.next ((unlessHalted_running _ hh).trans h)
  refine ⟨fun serial hours learn hp hlim hl => row _ (cartInsert_passes _ hp hlim hl), fun serial hours learn life hp => ?_,
    fun hp hi hr hw => row _ (if_pos (by simp [c, hp, hi, hr, hw])), fun hp hr hw hd => row _ (warmFail_due hp hr hw hd),
    fun _ _ h => row _ (warmFail_early h), fun hb hp hi hl hw hr hlim hlock => ?_, fun hd h => cartLeaves_leaves hd h,
    fun h => row _ (if_neg ?_), fun n hp hr hn hlim => ?_, fun n hp hr hn => ?_, fun hp => ⟨?_, ?_⟩,
    fun x hp hlo hhi hc => row _ (cartTemp_kept hp hlo hhi hc), fun x hp h => ?_⟩
  · obtain ⟨hcart, hcnt⟩ := timReject_cartReject 1
      (modCart (fun c => { present := true, learn := learn.toNat, warmStart := s.ran, inUse := c.inUse }) s)
    exact ⟨_, row _ (cartInsert_badId _ _ _ life hp), by rw [hcart]; rfl, by rw [hcart], by rw [hcart], by rw [hcart]; rfl, hcnt⟩
  · have hu : mayUse s = true := (mayUse_iff s).mpr ⟨hb, hp, hi, hl, hw, hr, hlim, hlock⟩
    exact ⟨row _ (if_pos hu), cartLeaves_enters hu⟩
  · rw [mayUse_iff]
    rintro ⟨-, -, hi, -, hw, -, hlim, hlock⟩
    rcases h with h | h | h | h
    · exact Nat.not_lt.mpr h hlim
    · exact Nat.not_lt.mpr hlock h
    · exact Bool.false_ne_true (h.symm.trans hw)
    · exact Bool.false_ne_true (h.symm.trans hi)
  · refine row _ ((cartLife_rises hp hr hn).trans ?_)
    rw [decide_eq_false (Nat.not_le.mpr hlim)]
    rfl
  · exact ⟨_, row _ (cartLife_wrong hp hr hn), timReject_cartReject 3 s⟩
  · exact row _ (cartRemove_eq hp false)
  · exact row _ (cartRemove_eq hp true)
  · refine ⟨_, row _ (cartTemp_outOfRange hp h), ?_, ctrGet_timReject rejTemp s, noted_timReject rejTemp s⟩
    rw [timReject_tim]

end Sys2Proof.Proofs

/-! ## Restarts and factory injections (R412, R433, R483, R500, R510, R511) -/

namespace Sys2Proof.Machine

/-! ### Tables of records that a reset keeps in part -/

section
variable {α : Type} [DecidableEq α]

/-- What every kept record and the default satisfy, every read of the kept table satisfies. -/
theorem tget_tkeep_of {d : α} {f : α → α} {p : α → Prop} (hd : p d) (hf : ∀ x, p (f x)) (t : Tab α) (k : Key) :
    p (tget d (tkeep d f t) k) := by
  induction t with
  | nil => exact hd
  | cons e r ih =>
    obtain ⟨k', v⟩ := e
    by_cases hv : f v = d
    · simpa [tkeep, hv] using ih
    · have hcons : tkeep d f ((k', v) :: r) = (k', f v) :: tkeep d f r := by simp [tkeep, hv]
      rw [hcons, tget_cons]
      split
      · exact hf v
      · exact ih

theorem tget_tkeep_above {d : α} {f : α → α} {t : Tab α} {k : Key} (h : allAbove k t) : tget d (tkeep d f t) k = d := by
  refine tget_of_not_mem d fun hk => ?_
  obtain ⟨e, he, rfl⟩ := List.mem_map.mp hk
  obtain ⟨x, hx, rfl⟩ := List.mem_map.mp (List.mem_filter.mp he).1
  have hlt : keyLt x.1 x.1 = true := h x hx
  rw [keyLt_irrefl] at hlt
  exact absurd hlt Bool.false_ne_true

/-- A part that no record loses is kept: a table in canonical form reads it as it did. -/
theorem tget_tkeep_part {β : Type} {d : α} {f : α → α} (g : α → β) (hg : ∀ x, g (f x) = g x) {t : Tab α} (k : Key)
    (h : tabSorted t = true) : g (tget d (tkeep d f t) k) = g (tget d t k) := by
  induction t with
  | nil => rfl
  | cons e r ih =>
    obtain ⟨k', v⟩ := e
    obtain ⟨ha, hr⟩ := (tabSorted_cons k' v r).mp h
    rw [tget_cons]
    by_cases hv : f v = d
    · have hcons : tkeep d f ((k', v) :: r) = tkeep d f r := by simp [tkeep, hv]
      rw [hcons]
      split
      · next hk => rw [← hk, tget_tkeep_above ha, ← hg v, hv]
      · exact ih hr
    · have hcons : tkeep d f ((k', v) :: r) = (k', f v) :: tkeep d f r := by simp [tkeep, hv]
      rw [hcons, tget_cons]
      split
      · exact hg v
      · exact ih hr

end

/-! ### What is lost and what is kept (R104, R502, R511, R513) -/

/-- A freed key slot has no owner (R470). -/
theorem zeroiseKeys_owner (s : State) : ∀ k ∈ (zeroiseKeys s).trust.keys, k.2.owner = none := by
  intro k hk
  obtain ⟨e, -, rfl⟩ := List.mem_map.mp (List.mem_filter.mp hk).1
  rfl

/-- The state holds no command, cut, learned entry, frame, session, key or open mailbox, and no unit is fenced. -/
structure Emptied (t : State) : Prop where
  items : t.items = []
  cuts : t.cut.cuts = []
  ents : t.em.ents = []
  frames : t.lnd.frames = []
  pipe : t.lnd.pipe = []
  sess : t.trust.sess = []
  cutKey : t.trust.cutKey = []
  keys : ∀ k ∈ t.trust.keys, k.2.owner = none
  mbx : t.host.mbx = []
  units : t.lko.units = []

theorem Emptied.mbxOf {t : State} (h : Emptied t) (c : Nat) : mbxOf t c = {} := by rw [Machine.mbxOf, h.mbx]; rfl

theorem Emptied.unitSt {t : State} (h : Emptied t) (u : Nat) : unitSt t u = {} := by rw [Machine.unitSt, h.units]; rfl

theorem lose_emptied (s : State) : Emptied (lose s) where
  items := rfl
  cuts := rfl
  ents := rfl
  frames := rfl
  pipe := rfl
  sess := rfl
  cutKey := rfl
  keys := zeroiseKeys_owner s
  mbx := rfl
  units := rfl

/-- A reset part by part: what is not named here it leaves (R511, R513). -/
theorem lose_eq (s : State) : lose s = { s with
    items := [], host := (loseHost s).host, lko := (loseLko s).lko, link := (loseLink s).link, ctr := (clearAllCtrs s).ctr,
    trust := (bootSlot (zeroiseKeys s)).trust,
    par := (losePath s).par, cut := (losePath s).cut, em := {}, grv := (losePath s).grv, lnd := (losePath s).lnd,
    buf := (losePath s).buf, krf := {}, sch := (losePath s).sch, dram := (losePath s).dram, cap := (losePath s).cap,
    md := { since := s.ring, ntrim := s.md.ntrim, trimDone := s.ring },
    cmp := { s.cmp with cmp := tkeep {} (fun c => { c with frozen := false, emptyPosted := false }) s.cmp.cmp },
    pwr := { s.pwr with reading := [], bulkHigh := none, pin := 0 } } := by
  dsimp only [lose, bootSlot, loseHost, loseLko, loseLink, losePath, clearAllCtrs, zeroiseKeys, nowClk, clkOf]
  rfl

/-- What a reset leaves of a port: its records, since when it is down, and since when it trains (R104). -/
def lostPort (s : State) (p : Port) : Port :=
  { cfg := p.cfg, win := p.win, changed := if p.up then s.ring else p.changed, trainFrom := s.ran }

theorem lose_ports (s : State) : (lose s).link.port = tkeep {} (lostPort s) s.link.port := rfl

/-- After a reset no port is up. -/
theorem lose_port_down (s : State) (p : Nat) : (port (lose s) p).up = false := by
  rw [port, lose_ports]
  exact tget_tkeep_of (p := fun x : Port => x.up = false) rfl (fun _ => rfl) _ _

/-- A reset keeps the ports' records. -/
theorem lose_port_cfg {s : State} (h : tabWf {} s.link.port = true) (p : Nat) : (port (lose s) p).cfg = (port s p).cfg := by
  have hs : tabSorted s.link.port = true := (Bool.and_eq_true_iff.mp h).1
  rw [port, lose_ports]
  exact tget_tkeep_part (f := lostPort s) Port.cfg (fun _ => rfl) _ hs

/-! ### The loss of the time sources (R73) -/

/-- Sources that qualify afresh: what the module keeps of them and the selection are all that changes. -/
theorem freshSrcs_alone (s : State) : ∃ x, freshSrcs s = { s with tim := { s.tim with srcs := x, source := none } } := by
  unfold freshSrcs
  refine foldS_induct (P := fun t => ∃ x, t = { s with tim := { s.tim with srcs := x, source := none } }) (fun i t ht => ?_) _ ⟨_, rfl⟩
  obtain ⟨x, rfl⟩ := ht
  split
  · exact ⟨x, rfl⟩
  · exact ⟨_, rfl⟩

/-- With no mailbox in service no event is generated (R401). -/
theorem postTo_closed {s : State} (l : List Nat) (k : Nat) (b : List Byte) (h : s.host.mbx = []) : postTo l k b s = s := by
  refine foldS_fixed (fun c _ => ?_)
  have hm : mbxOf s c = {} := by rw [mbxOf, h]; rfl
  simp [post, evtOpen, hm]

/-- A change of the timing state that nobody is told of touches the timing alone, but for what a LOCKED module has shown. -/
theorem setTim_closed (t : TimState) {s : State} (h : s.host.mbx = []) : ∃ x y, setTim t s = { s with tim := x, pwr := y } := by
  unfold setTim
  exact ⟨_, _, postTo_closed _ _ _ h⟩

theorem setTim_records (t : TimState) {s : State} (h : s.tim.state ≠ .holdoverCart) :
    (setTim t s).tim.cart = s.tim.cart ∧ (setTim t s).tim.ctl = s.tim.ctl ∧ (setTim t s).tim.src = s.tim.src := by
  have hlife (x : TimSt) : endLife s x = x := if_neg (by simp [h])
  rw [setTim_tim, hlife]
  unfold startHold startSlew
  split <;> split <;> exact ⟨rfl, rfl, rfl⟩

/-- The loss of the sources leaves the cartridge and the records of the timing. -/
theorem loseSources_closed {s : State} (h : s.host.mbx = []) : ∃ x y, loseSources s = { s with tim := x, pwr := y } ∧
    x.cart = s.tim.cart ∧ x.ctl = s.tim.ctl ∧ x.src = s.tim.src := by
  obtain ⟨z, hz⟩ := freshSrcs_alone s
  unfold loseSources
  dsimp only
  rw [hz]
  split
  · next hl =>
    obtain ⟨x, y, hxy⟩ := setTim_closed (lossState { s with tim := { s.tim with srcs := z, source := none } })
      (s := { s with tim := { s.tim with srcs := z, source := none } }) h
    have hrec := setTim_records (lossState { s with tim := { s.tim with srcs := z, source := none } })
      (s := { s with tim := { s.tim with srcs := z, source := none } }) (by rw [hl]; decide)
    rw [hxy] at hrec ⊢
    exact ⟨x, y, rfl, hrec⟩
  · exact ⟨_, _, rfl, rfl, rfl, rfl⟩

theorem deviceRestart_eq (s : State) : ∃ x y, deviceRestart s = { losePair (lose s) with tim := x, pwr := y } ∧
    x.cart = s.tim.cart ∧ x.ctl = s.tim.ctl ∧ x.src = s.tim.src :=
  loseSources_closed (s := losePair (lose s)) rfl

theorem deviceRestart_emptied (s : State) : Emptied (deviceRestart s) := by
  obtain ⟨x, y, h, -⟩ := deviceRestart_eq s
  have e := lose_emptied s
  rw [h]
  exact ⟨e.items, e.cuts, e.ents, e.frames, e.pipe, e.sess, e.cutKey, e.keys, e.mbx, e.units⟩

/-! ### Restarts (R410, R412, R433, R496, R511) -/

theorem restartDue_now {s : State} {r : Nat} (h : s.lko.restartAt = some r) (hr : r ≤ s.ran) :
    restartDue s = takeSnap (deviceRestart s) := if_pos (by simp [restartNow, h, hr])

theorem restartDue_later {s : State} (h : ∀ r, s.lko.restartAt = some r → s.ran < r) : restartDue s = s := by
  refine if_neg ?_
  rw [restartNow, Option.any_eq_true]
  rintro ⟨r, hr, hle⟩
  exact absurd (h r hr) (Nat.not_lt.mpr (of_decide_eq_true hle))

/-- The PCIe link trains to a rate of 1 to 5 and to a width of 1, 2, 4 or 8; two free values name them (log entry 117). -/
theorem linkTrained_eq (s : State) : ∃ rate width, linkTrained s = { s with
    host := { s.host with pcieRate := rate, pcieWidth := width }, freeCtr := s.freeCtr + 2 } ∧
    1 ≤ rate ∧ rate ≤ 5 ∧ width ∈ [1, 2, 4, 8] := by
  refine ⟨Config.freeNat s.freeCtr % 5 + 1, 2 ^ (Config.freeNat (s.freeCtr + 1) % 4), rfl, by omega, by omega, ?_⟩
  generalize Config.freeNat (s.freeCtr + 1) = n
  have hn : n % 4 = 0 ∨ n % 4 = 1 ∨ n % 4 = 2 ∨ n % 4 = 3 := by omega
  rcases hn with h | h | h | h <;> rw [h] <;> decide

theorem restartBy_first {s : State} (r : Nat) (h : s.lko.restartAt = none) :
    restartBy r s = { s with lko := { s.lko with restartAt := some r } } := by
  unfold restartBy
  rw [h, Option.getD_none, Nat.min_self]

/-- A function level reset clears the MSI-X table and the configuration space, and a restart follows at the next boundary. -/
theorem functionReset_eq {s : State} (h : s.lko.restartAt = none) : ∃ rate width, functionReset s = { s with
    host := { s.host with vec := [], stopped := true, pcieRate := rate, pcieWidth := width, devCtl := 0x2810#16, aer := 0 },
    lko := { s.lko with restartAt := some (s.ran + 1) }, freeCtr := s.freeCtr + 2 } ∧
    1 ≤ rate ∧ rate ≤ 5 ∧ width ∈ [1, 2, 4, 8] := by
  obtain ⟨rate, width, htrain, hlo, hhi, hwidth⟩ := linkTrained_eq s
  refine ⟨rate, width, ?_, hlo, hhi, hwidth⟩
  unfold functionReset
  rw [htrain]
  have hby := restartBy_first (s := { s with
    host := { s.host with pcieRate := rate, pcieWidth := width }, freeCtr := s.freeCtr + 2 }) (s.ran + 1) h
  rw [hby]

/-! ### Factory injections (R500) -/

section
variable {s : State} {r u k code : Nat}

/-- The only injection whose ring has come is raised and used up. -/
theorem faultInject_due {n : Nat} (hf : s.lko.factory = true) (hi : s.lko.inject = [(r, u, k, code)]) (hr : r ≤ n) :
    faultInject n s = injectOne (r, u, k, code) { s with lko := { s.lko with inject := [] } } := by
  have hlt : ¬ n < r := Nat.not_lt.mpr hr
  simp [faultInject, hf, hi, hr, hlt, foldS]

theorem faultInject_later {n : Nat} (hf : s.lko.factory = true) (hi : s.lko.inject = [(r, u, k, code)]) (hr : n < r) :
    faultInject n s = s := by
  have hdue : s.lko.inject.filter (fun x => decide (x.1 ≤ n)) = [] := by simp [hi, Nat.not_le.mpr hr]
  have hkeep : s.lko.inject.filter (fun x => decide (n < x.1)) = s.lko.inject := by simp [hi, hr]
  unfold faultInject
  dsimp only
  rw [if_pos hf, hdue, hkeep]
  rfl

/-- An injection raises a fault of its class on a unit that is present. -/
theorem injectOne_eq (h : unitPresent s.variant u = true) : injectOne (r, u, k, code) s =
    match k with
    | 0 => note u 0x0F09 255 [code] s
    | 1 => fenceFault u 0x0F09 255 [code] s
    | 2 => restartFault u 0x0F09 255 [code] s
    | 3 => haltFault u 0x0F09 255 [code] s
    | _ => s := by
  unfold injectOne
  exact if_neg (by simp [h])

end

end Sys2Proof.Machine

namespace Sys2Proof.Proofs
open Machine

/-- Settles O37: the restart loses what every reset loses, with no mailbox left to tell of its timing state; each other row by its
equation. -/
theorem restartsAndInjections : Obligations.RestartsAndInjections := by
  refine ⟨fun s hh => ⟨congrArg Host.Outcome.next (unlessHalted_running _ hh), fun h => ?_, fun h => ?_, fun r h hr => ?_,
    fun hb => boundaryRow_off _ hb, fun r h hr hb => ?_⟩, fun s r u k code hh => ?_⟩
  · obtain ⟨rate, width, heq, hrange⟩ := functionReset_eq h
    exact ⟨rate, width, congrArg Host.Outcome.next ((unlessHalted_running _ hh).trans heq), hrange⟩
  · exact boundaryRow_idle hh fun _ => restartDue_later (by simp [h])
  · exact boundaryRow_idle hh fun _ => restartDue_later fun x hx => by rwa [← Option.some.inj (h.symm.trans hx)]
  · refine ⟨takeSnap (deviceRestart s), (boundaryRow_at _ hh hb).trans (congrArg Host.Outcome.next (restartDue_now h hr)), ?_⟩
    obtain ⟨x, y, heq, hcart, hctl, hsrc⟩ := deviceRestart_eq s
    have e := deviceRestart_emptied s
    rw [heq] at e ⊢
    have hports := lose_port_down s
    have hcfg (p : Nat) (hw : tabWf {} s.link.port = true) := lose_port_cfg hw p
    rw [lose_eq] at hports hcfg e ⊢
    exact ⟨rfl, rfl, rfl, rfl, rfl, e.items, e.cuts, e.ents, e.frames, e.pipe, e.sess, e.cutKey, e.keys,
      fun c => congrArg Mbx.enabled (e.mbxOf c), fun p => ⟨hports p, hcfg p⟩, e.unitSt,
      hcart, hctl, hsrc, rfl, rfl, rfl, rfl, rfl, rfl, rfl, rfl, rfl, rfl, rfl, rfl⟩
  intro v
  refine ⟨fun hf => ?_, fun hf hi hr hu => ?_, fun hf hi hr => ?_⟩
  · exact congrArg Host.Outcome.next ((unlessHalted_running _ hh).trans (if_neg (by simp [hf])))
  · have hrow : exec .faultInject s = .next (injectOne (r, u, k, code) v) :=
      congrArg Host.Outcome.next ((unlessHalted_running _ hh).trans (faultInject_due hf hi hr))
    have hone := injectOne_eq (s := v) (r := r) (k := k) (code := code) hu
    refine ⟨fun hk => ?_, fun hk => ?_, fun hk => ?_, fun hk => ?_⟩ <;> subst hk <;>
      exact hrow.trans (congrArg Host.Outcome.next hone)
  · exact congrArg Host.Outcome.next ((unlessHalted_running _ hh).trans (faultInject_later hf hi hr))

end Sys2Proof.Proofs

/-! ## The power cycle (R51, R510, R513, R559, R561, R565) -/

namespace Sys2Proof.Machine

/-! ### Power on and power good -/

section
variable {s : State}

theorem powerOn_rises {temp : Int} (h : s.pwr.on = false) (hz : ∀ z, s.pwr.offZone = some z → temp < restartBelow z) :
    powerOn temp s = { s with pwr := { s.pwr with rising := true, offZone := none } } := by
  refine if_neg ?_
  rw [h, Bool.false_or, Option.any_eq_true]
  rintro ⟨z, hoff, hle⟩
  exact absurd (hz z hoff) (not_lt.mpr (of_decide_eq_true hle))

/-- After a thermal shutdown the rails wait for the zone to cool. -/
theorem powerOn_hot {temp : Int} {z : Nat} (hz : s.pwr.offZone = some z) (h : restartBelow z ≤ temp) : powerOn temp s = s :=
  if_pos (by simp [hz, h])

theorem powerGood_idle (h : s.pwr.on = true ∨ s.pwr.rising = false) : powerGood s = s :=
  if_pos (by simpa using h)

/-- The grid runs again, from the ring after the time hint (R51). -/
def gridStart (s : State) : State :=
  let r := s.tim.hint + 1
  let u : State := { s with ran := s.ran + 1 }
  { u with
    ring := r, clock := 0, pwr := { s.pwr with on := true, rising := false, pageUp := s.pwr.page },
    md := { s.md with since := r, trimDone := r }, tim := { s.tim with stateSince := r, stateRan := u.ran, evalRing := r },
    link := { s.link with port := tkeep {} (fun p => { p with trainFrom := u.ran, changed := 0 }) s.link.port },
    ctr := { s.ctr with cycBase := clkOf u 0 } }

theorem powerGood_starts (h : s.pwr.on = false) (hr : s.pwr.rising = true) :
    powerGood s = takeSnap (linkTrained (freshSrcs (gridStart s))) := if_neg (by simp [h, hr])

/-- After a restart or a power cycle no source is qualified (R73). -/
theorem freshSrcs_qualified (s : State) (i : Nat) : (srcOf (freshSrcs s) i).qualified = false := by
  unfold freshSrcs
  refine foldS_induct (P := fun t => ∀ i, (srcOf t i).qualified = false) (fun j t ht i => ?_) _ (fun _ => rfl) i
  split
  · exact ht i
  · by_cases hij : i = j
    · rw [hij, srcOf_modSrc_self]; rfl
    · rw [srcOf_modSrc_ne _ _ hij]; exact ht i

/-! ### Power failure -/

theorem ctrGet_post {k : Ctr} (i j c code : Nat) (b : List Byte) (s : State) (h : k ≠ .mbxEvtLost) :
    ctrGet (post c code b s) k i j = ctrGet s k i j := by
  have hflush (t : State) (ht : t.ctr = s.ctr) : ctrGet t k i j = ctrGet s k i j := by rw [ctrGet, ht, ctrGet]
  unfold post
  split
  · rfl
  · split
    · rfl
    · dsimp only
      split
      · exact hflush _ (by rw [writeEvt_ctr, flushLost_ctr])
      · rw [ctrGet_cnt_ne _ _ (ctrKey_ne i j c 0 h)]
        exact hflush _ (flushLost_ctr s c)

theorem powerFail_idle (h : s.pwr.on = false ∨ s.pwr.fallAt.isSome = true) : powerFail s = s := by
  refine if_neg ?_
  rcases h with h | h
  · simp [h]
  · simp [Option.isNone_iff_eq_none, Option.isSome_iff_ne_none.mp h]

/-- A power failure is counted and posted. -/
def failWarned (s : State) : State := powerAlert 3 255 0 (cnt .pwrFails 0 0 1 s)

theorem powerFail_falls (h : s.pwr.on = true) (hf : s.pwr.fallAt = none) : powerFail s = powerDown (failWarned s) :=
  if_pos (by simp [h, hf])

@[simp] theorem failWarned_pwr (s : State) : (failWarned s).pwr = s.pwr := post_pwr _ _ _ _
@[simp] theorem failWarned_md (s : State) : (failWarned s).md = s.md := post_md _ _ _ _
@[simp] theorem failWarned_lnd (s : State) : (failWarned s).lnd = s.lnd := post_lnd _ _ _ _
@[simp] theorem failWarned_cut (s : State) : (failWarned s).cut = s.cut := post_cut _ _ _ _
@[simp] theorem failWarned_ring (s : State) : (failWarned s).ring = s.ring := post_ring _ _ _ _
@[simp] theorem failWarned_ran (s : State) : (failWarned s).ran = s.ran := post_ran _ _ _ _
@[simp] theorem failWarned_clock (s : State) : (failWarned s).clock = s.clock := post_clock _ _ _ _

theorem failWarned_counted (s : State) : ctrGet (failWarned s) .pwrFails 0 0 = (ctrGet s .pwrFails 0 0 + 1) % 2 ^ 64 :=
  (ctrGet_post _ _ _ _ _ _ (by decide)).trans (ctrGet_cnt_self _ _ _ _ _ (by decide))

/-- The rails that are held change the fall's date and the optics alone. -/
theorem powerDown_alone (s : State) : ∃ x, powerDown s = { s with
    pwr := { s.pwr with fallAt := some (s.pwr.fallAt.getD (if s.clock = 0 then s.ran + 2000 else s.ran + 2001)) }, link := x } := by
  by_cases h : halted s = true
  · exact ⟨_, if_pos h⟩
  · exact ⟨_, if_neg h⟩

/-- Every optic of a running module goes to low power (R561). -/
theorem powerDown_optics {s : State} (h : halted s = false) (c : Nat) : (cageOf (powerDown s) c).highPower = false := by
  rw [show powerDown s = _ from if_neg (by rw [Bool.not_eq_true]; exact h)]
  exact tget_tkeep_of (f := fun g : Cage => { g with highPower := false }) (p := fun g : Cage => g.highPower = false) rfl
    (fun _ => rfl) s.link.cage (k1 c)

end

/-! ### The fall of the rails -/

theorem railsFall_emptied (s : State) : Emptied (railsFall s) := by
  have e := lose_emptied s
  exact ⟨e.items, e.cuts, e.ents, e.frames, e.pipe, e.sess, e.cutKey, e.keys, rfl, e.units⟩

end Sys2Proof.Machine

namespace Sys2Proof.Proofs
open Machine

/-- Settles O32: the fall of the rails loses what every reset loses, and then the saved records return. -/
theorem powerCycle : Obligations.PowerCycle := by
  intro s
  refine ⟨fun temp h hz => congrArg Host.Outcome.next (powerOn_rises h hz),
    fun temp z hz h => congrArg Host.Outcome.next (powerOn_hot hz h), fun h hr => ?_,
    fun h => congrArg Host.Outcome.next (powerGood_idle h), fun h => congrArg Host.Outcome.next (powerFail_idle h),
    fun h hf => ?_, fun r h hf hr => ?_⟩
  · refine ⟨_, congrArg Host.Outcome.next (powerGood_starts h hr), ?_⟩
    obtain ⟨rate, width, htrain, hrange⟩ := linkTrained_eq (freshSrcs (gridStart s))
    obtain ⟨x, hfresh⟩ := freshSrcs_alone (gridStart s)
    have hqual := freshSrcs_qualified (gridStart s)
    rw [htrain]
    rw [hfresh] at hqual ⊢
    obtain ⟨hlo, hhi, hwidth⟩ := hrange
    exact ⟨rfl, rfl, rfl, rfl, rfl, rfl, ⟨hlo, hhi, hwidth, rfl⟩, rfl, rfl, hqual⟩
  · obtain ⟨x, hdown⟩ := powerDown_alone (failWarned s)
    refine ⟨_, congrArg Host.Outcome.next (powerFail_falls h hf), ?_, ?_, ?_, ?_, ?_, ?_, ?_, fun hh c => powerDown_optics ?_ c⟩
    · simp [hdown, hf]
    · rw [hdown]; exact failWarned_counted s
    · rw [hdown]; exact failWarned_md s
    · rw [hdown]; exact failWarned_lnd s
    · rw [hdown]; exact failWarned_cut s
    · rw [hdown]; exact failWarned_ring s
    · rw [hdown]; exact failWarned_clock s
    · rw [halted, failWarned_md, failWarned_pwr]; exact hh
  · refine ⟨_, congrArg Host.Outcome.next (ringBoundary_railsFall h (railsDue_of_fallAt hf hr)), ?_⟩
    have e := railsFall_emptied (nextRing s)
    unfold railsFall restoreSaved at e ⊢
    rw [lose_eq] at e ⊢
    exact ⟨rfl, rfl, rfl, rfl, e.items, e.cuts, e.ents, e.frames, e.pipe, e.sess, e.cutKey, e.keys,
      fun c => congrArg Mbx.enabled (e.mbxOf c),
      fun u => ⟨congrArg UnitSt.fenced (e.unitSt u), congrArg UnitSt.epoch (e.unitSt u)⟩, rfl, rfl, rfl, rfl, rfl, rfl, rfl, rfl,
      rfl, rfl, rfl, rfl, rfl, rfl, rfl, rfl, rfl, rfl, rfl, rfl⟩

end Sys2Proof.Proofs

/-! ## What a command leaves at its boundary (R60, R72, R90, R173, R294, R326, R360, R371, R382, R445, R447, R503, R515, R530) -/

namespace Sys2Proof.Machine

/-! ### The row -/

/-- Only the commands of link security record the epoch of a unit. -/
theorem landAns_of_silent {i : Item} {s : State} (hrsp : i.rsp = false) (hop : i.op ∉ [Op.secyAlloc, .rxScWrite, .saInstall]) :
    (landAns i s).st = (landItem i s).st := by
  have hunits : itemUnits s i = [] := by
    revert hop
    unfold itemUnits
    cases i.op <;> simp
  simp [landAns, hunits, hrsp, epochMoved]

/-- COMMAND_LANDING of a single command whose boundary has come and that owes no answer. -/
theorem commandLanding_silent {i : Item} {s : State} (hi : s.items = [i]) (hr : i.rsp = false) (hd : i.due ≤ s.ring)
    (hop : i.op ∉ [Op.barrier, .cmpDefine, .groupSleep, .firebreakLift, .secyAlloc, .rxScWrite, .saInstall]) :
    commandLanding s = sleepStep (downStep (landItem i { s with items := [] }).st) := by
  simp only [List.mem_cons, List.not_mem_nil, or_false, not_or] at hop
  obtain ⟨hbar, hdef, hsleep, hlift, halloc, hsc, hsa⟩ := hop
  rw [commandLanding_before_ports (dueItems_alone hi hbar hd) (by simp [hdef, hsleep, hlift]), landOne_alone hi, landedAlone,
    if_neg (by simp [hr]), landAns_of_silent hr (by simp [halloc, hsc, hsa])]

/-- The effect alone stands where it takes no port down and changes no group's sleep. -/
theorem ports_after_effect {t : State} (hd : t.link.downs8 = []) (hs : t.md.sleepDue = []) : sleepStep (downStep t) = t := by
  rw [downStep_idle hd, sleepStep_idle hs]

theorem landItem_secyWrite {i : Item} (h : i.op = .secyWrite) (s : State) : landItem i s = landSecyWrite i s := by
  rw [landItem, h]
theorem landItem_gateSwitch {i : Item} (h : i.op = .gateSwitch) (s : State) : landItem i s = landGateSwitch i s := by
  rw [landItem, h]
theorem landItem_freeze {i : Item} (h : i.op = .freeze) (s : State) : landItem i s = landFreeze i s := by rw [landItem, h]
theorem landItem_thaw {i : Item} (h : i.op = .thaw) (s : State) : landItem i s = landThaw i s := by rw [landItem, h]
theorem landItem_modeSet {i : Item} (h : i.op = .modeSet) (s : State) : landItem i s = landModeSet i s := by rw [landItem, h]

/-! ### What no discard changes -/

/-- The state but for what frames in flight, PFC and events change. -/
def steady (s : State) := (s.cmp, s.em, s.md, s.link.downs8)

theorem steady_of {s t : State} (hc : t.cmp = s.cmp) (he : t.em = s.em) (hm : t.md = s.md) (hl : t.link = s.link) :
    steady t = steady s := by
  unfold steady; rw [hc, he, hm, hl]

/-- What each change of a list keeps, the whole keeps. -/
theorem steady_foldS {α : Type} {f : α → State → State} (h : ∀ a t, steady (f a t) = steady t) (l : List α) (s : State) :
    steady (foldS l f s) = steady s :=
  foldS_keeps s steady f h l

@[simp] theorem steady_cnt (c : Ctr) (i j n : Nat) (s : State) : steady (cnt c i j n s) = steady s := rfl
@[simp] theorem steady_postTo (l : List Nat) (k : Nat) (b : List Byte) (s : State) : steady (postTo l k b s) = steady s :=
  steady_of (by simp) (by simp) (by simp) (by simp)
@[simp] theorem steady_progEvt (u k c q n : Nat) (s : State) : steady (progEvt u k c q n s) = steady s :=
  steady_of (by simp) (by simp) (by simp) (by simp)

/-! #### PFC -/

@[simp] theorem steady_modPort (p : Nat) (f : Port → Port) (s : State) : steady (modPort p f s) = steady s := rfl
@[simp] theorem steady_pfcSend (p m q : Nat) (s : State) : steady (pfcSend p m q s) = steady s := by
  unfold pfcSend
  split
  · rfl
  · exact steady_progEvt _ _ _ _ _ _
@[simp] theorem steady_pfcTo (e : Bool) (p : Nat) (s : State) : steady (pfcTo e p s) = steady s := by
  unfold pfcTo pfcXoff
  simp only [apply_ite steady, steady_modPort, steady_pfcSend, ite_self]
@[simp] theorem steady_pfcUpdate (p : Nat) (s : State) : steady (pfcUpdate p s) = steady s := steady_pfcTo false p s

/-! #### Cells and frame records -/

@[simp] theorem steady_setBuf (b : BufSt) (s : State) : steady { s with buf := b } = steady s := rfl
@[simp] theorem steady_setLnd (l : LndSt) (s : State) : steady { s with lnd := l } = steady s := rfl
@[simp] theorem steady_setCut (c : CutSt) (s : State) : steady { s with cut := c } = steady s := rfl
@[simp] theorem steady_setSch (c : SchSt) (s : State) : steady { s with sch := c } = steady s := rfl
@[simp] theorem steady_setDram (d : DramSt) (s : State) : steady { s with dram := d } = steady s := rfl
@[simp] theorem steady_modPool (p : Nat) (f : Pool → Pool) (s : State) : steady (modPool p f s) = steady s := rfl
@[simp] theorem steady_setCache (g p : Nat) (l : List Nat) (s : State) : steady (setCache g p l s) = steady s := rfl
@[simp] theorem steady_modFrame (n : Nat) (f : Frame → Frame) (s : State) : steady (modFrame n f s) = steady s := rfl
@[simp] theorem steady_reapFrame (n : Nat) (s : State) : steady (reapFrame n s) = steady s := rfl
@[simp] theorem steady_ownerSub (pool p prio n : Nat) (s : State) : steady (ownerSub pool p prio n s) = steady s := rfl
@[simp] theorem steady_note (u k c : Nat) (d : List Nat) (s : State) : steady (note u k c d s) = steady s :=
  steady_of (by simp) (by simp) (by simp) (by simp)
@[simp] theorem steady_restartFault (u k c : Nat) (d : List Nat) (s : State) : steady (restartFault u k c d s) = steady s :=
  steady_of (by simp) (by simp) (by simp) (by simp)

@[simp] theorem steady_poolEval (p : Nat) (s : State) : steady (poolEval p s) = steady s := by
  unfold poolEval
  simp only [apply_ite steady, steady_modPool]
  rw [steady_foldS (fun x t => steady_pfcTo _ x t), steady_modPool, ite_self]

@[simp] theorem steady_blaze (st : BitVec 128) (pos stage port cls u d side pipe : Nat) (s : State) :
    steady (blaze st pos stage port cls u d side pipe s) = steady s := by
  unfold blaze
  split
  · dsimp only
    split
    · rfl
    · exact steady_foldS (fun e t => by split <;> rfl) _ _
  · rfl

@[simp] theorem steady_leakCell (p k x : Nat) (s : State) : steady (leakCell p k x s) = steady s := by
  simp only [leakCell, apply_ite steady, steady_restartFault, steady_modPool, steady_setBuf, steady_note, steady_cnt, ite_self]

@[simp] theorem steady_leakBad (p : Nat) (l : List Nat) (s : State) : steady (leakBad p l s) = steady s :=
  steady_foldS (fun _ _ => steady_leakCell _ _ _ _) _ _

@[simp] theorem steady_freeCell (g p x : Nat) (s : State) : steady (freeCell g p x s) = steady s := by
  simp only [freeCell, steady_poolEval, steady_modPool]
  split
  · exact steady_leakCell _ _ _ _
  · simp only [apply_ite steady, steady_modPool, steady_setCache, steady_leakBad, ite_self]

@[simp] theorem steady_dropHolders (n : Nat) (p : Nat → Bool) (s : State) : steady (dropHolders n p s) = steady s := by
  unfold dropHolders
  split
  · rfl
  · simp only [steady_reapFrame, apply_ite steady, steady_setBuf, steady_ownerSub, steady_modFrame,
      steady_foldS (fun x t => steady_freeCell _ _ x t), ite_self]

@[simp] theorem steady_settleFrame (c : Copy) (lost : Bool) (s : State) : steady (settleFrame c lost s) = steady s := by
  unfold settleFrame
  dsimp only
  split
  · rw [steady_setCut]
  next f _ =>
    rw [steady_reapFrame]
    split <;> simp only [apply_ite steady, steady_cnt, steady_modFrame, steady_setCut, ite_self]

/-! #### Discards -/

theorem steady_discardWaiting (lost : Bool) (ctr : Ctr) (i j cause : Nat) (c : Copy) (s : State) :
    steady (discardWaiting lost ctr i j cause c s) = steady s := by
  simp only [discardWaiting, settle, leaveRec, dropIngress, blazeDrop, steady_reapFrame, steady_modFrame, steady_settleFrame,
    steady_dropHolders, steady_blaze, steady_cnt]

theorem steady_discardSpilled (ctr : Ctr) (i j cause : Nat) (lost : Bool) (c : Copy) (s : State) :
    steady (discardSpilled ctr i j cause lost c s) = steady s := by
  rw [discardSpilled, steady_settleFrame, blazeDrop, steady_blaze, steady_cnt]

theorem steady_discardDone (ctr : Ctr) (i j cause : Nat) (c : Copy) (s : State) :
    steady (discardDone ctr i j cause c s) = steady s := by
  rw [discardDone, returnCredits, returnSome, steady_setLnd, blazeDrop, steady_blaze, steady_cnt]

theorem steady_freePage (p : Nat) (s : State) : steady (freePage p s) = steady s := by
  simp only [freePage, modRank, apply_ite steady, steady_setDram, ite_self]

theorem steady_voqNorm (k : Key) (s : State) : steady (voqNorm k s) = steady s := by
  simp only [voqNorm, toDirect, setVoq, freePages, apply_ite steady, steady_setLnd,
    steady_foldS (fun (e : Nat × Nat) t => steady_freePage e.1 t), ite_self]

theorem steady_guardEnd (p n : Nat) (s : State) : steady (guardEnd p n s) = steady s := by
  simp only [guardEnd, apply_ite steady, steady_cnt, steady_setSch, ite_self]

section
variable (pk : Key → Bool) (pc : Copy → Bool) {drop : Copy → State → State} (h : ∀ c t, steady (drop c t) = steady t) (s : State)
include h

theorem steady_removeVoqs : steady (removeVoqs pk pc drop s) = steady s := by
  refine steady_foldS (fun e t => ?_) _ s
  rw [steady_foldS h, steady_voqNorm, setVoq, steady_setLnd]

theorem steady_doomVoqs : steady (doomVoqs pk pc drop s) = steady s := by
  refine steady_foldS (fun e t => ?_) _ s
  rw [steady_foldS h, setVoq, steady_setLnd]

theorem steady_removeSched : steady (removeSched pk pc drop s) = steady s := by
  rw [removeSched, guardEmpty, steady_foldS (fun _ _ => steady_guardEnd _ _ _)]
  refine steady_foldS (fun e t => ?_) _ s
  rw [steady_foldS h, steady_setSch]

end

/-- The copies that a freeze or a detach discards. -/
theorem steady_dropCopies (c : Nat) (ctr : Ctr) (cause : Nat) (pc : Copy → Bool) (s : State) :
    steady (dropCopies c ctr cause pc s) = steady s := by
  rw [dropCopies, steady_removeSched _ _ (fun _ _ => steady_discardDone _ _ _ _ _ _),
    steady_doomVoqs _ _ (fun _ _ => steady_discardSpilled _ _ _ _ _ _ _),
    steady_removeVoqs _ _ (fun _ _ => steady_discardWaiting _ _ _ _ _ _ _)]

theorem steady_iff {s t : State} : steady t = steady s ↔
    t.cmp = s.cmp ∧ t.em = s.em ∧ t.md = s.md ∧ t.link.downs8 = s.link.downs8 := by
  simp [steady]

/-! ### Link security (R90) -/

theorem landSecyWrite_mine {i : Item} {s : State} (h : secyMine s i.req = true) : (landSecyWrite i s).st =
    modSecy (qPort i.req) (qSecy i.req) (fun y => { y with rec_ := ownerFields y.rec_ (rec128 i.req.payload) }) s := by
  rw [landSecyWrite, if_pos h]

theorem modSecy_downs8 (p n : Nat) (f : SecY → SecY) (s : State) : (modSecy p n f s).link.downs8 = s.link.downs8 := rfl

theorem landSecyWrite_other {i : Item} {s : State} (h : secyMine s i.req = false) : (landSecyWrite i s).st = s := by
  rw [landSecyWrite, if_neg (by simp [h])]

/-! ### Gates (R326, R330) -/

@[simp] theorem blaze_sch (st : BitVec 128) (pos stage port cls u d side pipe : Nat) (s : State) :
    (blaze st pos stage port cls u d side pipe s).sch = s.sch := by
  unfold blaze
  split
  · dsimp only
    split
    · rfl
    · exact foldS_keeps s State.sch _ (fun e t => by split <;> rfl) _
  · rfl

theorem discardDone_sch (ctr : Ctr) (i j cause : Nat) (c : Copy) (s : State) : (discardDone ctr i j cause c s).sch = s.sch :=
  blaze_sch _ _ _ _ _ _ _ _ _ _

/-- What the discard of a single head keeps, the discard of all of them keeps. -/
theorem dropOversize_keeps {β : Type} (g : State → β) (p : Nat)
    (h : ∀ (c i cause : Nat) (x : Copy) (k : Key) (t : State),
      g (discardDone .schedGateOversize c i cause x (dropIdle p (popQueue k t))) = g t)
    (s : State) : g (dropOversize p s) = g s := by
  have step (n : Nat) : ∀ t, g (dropOversizeN p n t) = g t := by
    induction n with
    | zero => exact fun _ => rfl
    | succ n ih =>
      intro t
      unfold dropOversizeN
      split
      · rfl
      · rw [ih, h]
  exact step _ s

theorem steady_dropOversize (p : Nat) (s : State) : steady (dropOversize p s) = steady s := by
  refine dropOversize_keeps steady p (fun c i cause x k t => ?_) s
  rw [steady_discardDone, dropIdle, dropDeficits, steady_setSch, popQueue, steady_setSch]

/-- A discard changes no bank and switches none. -/
theorem dropOversize_banks (p : Nat) (s : State) :
    ((dropOversize p s).sch.active, (dropOversize p s).sch.bank) = (s.sch.active, s.sch.bank) := by
  refine dropOversize_keeps (fun t => (t.sch.active, t.sch.bank)) p (fun c i cause x k t => ?_) s
  rw [discardDone_sch]
  rfl

/-- A port without a queued copy has no head. -/
theorem heads_of_empty {p : Nat} {s : State} (h : ∀ e ∈ s.sch.queue, e.1.1 = p → e.2 = []) : heads s p = [] := by
  refine List.filterMap_eq_nil_iff.mpr (fun e he => ?_)
  split
  · rw [h e he (by assumption)]; rfl
  · rfl

theorem dropOversize_empty {p : Nat} {s : State} (h : ∀ e ∈ s.sch.queue, e.1.1 = p → e.2 = []) : dropOversize p s = s :=
  dropOversize_idle (by rw [oversizeHead, heads_of_empty h]; rfl)

/-- The switch of a port's bank, before the heads that no window can hold are discarded. -/
def bankSwitched (p : Nat) (s : State) : State :=
  let old := gatedMask s p
  let b := 1 - activeBank s p
  let s := accPaused p (nowClk s) (macAdvance p (nowClk s) s)
  let s := { s with sch := { s.sch with active := tput false s.sch.active (k1 p) (b == 1) } }
  let s := { s with link := { s.link with
    pause := tfilter (fun k => k.1 != p || old.testBit k.2.1 || !(gatedMask s p).testBit k.2.1) s.link.pause } }
  pfcUpdate p s

/-- The discards follow the switch, and GATE_APPLIED is posted after them. -/
theorem landGateSwitch_st (i : Item) (s : State) : ∃ l b, (landGateSwitch i s).st =
    postTo l 0x0903 b (dropOversize i.req.arg1.toNat (bankSwitched i.req.arg1.toNat s)) := by
  refine ⟨0 :: (attachedTo (dropOversize i.req.arg1.toNat (bankSwitched i.req.arg1.toNat s)) i.req.arg1.toNat).filter (· ≠ 0),
    packLE [(8, i.due), (1, i.req.arg1.toNat), (1, 1 - activeBank s i.req.arg1.toNat)], ?_⟩
  unfold landGateSwitch bankSwitched
  dsimp only

theorem steady_setPause (x : Tab Nat) (s : State) : steady { s with link := { s.link with pause := x } } = steady s := rfl
theorem steady_setPauseAcc (x : Tab Nat) (s : State) : steady { s with link := { s.link with pauseAcc := x } } = steady s := rfl

theorem steady_accPaused (p n : Nat) (s : State) : steady (accPaused p n s) = steady s := by
  rw [accPaused, steady_setPauseAcc, steady_foldS (fun _ _ => steady_progEvt _ _ _ _ _ _)]

theorem steady_bankSwitched (p : Nat) (s : State) : steady (bankSwitched p s) = steady s := by
  rw [bankSwitched, steady_pfcUpdate, steady_setPause, steady_setSch, steady_accPaused, macAdvance, steady_setSch]

theorem bankSwitched_lnd (p : Nat) (s : State) : (bankSwitched p s).lnd = s.lnd := by
  simp [bankSwitched, pfcUpdate, macAdvance]

theorem bankSwitched_queue (p : Nat) (s : State) : (bankSwitched p s).sch.queue = s.sch.queue := by
  simp [bankSwitched, pfcUpdate, macAdvance]

theorem bankSwitched_bank (p : Nat) (s : State) : (bankSwitched p s).sch.bank = s.sch.bank := by
  simp [bankSwitched, pfcUpdate, macAdvance]

theorem bankSwitched_active (p : Nat) (s : State) :
    (bankSwitched p s).sch.active = tput false s.sch.active (k1 p) (1 - activeBank s p == 1) := by
  simp [bankSwitched, pfcUpdate, macAdvance]

/-- What a switch of a bank leaves (R326). -/
theorem landGateSwitch_banks (i : Item) (s : State) :
    ((landGateSwitch i s).st.sch.active, (landGateSwitch i s).st.sch.bank) =
      (tput false s.sch.active (k1 i.req.arg1.toNat) (1 - activeBank s i.req.arg1.toNat == 1), s.sch.bank) := by
  obtain ⟨l, b, e⟩ := landGateSwitch_st i s
  rw [e, postTo_sch, dropOversize_banks, bankSwitched_active, bankSwitched_bank]

theorem steady_landGateSwitch (i : Item) (s : State) : steady (landGateSwitch i s).st = steady s := by
  obtain ⟨l, b, e⟩ := landGateSwitch_st i s
  rw [e, steady_postTo, steady_dropOversize, steady_bankSwitched]

theorem landGateSwitch_lnd {i : Item} {s : State} (h : ∀ e ∈ s.sch.queue, e.1.1 = i.req.arg1.toNat → e.2 = []) :
    (landGateSwitch i s).st.lnd = s.lnd := by
  obtain ⟨l, b, e⟩ := landGateSwitch_st i s
  rw [e, postTo_lnd, dropOversize_empty (by rwa [bankSwitched_queue]), bankSwitched_lnd]

theorem activeBank_switched {s t : State} {p : Nat}
    (h : t.sch.active = tput false s.sch.active (k1 p) (1 - activeBank s p == 1)) :
    activeBank t p = 1 - activeBank s p ∧ ∀ r, r ≠ p → activeBank t r = activeBank s r := by
  constructor
  · rw [activeBank, h, tget_tput_self, activeBank]
    cases tget false s.sch.active (k1 p) <;> rfl
  · intro r hr
    rw [activeBank, h, tget_tput_ne _ _ _ (by simpa [k1] using hr), activeBank]

/-! ### Freezes and thaws (R445, R447) -/

theorem freezePfc_cut (c : Nat) (s : State) : (freezePfc c s).cut = s.cut :=
  foldS_keeps s State.cut _ (fun p t => pfcTo_cut t false p) _
theorem freezePfc_lnd (c : Nat) (s : State) : (freezePfc c s).lnd = s.lnd :=
  foldS_keeps s State.lnd _ (fun p t => pfcTo_lnd t false p) _
theorem steady_freezePfc (c : Nat) (s : State) : steady (freezePfc c s) = steady s :=
  steady_foldS (fun p t => steady_pfcUpdate p t) _ s

/-- Compartment `c` with its freeze mark set and its `CMP_EMPTY` still to post. -/
def markFrozen (c : Nat) (s : State) : State := modCmp c (fun x => { x with frozen := true, emptyPosted := false }) s
/-- Compartment `c` without its freeze mark. -/
def markThawed (c : Nat) (s : State) : State := modCmp c (fun x => { x with frozen := false }) s

theorem steady_landFreeze {i : Item} {s : State} (h : cmpDefined s i.req.who = true) :
    steady (landFreeze i s).st = steady (markFrozen i.req.who s) := by
  unfold landFreeze
  dsimp only
  rw [if_neg (by simp [h]), cmpState, steady_postTo, steady_freezePfc]
  split
  · exact steady_dropCopies _ _ _ _ _
  · rfl

/-- A freeze of mode 0 discards nothing. -/
theorem landFreeze_keeps {i : Item} {s : State} (h : cmpDefined s i.req.who = true) (hm : i.req.a1 9 8 = 0) :
    (landFreeze i s).st.cut = s.cut ∧ (landFreeze i s).st.lnd = s.lnd := by
  unfold landFreeze
  dsimp only
  rw [if_neg (by simp [h]), if_neg (by simp [hm]), cmpState, postTo_cut, postTo_lnd, freezePfc_cut, freezePfc_lnd]
  exact ⟨rfl, rfl⟩

theorem landThaw_st {i : Item} {s : State} (h : cmpDefined s i.req.who = true) (hf : (cmpOf s i.req.who).frozen = true) :
    ∃ l b, (landThaw i s).st = postTo l 0x0D01 b (freezePfc i.req.who (markThawed i.req.who s)) := by
  unfold landThaw cmpState
  dsimp only
  rw [if_neg (by simp [h, hf])]
  exact ⟨_, _, rfl⟩

theorem steady_landThaw {i : Item} {s : State} (h : cmpDefined s i.req.who = true)
    (hf : (cmpOf s i.req.who).frozen = true) : steady (landThaw i s).st = steady (markThawed i.req.who s) := by
  obtain ⟨l, b, e⟩ := landThaw_st h hf
  rw [e, steady_postTo, steady_freezePfc]

/-- A thaw discards nothing. -/
theorem landThaw_keeps {i : Item} {s : State} (h : cmpDefined s i.req.who = true) (hf : (cmpOf s i.req.who).frozen = true) :
    (landThaw i s).st.cut = s.cut ∧ (landThaw i s).st.lnd = s.lnd := by
  obtain ⟨l, b, e⟩ := landThaw_st h hf
  rw [e, postTo_cut, postTo_lnd, freezePfc_cut, freezePfc_lnd]
  exact ⟨rfl, rfl⟩

theorem cmpOf_congr {s t : State} (h : t.cmp = s.cmp) (c : Nat) : cmpOf t c = cmpOf s c := by
  rw [cmpOf, h, cmpOf]

/-! ### Modes (R503) -/

theorem setMode_md (m : Mode) (cause : Nat) (s : State) :
    (setMode m cause s).md = { s.md with mode := m, since := s.ring, quiesced := !(m == .frozen || m == .staged) } := by
  rw [setMode, modeState, postTo_md]
  exact foldS_keeps _ State.md _ (fun p t => pfcTo_md t false p) _

theorem setMode_downs8 (m : Mode) (cause : Nat) (s : State) : (setMode m cause s).link.downs8 = s.link.downs8 := by
  rw [setMode, modeState, postTo_link]
  exact foldS_keeps _ (fun t => t.link.downs8) _ (fun p t => (steady_iff.mp (steady_pfcUpdate p t)).2.2.2) _

/-- The mode that a MODE_SET of target `n` brings (R503). -/
def targetMode (n : Nat) (s : State) : Mode := if n = 1 then .staged else if n = 2 then forwardMode s else .frozen

theorem landModeSet_refused {i : Item} {s : State} (h : modeFrom s.md.mode i.req.arg1.toNat = false) :
    (landModeSet i s).st = s := by
  simp [landModeSet, h]

/-- A transition out of a mode that holds records. -/
theorem landModeSet_st {i : Item} {s : State} (h : modeFrom s.md.mode i.req.arg1.toNat = true) (hs : s.md.mode ≠ .sealed) :
    (landModeSet i s).st = setMode (targetMode i.req.arg1.toNat s) 0 { s with md := { s.md with upStaged := none } } := by
  unfold landModeSet targetMode
  dsimp only
  rw [if_neg (by simp [h])]
  dsimp only
  rw [if_neg hs]
  split
  · rfl
  · split <;> rfl

/-- A change of mode, with the steps of the ports after it. -/
theorem landModeSet_md {i : Item} {s : State} (hl : s.link.downs8 = []) (hd : s.md.sleepDue = [])
    (h : modeFrom s.md.mode i.req.arg1.toNat = true) (hs : s.md.mode ≠ .sealed) :
    (sleepStep (downStep (landModeSet i s).st)).md.mode = targetMode i.req.arg1.toNat s ∧
      (sleepStep (downStep (landModeSet i s).st)).md.since = s.ring := by
  rw [landModeSet_st h hs, ports_after_effect (by rw [setMode_downs8]; exact hl) (by rw [setMode_md]; exact hd), setMode_md]
  exact ⟨rfl, rfl⟩

/-! ### Flushes (R173) -/

theorem emPost_md (c k : Nat) (b : List Byte) (s : State) : (emPost c k b s).md = s.md := by
  simp [emPost, pairNotice, apply_ite State.md]
theorem emPost_link (c k : Nat) (b : List Byte) (s : State) : (emPost c k b s).link = s.link := by
  simp [emPost, pairNotice, apply_ite State.link]

theorem emFlush_md (p : EmEnt → Bool) (s : State) : (emFlush p s).md = s.md := by
  refine foldS_keeps _ State.md _ (fun e t => ?_) _
  simp only [apply_ite State.md, agedEvent, emPost_md, cnt_md, ite_self]

theorem emFlush_link (p : EmEnt → Bool) (s : State) : (emFlush p s).link = s.link := by
  refine foldS_keeps _ State.link _ (fun e t => ?_) _
  simp only [apply_ite State.link, agedEvent, emPost_link, cnt_link, ite_self]

end Sys2Proof.Machine

namespace Sys2Proof.Proofs
open Machine

section
variable {s : State} {i : Item} (hh : halted s = false) (hb : atBoundary s = true) (hi : s.items = [i])
  (hr : i.rsp = false) (hd : i.due ≤ s.ring)
include hh hb hi hr hd

/-- The row of a single command of opcode `o`, with the steps of the ports after its effect. -/
theorem landing_row {o : Op} (hop : i.op = o)
    (ho : o ∉ [Op.barrier, .cmpDefine, .groupSleep, .firebreakLift, .secyAlloc, .rxScWrite, .saInstall]) :
    exec .commandLanding s = .next (sleepStep (downStep (landItem i { s with items := [] }).st)) :=
  (boundaryRow_at commandLanding hh hb).trans (congrArg Host.Outcome.next (commandLanding_silent hi hr hd (hop ▸ ho)))

section
variable (hl : s.link.downs8 = []) (hs : s.md.sleepDue = [])
include hl hs

/-- Where the effect takes no port down and changes no group's sleep, the row is the effect. -/
theorem landing_effect {o : Op} (hop : i.op = o)
    (ho : o ∉ [Op.barrier, .cmpDefine, .groupSleep, .firebreakLift, .secyAlloc, .rxScWrite, .saInstall]) {t : State}
    (ht : (landItem i { s with items := [] }).st = t) (htl : t.link.downs8 = s.link.downs8) (htm : t.md = s.md) :
    exec .commandLanding s = .next t := by
  rw [landing_row hh hb hi hr hd hop ho, ht, ports_after_effect (htl.trans hl) ((congrArg MdSt.sleepDue htm).trans hs)]

/-- A command that leaves the ports and the modes alone: its effect is read off the definition for its opcode. -/
theorem landing_write {o : Op} (hop : i.op = o)
    (ho : o ∉ [Op.barrier, .cmpDefine, .groupSleep, .firebreakLift, .secyAlloc, .rxScWrite, .saInstall]) {t : State}
    (ht : (landItem { i with op := o } { s with items := [] }).st = t) (htl : t.link.downs8 = s.link.downs8) (htm : t.md = s.md) :
    exec .commandLanding s = .next t := by
  refine landing_effect hh hb hi hr hd hl hs hop ho ?_ htl htm
  subst hop
  exact ht

theorem landing_secyWrite (h : i.op = .secyWrite) (hm : secyMine { s with items := [] } i.req = true) :
    exec .commandLanding s = .next (modSecy (qPort i.req) (qSecy i.req)
      (fun y => { y with rec_ := ownerFields y.rec_ (rec128 i.req.payload) }) { s with items := [] }) :=
  landing_effect hh hb hi hr hd hl hs h (by decide) (by rw [landItem_secyWrite h, landSecyWrite_mine hm])
    (modSecy_downs8 _ _ _ _) (modSecy_md _ _ _ _)

theorem landing_secyWrite_other (h : i.op = .secyWrite) (hm : secyMine { s with items := [] } i.req = false) :
    exec .commandLanding s = .next { s with items := [] } :=
  landing_effect hh hb hi hr hd hl hs h (by decide) (by rw [landItem_secyWrite h, landSecyWrite_other hm]) rfl rfl

theorem landing_gateSwitch (h : i.op = .gateSwitch) : ∃ t, exec .commandLanding s = .next t ∧
    activeBank t i.req.arg1.toNat = 1 - activeBank s i.req.arg1.toNat ∧
    (∀ p, p ≠ i.req.arg1.toNat → activeBank t p = activeBank s p) ∧ t.sch.bank = s.sch.bank ∧
    ((∀ e ∈ s.sch.queue, e.1.1 = i.req.arg1.toNat → e.2 = []) → t.lnd = s.lnd) := by
  have hsame := steady_landGateSwitch i { s with items := [] }
  obtain ⟨-, -, hmd, hdowns⟩ := steady_iff.mp hsame
  obtain ⟨hactive, hbank⟩ := Prod.mk.inj (landGateSwitch_banks i { s with items := [] })
  obtain ⟨hflip, hothers⟩ := activeBank_switched hactive
  exact ⟨_, landing_effect hh hb hi hr hd hl hs h (by decide) (congrArg Ans.st (landItem_gateSwitch h _)) hdowns hmd,
    hflip, hothers, hbank, landGateSwitch_lnd (s := { s with items := [] })⟩

theorem landing_freeze (h : i.op = .freeze) (hdef : cmpDefined s i.req.who = true) : ∃ t, exec .commandLanding s = .next t ∧
    (cmpOf t i.req.who).frozen = true ∧ (cmpOf t i.req.who).rotation = (cmpOf s i.req.who).rotation ∧
    (∀ c, c ≠ i.req.who → cmpOf t c = cmpOf s c) ∧ t.em = s.em ∧ (i.req.a1 9 8 = 0 → t.cut = s.cut ∧ t.lnd = s.lnd) := by
  obtain ⟨hcmp, hem, hmd, hdowns⟩ := steady_iff.mp (steady_landFreeze (i := i) (s := { s with items := [] }) hdef)
  refine ⟨_, landing_effect hh hb hi hr hd hl hs h (by decide) (congrArg Ans.st (landItem_freeze h _)) hdowns hmd,
    ?_, ?_, fun c hc => ?_, hem, landFreeze_keeps (s := { s with items := [] }) hdef⟩
  · rw [cmpOf_congr hcmp, markFrozen, cmpOf_modCmp_self]
  · rw [cmpOf_congr hcmp, markFrozen, cmpOf_modCmp_self]; rfl
  · rw [cmpOf_congr hcmp, markFrozen, cmpOf_modCmp_ne _ _ hc]; rfl

theorem landing_thaw (h : i.op = .thaw) (hdef : cmpDefined s i.req.who = true) (hf : (cmpOf s i.req.who).frozen = true) :
    ∃ t, exec .commandLanding s = .next t ∧ (cmpOf t i.req.who).frozen = false ∧
      (cmpOf t i.req.who).rotation = (cmpOf s i.req.who).rotation ∧ (∀ c, c ≠ i.req.who → cmpOf t c = cmpOf s c) ∧
      t.cut = s.cut ∧ t.em = s.em ∧ t.lnd = s.lnd := by
  obtain ⟨hcmp, hem, hmd, hdowns⟩ := steady_iff.mp (steady_landThaw (i := i) (s := { s with items := [] }) hdef hf)
  obtain ⟨hcut, hlnd⟩ := landThaw_keeps (i := i) (s := { s with items := [] }) hdef hf
  refine ⟨_, landing_effect hh hb hi hr hd hl hs h (by decide) (congrArg Ans.st (landItem_thaw h _)) hdowns hmd,
    ?_, ?_, fun c hc => ?_, hcut, hem, hlnd⟩
  · rw [cmpOf_congr hcmp, markThawed, cmpOf_modCmp_self]
  · rw [cmpOf_congr hcmp, markThawed, cmpOf_modCmp_self]; rfl
  · rw [cmpOf_congr hcmp, markThawed, cmpOf_modCmp_ne _ _ hc]; rfl

/-- The state after a MODE_SET: a transition that its mode has is carried out, another is not. -/
theorem landing_modeSet (h : i.op = .modeSet) : ∃ t, exec .commandLanding s = .next t ∧
    (modeFrom s.md.mode i.req.arg1.toNat = true → s.md.mode ≠ .sealed →
      t.md.mode = targetMode i.req.arg1.toNat s ∧ t.md.since = s.ring) ∧
    (modeFrom s.md.mode i.req.arg1.toNat = false → t = { s with items := [] }) := by
  refine ⟨_, landing_row hh hb hi hr hd h (by decide), ?_⟩
  rw [landItem_modeSet h]
  refine ⟨landModeSet_md (s := { s with items := [] }) hl hs, fun hno => ?_⟩
  rw [landModeSet_refused (s := { s with items := [] }) hno]
  exact ports_after_effect hl hs

theorem landing_groupSleep (h : i.op = .groupSleep) :
    exec .commandLanding s = .next (groupSleepCmd (i.req.a1 3 0) (i.req.arg1.getLsbD 8) 0 { s with items := [] }) := by
  refine (boundaryRow_at commandLanding hh hb).trans (congrArg Host.Outcome.next ?_)
  rw [commandLanding_after_ports (dueItems_alone hi (by simp [h]) hd) (.inl h) hl hs, landOne_alone hi, landedAlone,
    if_neg (by simp [hr]), landAns_of_silent hr (by simp [h]), landItem, h]
  rfl

end

end

/-- Settles O45: the row of a single command is its effect, and each effect is read off its definition; what the switch of a bank,
a freeze, a thaw and a change of mode do not touch follows from what discards, PFC and events leave as it was. -/
theorem landingEffects : Obligations.LandingEffects := by
  intro s i hh hb hi hr hd hl hs v q
  have write {o : Op} := landing_write hh hb hi hr hd hl hs (o := o)
  refine ⟨fun h => write h (by decide) rfl rfl rfl, fun h => write h (by decide) rfl rfl rfl,
    fun h => write h (by decide) rfl rfl rfl, fun h => write h (by decide) rfl rfl rfl,
    fun h => write h (by decide) rfl rfl rfl, fun h => write h (by decide) rfl rfl rfl,
    fun h => write h (by decide) rfl rfl rfl, fun h => write h (by decide) rfl rfl rfl,
    landing_secyWrite hh hb hi hr hd hl hs, landing_secyWrite_other hh hb hi hr hd hl hs,
    fun h => write h (by decide) rfl (congrArg LinkSt.downs8 (emFlush_link _ v)) (emFlush_md _ v),
    landing_gateSwitch hh hb hi hr hd hl hs, landing_freeze hh hb hi hr hd hl hs, landing_thaw hh hb hi hr hd hl hs,
    fun h => ?_, landing_groupSleep hh hb hi hr hd hl hs⟩
  obtain ⟨t, ht, hmoves, hstays⟩ := landing_modeSet hh hb hi hr hd hl hs h
  have moves {n : Nat} (hto : q.arg1.toNat = n) (hf : modeFrom s.md.mode n = true) (hsealed : s.md.mode ≠ .sealed) :
      t.md.mode = targetMode n s ∧ t.md.since = s.ring := by
    subst hto
    exact hmoves hf hsealed
  refine ⟨t, ht, fun hto hfrom => moves hto ?_ ?_, fun hto hfrom => moves hto ?_ ?_, fun hto hfrom => moves hto ?_ ?_, hstays⟩
  · rcases hfrom with e | e <;> rw [e] <;> rfl
  · rcases hfrom with e | e <;> rw [e] <;> decide
  · rcases hfrom with e | e <;> rw [e] <;> rfl
  · rcases hfrom with e | e <;> rw [e] <;> decide
  · rcases hfrom with e | e | e <;> rw [e] <;> rfl
  · rcases hfrom with e | e | e <;> rw [e] <;> decide

end Sys2Proof.Proofs

/-! ## Rows of a running module -/

namespace Sys2Proof.Machine

/-- A row that acts on a running module is its operation. -/
theorem row_running {s t u : State} (hh : halted s = false) (h : t = u) : (.next (unlessHalted s t) : Out) = .next u :=
  congrArg Host.Outcome.next ((unlessHalted_running t hh).trans h)

end Sys2Proof.Machine

/-! ## Links (R79, R80, R87, R173) -/

namespace Sys2Proof.Machine

@[simp] theorem clearPauses_ring (p : Nat) (s : State) : (clearPauses p s).ring = s.ring := accPaused_ring s p _
@[simp] theorem clearPauses_ran (p : Nat) (s : State) : (clearPauses p s).ran = s.ran := accPaused_ran s p _

/-! ### The links at the boundary -/

section
variable {s : State} {p : Nat}

theorem portDown_of_up (h : (port s p).up = true) : portDown p s = postPort p 0 (portDownEm p (flushPort p (modPort p
    (fun q => { q with up := false, changed := s.ring, trainFrom := s.ran, downs := q.downs + 1, xoff := 0,
                       verified := false, verifies := 0 }) (clearPauses p s)))) := by
  simp only [portDown, h, if_true, clearPauses_ring, clearPauses_ran]

/-- A port that is down already trains afresh (R79). -/
theorem portDown_of_down (h : (port s p).up = false) :
    portDown p s = modPort p (fun q => { q with trainFrom := s.ran, verified := false, verifies := 0 }) s :=
  if_neg (by simp [h])

theorem mayComeUp_barred
    (h : (port s p).up = true ∨ portSpeed s p = 0 ∨ s.md.mode = .sealed ∨ s.ran < (port s p).trainFrom + fld (port s p).cfg 111 96) :
    mayComeUp s p = false := by
  unfold mayComeUp
  rcases h with h | h | h | h
  · simp [h]
  · simp [h]
  · simp [h]
  · simp [Nat.not_le.mpr h]

theorem portUp_barred (h : mayComeUp s p = false) : portUp p s = s := if_neg (by simp [h])

/-- The links with no cause waiting: where the changes of a boundary begin. -/
def noneFound (s : State) : State := { s with link := { s.link with found := [] } }

/-- The one cause found is what the boundary carries out. -/
theorem linkStep_single {up : Bool} (h : s.link.found = [(p, up)]) :
    linkStep s = if up then portUp p (noneFound s) else portDown p (noneFound s) := by
  unfold linkStep
  rw [h]
  cases up <;> rfl

/-! ### Preemption (R87) -/

/-- The port is up, and preempts with verification. -/
def verifying (s : State) (p : Nat) : Prop :=
  (port s p).up = true ∧ bit (port s p).cfg 14 = true ∧ bit (port s p).cfg 15 = true

theorem preemptVerify_due (hp : verifying s p) (hv : (port s p).verified = false)
    (hd : (port s p).verifies = 0 ∨ (port s p).lastVerify + 10000 ≤ s.ran) : preemptVerify p s =
      if (port s p).verifies < 3 then modPort p (fun q => { q with verifies := q.verifies + 1, lastVerify := s.ran }) s
      else if (port s p).verifies = 3 then
        post 0 0x0202 (packLE [(8, s.ring), (1, p)]) (modPort p (fun q => { q with verifies := 4 }) s)
      else s := by
  obtain ⟨hup, hpre, hver⟩ := hp
  exact if_pos (by simp [hup, hpre, hver, hv, hd])

/-- Nothing is sent on a verified port, nor within 10 ms of the verify mPacket before. -/
theorem preemptVerify_idle
    (h : (port s p).verified = true ∨ ((port s p).verifies ≠ 0 ∧ s.ran < (port s p).lastVerify + 10000)) :
    preemptVerify p s = s := by
  refine if_neg ?_
  rcases h with h | ⟨hv, ht⟩
  · simp [h]
  · simp [hv, Nat.not_le.mpr ht]

theorem preemptRespond_answers (hp : verifying s p) (hv : 0 < (port s p).verifies) :
    preemptRespond p s = modPort p (fun q => { q with verified := true }) s := by
  obtain ⟨hup, hpre, hver⟩ := hp
  exact if_pos (by simp [hup, hpre, hver, hv])

end

end Sys2Proof.Machine

namespace Sys2Proof.Proofs
open Machine

/-- Settles O29: the boundary carries out the one cause found, by the equation of a port that goes down or comes up; preemption by
the condition of its operation. -/
theorem links : Obligations.Links := by
  intro s p hh r u
  refine ⟨row_running hh rfl, row_running hh rfl, fun hup hf => ?_, fun hdown hf => ?_, fun hmay hf => ?_, fun hbar hf => ?_,
    fun hup hpre hver hv => ⟨fun hn hd => ?_, fun hn ht => ?_, fun hn hd => ?_⟩, fun hup hpre hver hn => ?_, fun hv => ?_⟩
  · exact (linkStep_single hf).trans (portDown_of_up (s := u) hup)
  · exact (linkStep_single hf).trans (portDown_of_down (s := u) hdown)
  · exact (linkStep_single hf).trans (if_pos hmay)
  · exact (linkStep_single hf).trans (portUp_barred (s := u) (mayComeUp_barred hbar))
  · exact row_running hh ((preemptVerify_due ⟨hup, hpre, hver⟩ hv hd).trans (if_pos hn))
  · exact row_running hh (preemptVerify_idle (.inr ⟨hn, ht⟩))
  · refine row_running hh ((preemptVerify_due ⟨hup, hpre, hver⟩ hv (.inr hd)).trans ?_)
    rw [if_neg (hn.symm ▸ Nat.lt_irrefl 3), if_pos hn]
  · exact row_running hh (preemptRespond_answers ⟨hup, hpre, hver⟩ hn)
  · exact row_running hh (preemptVerify_idle (.inl hv))

end Sys2Proof.Proofs

/-! ## PFC (R83, R84) -/

namespace Sys2Proof.Machine

/-! ### What counts and idle spans leave as it was (R339, R527) -/

/-- `t` is `s` but for the scheduler and the counters. -/
def SchedOnly (s t : State) : Prop := ∃ x y, t = { s with sch := x, ctr := y }

/-- `t` is `s` but for the counters and the clocks up to which paused clocks are counted. -/
def CountsOnly (s t : State) : Prop := ∃ x y, t = { s with link := { s.link with pauseAcc := x }, ctr := y }

theorem guardTick_schedOnly (p : Nat) (s : State) : SchedOnly s (guardTick p s) := by
  have hmark : SchedOnly s (markShaped p (nowClk s) s) := by
    refine foldS_induct (P := SchedOnly s) ?_ _ ⟨_, _, rfl⟩
    rintro _ _ ⟨_, _, rfl⟩
    exact ⟨_, _, rfl⟩
  obtain ⟨x, y, hmark⟩ := hmark
  rw [guardTick, hmark, guardAt, guardEnd]
  split
  · split <;> exact ⟨_, _, rfl⟩
  · split <;> exact ⟨_, _, rfl⟩

theorem countPause_schedOnly (p c : Nat) (s : State) : SchedOnly s (countPause p c s) := by
  unfold countPause
  split <;> exact ⟨_, _, rfl⟩

theorem CountsOnly.cnt {s t : State} (h : CountsOnly s t) (c : Ctr) (i j n : Nat) : CountsOnly s (cnt c i j n t) := by
  obtain ⟨_, _, rfl⟩ := h
  exact ⟨_, _, rfl⟩

theorem progEvt_ctr_alone (u k c q n : Nat) (s : State) : ∃ y, progEvt u k c q n s = { s with ctr := y } := by
  unfold progEvt
  dsimp only
  split <;> exact ⟨_, rfl⟩

/-- The clocks paused are a fold of counted events, and then the clock up to which they are counted. -/
theorem accPaused_fold (p n : Nat) (s : State) : ∃ (l : List (Nat × Nat)) (f : Nat × Nat → State → State) (x : Tab Nat),
    (∀ a t, ∃ y, f a t = { t with ctr := y }) ∧
    accPaused p n s = { foldS l f s with link := { (foldS l f s).link with pauseAcc := x } } := by
  refine ⟨_, _, _, ?_, rfl⟩
  exact fun a t => progEvt_ctr_alone _ _ _ _ _ t

theorem CountsOnly.accPaused {s t : State} (h : CountsOnly s t) (p n : Nat) : CountsOnly s (accPaused p n t) := by
  obtain ⟨l, f, x, hf, heq⟩ := accPaused_fold p n t
  have hstep (a : Nat × Nat) (u : State) (hu : CountsOnly s u) : CountsOnly s (f a u) := by
    obtain ⟨_, _, rfl⟩ := hu
    obtain ⟨_, hfa⟩ := hf a _
    rw [hfa]
    exact ⟨_, _, rfl⟩
  obtain ⟨_, _, hfold⟩ := foldS_induct hstep l h
  rw [heq, hfold]
  exact ⟨_, _, rfl⟩

section
variable {s : State} {p c : Nat}

/-! ### The end of one class's pause -/

/-- The end of the pause of class `c` of port `p` is set (R84). -/
def setPause (p c e : Nat) (s : State) : State :=
  { s with link := { s.link with pause := tput 0 s.link.pause (k2 p c) e } }

theorem pauseEnd_setPause_self (e : Nat) : pauseEnd (setPause p c e s) p c = e := tget_tput_self _ _ _ _

theorem pauseEnd_setPause_ne {q d : Nat} (e : Nat) (h : q ≠ p ∨ d ≠ c) :
    pauseEnd (setPause p c e s) q d = pauseEnd s q d :=
  tget_tput_ne _ _ _ (by simp; omega)

/-- The end of the pause that a time of `q` quanta begins now; a time of 0 leaves none (R84). -/
def pauseUntil (s : State) (p q : Nat) : Nat := if q = 0 then 0 else nowClk s + pauseClocks s p q

/-- A time field sets the end of its class's pause, and what is counted of it is the scheduler's. -/
theorem pauseOne_sets (timers : List (BitVec 16)) :
    SchedOnly (setPause p c (pauseUntil s p (timers.getD c 0).toNat) s) (pauseOne p timers c s) := by
  by_cases h : (timers.getD c 0).toNat = 0
  · simp only [pauseOne, pauseUntil, h, if_true]
    exact ⟨_, _, rfl⟩
  · simp only [pauseOne, pauseUntil, h, if_false]
    exact countPause_schedOnly _ _ _

/-- A pause whose clock has come ends (R84). -/
theorem pauseExpire_due (h : pauseEnd s p c ≠ 0) (hd : pauseEnd s p c ≤ nowClk s) :
    pauseExpire p c s = setPause p c 0 (accPaused p (nowClk s) s) := if_pos ⟨h, hd⟩

theorem pauseExpire_early (h : nowClk s < pauseEnd s p c) : pauseExpire p c s = s :=
  if_neg fun ⟨_, hd⟩ => Nat.not_le.mpr h hd

/-! ### A received PFC frame (R84, R85) -/

/-- The classes that a frame's class-enable vector names. -/
def pfcNamed (cev : BitVec 8) : List Nat := (List.range 8).filter (fun c => cev.getLsbD c)

/-- A received frame is counted, with the clocks paused until now and with the gated classes that it names. -/
def pfcCounted (p : Nat) (cev : BitVec 8) (s : State) : State :=
  let u := accPaused p (nowClk s) (cnt .rxPfc p 0 1 s)
  if (pfcNamed cev).any (gated u p) then cnt .rxPfcGated p 0 1 u else u

theorem pfcCounted_countsOnly (p : Nat) (cev : BitVec 8) (s : State) : CountsOnly s (pfcCounted p cev s) := by
  have hrx : CountsOnly s (cnt .rxPfc p 0 1 s) := ⟨_, _, rfl⟩
  have hacc := hrx.accPaused p (nowClk s)
  unfold pfcCounted
  dsimp only
  split
  · exact hacc.cnt _ _ _ _
  · exact hacc

theorem pfcReceive_of_down {cev : BitVec 8} {timers : List (BitVec 16)} (h : (port s p).up = false) :
    pfcReceive p cev timers s = s := if_pos (by simp [h])

theorem pfcReceive_of_up {cev : BitVec 8} {timers : List (BitVec 16)} (h : (port s p).up = true) :
    pfcReceive p cev timers s = foldS ((pfcNamed cev).filter (fun c =>
      (fld (port s p).cfg 31 24).testBit c && !gated (pfcCounted p cev s) p c)) (pauseOne p timers) (pfcCounted p cev s) :=
  if_neg (by simp [h])

/-- A frame that names one class of `PFC_RX`, which is not gated, pauses it. -/
theorem pfcReceive_one {c : Fin 8} (timers : List (BitVec 16)) (hup : (port s p).up = true)
    (hrx : (fld (port s p).cfg 31 24).testBit c = true) (hg : gated s p c = false) :
    pfcReceive p (1#8 <<< c.val) timers s = pauseOne p timers c (pfcCounted p (1#8 <<< c.val) s) := by
  have hnamed : ∀ c : Fin 8, pfcNamed (1#8 <<< c.val) = [c.val] := by decide
  have hg' : gated (pfcCounted p (1#8 <<< c.val) s) p c = false := by
    obtain ⟨_, _, h⟩ := pfcCounted_countsOnly p (1#8 <<< c.val) s
    rw [h]
    exact hg
  rw [pfcReceive_of_up hup, hnamed, List.filter_cons_of_pos (by simp [hrx, hg'])]
  rfl

/-- A port whose `PFC_RX` names no class only counts a frame. -/
theorem pfcReceive_none {cev : BitVec 8} {timers : List (BitVec 16)} (hup : (port s p).up = true)
    (hrx : fld (port s p).cfg 31 24 = 0) : pfcReceive p cev timers s = pfcCounted p cev s := by
  rw [pfcReceive_of_up hup, List.filter_eq_nil_iff.mpr (by simp [hrx])]
  rfl

/-- XOFF is sent again, and the next repetition is counted from here (R83). -/
theorem pfcRefresh_due (hup : (port s p).up = true) (hx : (port s p).xoff ≠ 0)
    (hd : (port s p).xoffRing + fld (port s p).cfg 95 80 ≤ s.ran) : pfcRefresh p s = pfcXoff p (port s p).xoff s :=
  if_pos (by simp [hup, hx, hd])

end

end Sys2Proof.Machine

namespace Sys2Proof.Proofs
open Machine

/-- Settles O30: the frame sets the end of its class's pause and nothing else of the links, and what is counted on the way changes
neither. -/
theorem pauses : Obligations.Pauses := by
  intro s p clk cev timers c hh u
  refine ⟨fun _ hup hrx hg hcev => ?_, fun hup hrx => ?_, fun hdown => ?_, fun hne hd => ?_, fun hearly => ?_,
    fun hup hx hd => ?_⟩
  · subst hcev
    obtain ⟨a, b, hcount⟩ := pfcCounted_countsOnly p (1#8 <<< c.val) u
    obtain ⟨x, y, hone⟩ := pauseOne_sets (s := pfcCounted p (1#8 <<< c.val) u) (p := p) (c := c) timers
    obtain ⟨z, w, hguard⟩ := guardTick_schedOnly p (pfcReceive p (1#8 <<< c.val) timers u)
    refine ⟨_, row_running hh hguard, ?_⟩
    rw [pfcReceive_one (s := u) timers hup hrx hg, hone, hcount]
    exact ⟨pauseEnd_setPause_self (s := u) _, fun d hd => pauseEnd_setPause_ne (s := u) _ (.inr hd), rfl, rfl⟩
  · obtain ⟨a, b, hcount⟩ := pfcCounted_countsOnly p cev u
    obtain ⟨z, w, hguard⟩ := guardTick_schedOnly p (pfcReceive p cev timers u)
    refine ⟨_, row_running hh hguard, ?_⟩
    rw [pfcReceive_none (s := u) hup hrx, hcount]
    exact ⟨rfl, rfl⟩
  · exact row_running hh (congrArg (guardTick p) (pfcReceive_of_down (s := u) hdown))
  · obtain ⟨a, b, hcount⟩ := CountsOnly.accPaused ⟨_, _, rfl⟩ p (nowClk u) (s := u) (t := u)
    obtain ⟨z, w, hguard⟩ := guardTick_schedOnly p (pauseExpire p c u)
    refine ⟨_, row_running hh hguard, ?_⟩
    rw [pauseExpire_due (s := u) hne hd, hcount]
    exact ⟨pauseEnd_setPause_self (s := u) _, fun q d h => pauseEnd_setPause_ne (s := u) _ h, rfl⟩
  · exact row_running hh (congrArg (guardTick p) (pauseExpire_early (s := u) hearly))
  · exact row_running hh (pfcRefresh_due hup hx hd)

end Sys2Proof.Proofs

/-! ## Cages while the rails are held (R94, R561) -/

namespace Sys2Proof.Machine

/-- Once the rails are to fall, every optic is in low power (R561). -/
theorem cagePowerAt_falling {s : State} (h : s.pwr.fallAt.isSome = true) (c : Nat) (temp : Int) (g : Cage) :
    (cagePowerAt s c temp g).highPower = false := by
  rw [cagePowerAt, if_pos (by simp [h])]

theorem opticInsert_falling {s : State} {c : Nat} (h : s.pwr.fallAt.isSome = true) (hc : cagePresent s.variant c = true)
    (id : Option (List Byte)) (cls mw : Nat) (temp low : Int) :
    (cageOf (opticInsert c id cls mw temp low s) c).highPower = false := by
  have hset (g : Cage) : (cageOf (modCage c (fun _ => cagePowerAt s c temp g) s) c).highPower = false := by
    rw [cageOf_modCage_self, cagePowerAt_falling h]
  rw [opticInsert, if_neg (by simp [hc])]
  dsimp only
  split
  · rw [cageOf, post_link]
    exact hset _
  · exact hset _

/-- The module of the factory after a power failure: its rails fall 2,000 rings later. -/
def railsHeld : State := powerFail State.reset

end Sys2Proof.Machine

namespace Sys2Proof.Proofs
open Machine

/-- Refutes O31: between a power failure and the fall of the rails every optic is held in low power (R561), so an optic that is then
inserted within its cage's limit and warm enough stays in low power; the statement's first clause, which does not ask whether the rails
are to fall, has it in high power. The counterexample is `railsHeld`, one POWER_FAIL after reset. -/
theorem not_cages : ¬ Obligations.Cages := by
  intro h
  obtain ⟨hinsert, -⟩ := h railsHeld 0 (by decide)
  have hrow := hinsert [0] 0 0 0 0 (by decide) (by decide) (by decide) (by decide)
  have hstate := Host.Outcome.next.inj ((row_running (by decide) rfl).symm.trans hrow)
  have hlow := opticInsert_falling (s := railsHeld) (c := (0 : Fin 53)) (by decide) (by decide) (some [0]) (0 : Fin 8) 0 0 0
  rw [hstate, cageOf_modCage_self] at hlow
  exact absurd hlow (by decide)

end Sys2Proof.Proofs

/-! ## The pair link (R79, R540, R541, R544, R545) -/

namespace Sys2Proof.Machine

section
variable {s : State}

/-! ### HELLO (R541) -/

theorem pairUp_of_up (h : s.pair.linkUp = true) : pairUp s = s := if_pos h

theorem pairHello_silent {nonce id : Nat} (h : pairMayRun s = false) : pairHello nonce id s = s := if_pos (by simp [h])

theorem pairHello_on_link {nonce id : Nat} (hm : pairMayRun s = true) (hu : s.pair.linkUp = true) : pairHello nonce id s =
    if pairEn s && id != s.pair.peerId then cnt .pairMsgReject 0 0 1 s
    else { s with pair := { s.pair with hello := some (id, nonce), rxSeq := 0 } } := by
  rw [pairHello, if_neg (by simp [hm]), pairUp_of_up hu]

theorem pairHello_peer {nonce id : Nat} (hm : pairMayRun s = true) (hu : s.pair.linkUp = true)
    (hid : pairEn s = true → id = s.pair.peerId) :
    pairHello nonce id s = { s with pair := { s.pair with hello := some (id, nonce), rxSeq := 0 } } :=
  (pairHello_on_link hm hu).trans (if_neg (by simpa using hid))

theorem pairHello_stranger {nonce id : Nat} (hm : pairMayRun s = true) (hu : s.pair.linkUp = true)
    (hen : pairEn s = true) (hid : id ≠ s.pair.peerId) : pairHello nonce id s = cnt .pairMsgReject 0 0 1 s :=
  (pairHello_on_link hm hu).trans (if_pos (by simp [hen, hid]))

/-! ### Heartbeats that go out (R544) -/

theorem hbSend_due {time : Nat} (hk : pairKeyed s = true) (hr : s.ring % 1000 = 0) (hran : s.pair.hbRan ≠ s.ran + 1) :
    hbSend time s =
      let t := pairSend 2 (hbBody s) (cnt .pairHbTx 0 0 1 s)
      { t with pair := { t.pair with txLog := ((s.pair.txSeq, hbTime t true time) :: t.pair.txLog).take 64, hbRan := t.ran + 1 } } :=
  if_pos (by simp [hk, hr, hran])

theorem hbSend_idle {time : Nat} (h : pairKeyed s = false ∨ s.ring % 1000 ≠ 0 ∨ s.pair.hbRan = s.ran + 1) :
    hbSend time s = s := by
  refine if_neg ?_
  rcases h with h | h | h <;> simp [h]

/-! ### Messages of the peer (R540) -/

theorem pairTake_link_down {seq : Nat} {ok : Bool} {f : State → State} (h : s.pair.linkUp = false) : pairTake seq ok f s = s :=
  if_pos (by simp [h])

theorem pairTake_discarded {seq : Nat} {ok : Bool} {f : State → State} (hu : s.pair.linkUp = true)
    (h : pairKeyed s = false ∨ ok = false ∨ seq ≤ s.pair.rxSeq) : pairTake seq ok f s = cnt .pairMsgReject 0 0 1 s := by
  rw [pairTake, if_neg (by simp [hu])]
  refine if_neg ?_
  rcases h with h | h | h
  · simp [h]
  · simp [h]
  · simp [Nat.not_lt.mpr h]

theorem pairTake_accepted {seq : Nat} {f : State → State} (hu : s.pair.linkUp = true) (hk : pairKeyed s = true)
    (hs : s.pair.rxSeq < seq) : pairTake seq true f s = f { s with pair := { s.pair with rxSeq := seq } } := by
  rw [pairTake, if_neg (by simp [hu]), if_pos (by simp [hk, hs])]

/-! ### Heartbeats that are accepted (R544, R545) -/

@[simp] theorem pairState_pair (old : Bool) (cause : Nat) (s : State) : (pairState old cause s).pair = s.pair := postTo_pair _ _ _ _

theorem hbTake_pair (seq : Nat) (body : List Byte) (time : Nat) (s : State) : (hbTake seq body time s).pair =
    { s.pair with offset := (gridOffset s body).getD s.pair.offset, peer := body, tRx := hbTime s false time, rxHbSeq := seq,
                  lastHb := s.ran, lastHbRing := s.ring, live := true } := by
  unfold hbTake
  dsimp only
  split
  · rfl
  · exact pairState_pair _ _ _

/-- The grid offset of a heartbeat that names one of ours and follows the last. -/
theorem gridOffset_named {body : List Byte} {k ta : Nat}
    (hf : s.pair.txLog.find? (fun e => e.1 == leAt body 32 8) = some (k, ta)) (hp : s.pair.peer ≠ [])
    (hn : hbAt s 0 8 + 1000 = leAt body 0 8) : gridOffset s body =
      some ((((leAt body 24 8 : Int) - ta) - ((s.pair.tRx : Int) - leAt body 16 8)) / 2) := by
  rw [gridOffset, hf]
  exact if_pos ⟨hp, hn⟩

/-- The first heartbeat of a peer gives no grid offset. -/
theorem gridOffset_first {body : List Byte} (hp : s.pair.peer = []) : gridOffset s body = none := by
  unfold gridOffset
  split
  · exact if_neg (by simp [hp])
  · rfl

/-! ### The loss of the peer and of the link (R79, R539, R544) -/

theorem hbLoss_due (hb : atBoundary s = true) (hl : s.pair.live = true) (hd : s.pair.lastHb + 10000 ≤ s.ran) :
    hbLoss false s = hbLost s :=
  (if_neg Bool.false_ne_true).trans (if_pos (by simp [hb, hl, hd]))

theorem hbLoss_early (h : s.ran < s.pair.lastHb + 10000 ∨ atBoundary s = false) : hbLoss false s = s := by
  refine (if_neg Bool.false_ne_true).trans (if_neg ?_)
  rcases h with h | h
  · simp [Nat.not_le.mpr h]
  · simp [h]

theorem pairCancel_pair (s : State) : (pairCancel s).pair = { s.pair with pend := none } := by
  unfold pairCancel
  split
  next h => exact pairState_pair _ _ _
  next h => rw [← Option.not_isSome_iff_eq_none.mp h]

/-- The loss of the peer leaves it not live and no switchover pending (R544, R548). -/
theorem hbLost_pair (s : State) : ∃ x, (hbLost s).pair = { s.pair with live := false, pend := x } := by
  unfold hbLost
  split
  next h => exact ⟨none, by rw [pairCancel_pair, pairState_pair]; rfl⟩
  next h => exact ⟨s.pair.pend, by rw [← Bool.eq_false_of_not_eq_true h]⟩

theorem pairKeyed_link_down (h : s.pair.linkUp = false) : pairKeyed s = false := by simp [pairKeyed, h]

theorem pairStep_idle (h : s.pair.downDue = false) : pairStep s = s := if_neg (by simp [h])

theorem pairStep_down (h : s.pair.downDue = true) : ∃ x, (pairStep s).pair =
    { s.pair with linkUp := false, downDue := false, sentHello := false, hello := none, live := false, pend := x } := by
  rw [pairStep, if_pos h]
  exact hbLost_pair _

end

end Sys2Proof.Machine

namespace Sys2Proof.Proofs
open Machine

/-- Settles O40: each message by the equation of its operation; what a heartbeat and a lost link leave of the pair is read off its
record, since the events that they post change nothing of it. -/
theorem pairLink : Obligations.PairLink := by
  intro s hh
  refine ⟨fun nonce id hm hu hid => row_running hh (pairHello_peer hm hu hid),
    fun nonce id hm hu hen hid => row_running hh (pairHello_stranger hm hu hen hid),
    fun nonce id hm => row_running hh (pairHello_silent hm), fun time hk hr hran => ?_,
    fun time h => row_running hh (hbSend_idle h), fun seq ok body time hu h => row_running hh (pairTake_discarded hu h),
    fun seq ok body time hu => row_running hh (pairTake_link_down hu), fun seq body time hu hk hs => ?_,
    fun hb hl hd => row_running hh (hbLoss_due hb hl hd), fun h => row_running hh (hbLoss_early h),
    row_running hh rfl, pairStep_idle, fun hdue => ?_⟩
  · exact ⟨_, row_running hh (hbSend_due hk hr hran), rfl, rfl, rfl, rfl, rfl, ctrGet_cnt_self _ _ _ _ _ (by decide), rfl⟩
  · have hpair := hbTake_pair seq.toNat body time { s with pair := { s.pair with rxSeq := seq.toNat } }
    refine ⟨_, row_running hh (pairTake_accepted hu hk hs), ?_⟩
    rw [hpair]
    refine ⟨rfl, rfl, rfl, rfl, rfl, rfl, rfl, rfl, fun k ta hf hp hn => ?_, fun hp => ?_⟩
    · exact congrArg (Option.getD · _) (gridOffset_named (s := { s with pair := { s.pair with rxSeq := seq.toNat } }) hf hp hn)
    · exact congrArg (Option.getD · _) (gridOffset_first (s := { s with pair := { s.pair with rxSeq := seq.toNat } }) hp)
  · obtain ⟨x, hdown⟩ := pairStep_down hdue
    have hlink : (pairStep s).pair.linkUp = false := by rw [hdown]
    refine ⟨hlink, ?_, pairKeyed_link_down hlink, ?_, ?_⟩ <;> rw [hdown]

end Sys2Proof.Proofs

/-! ## Cuts retired, the grove's writes and scrub, empty compartments (R152, R209, R211, R446) -/

namespace Sys2Proof.Machine

section
variable {s : State} {c : Nat}

/-! ### Retirement (R152) -/

theorem cutRetire_of_find {h : Nat} {x : Cut} (hf : s.cut.cuts.find? (fun x => x.cid == c && x.handle == h) = some x) :
    cutRetire c h s = if retirable s x then retireCut x s else s := by simp only [cutRetire, hf]

theorem cutRetire_of_find_none {h : Nat} (hf : s.cut.cuts.find? (fun x => x.cid == c && x.handle == h) = none) :
    cutRetire c h s = s := by simp only [cutRetire, hf]

theorem handle_of_find {h : Nat} {l : List Cut} {x : Cut} (hf : l.find? (fun x => x.cid == c && x.handle == h) = some x) :
    x.handle = h := by
  have hnamed := List.find?_some (p := fun x : Cut => x.cid == c && x.handle == h) hf
  exact beq_iff_eq.mp (Bool.and_eq_true_iff.mp hnamed).2

/-- The state without the cuts of a handle. -/
def withoutHandle (h : Nat) (s : State) : State :=
  { s with cut := { s.cut with cuts := s.cut.cuts.filter (fun y => y.handle != h) } }

/-- The sweep of the grove changes the grove alone. -/
theorem grvSweep_only_grv (c : Nat) (s : State) : ∃ g, grvSweep c s = { s with grv := g } := by
  unfold grvSweep
  split
  next => exact ⟨_, rfl⟩
  next => exact ⟨_, rfl⟩

/-- A retirement takes the cut away, sweeps the exact-match table and the grove, and posts CUT_RETIRED (R152). -/
theorem retireCut_eq (x : Cut) (s : State) : ∃ g, retireCut x s =
    post x.cid 0x0502 (packLE [(8, s.ring), (4, x.number)]) { emSweep (withoutHandle x.handle s) with grv := g } := by
  obtain ⟨g, hg⟩ := grvSweep_only_grv x.cid (trieSweep (emSweep (withoutHandle x.handle s)))
  exact ⟨g, congrArg (post x.cid 0x0502 (packLE [(8, s.ring), (4, x.number)])) hg⟩

theorem learned_mem_emSweep {e : EmEnt} (he : e ∈ s.em.ents) (hl : e.learned = true) : e ∈ (emSweep s).em.ents :=
  List.mem_filter.mpr ⟨he, by simp [hl]⟩

/-! ### The grove (R209, R211) -/

theorem groveMove_nil {bad : List (Fin 5 × Nat × Fin 3)} (h : s.grv.jobs = []) : groveMove bad s = s := by
  simp only [groveMove, h]

theorem groveMove_cons {bad : List (Fin 5 × Nat × Fin 3)} {j : GrvJob} {r : List GrvJob} (h : s.grv.jobs = j :: r) :
    groveMove bad s = grvFinish bad j { s with grv := { s.grv with jobs := r } } := by
  simp only [groveMove, h]

/-- The scrub reads nothing of a die that is absent or fenced. -/
theorem groveScrub_unread {a i : Nat} {w : Fin 3} (ha : a < 4)
    (h : grovePresent s.variant a = false ∨ isFenced s (uGrove a) = true) : groveScrub a i (some w) s = s :=
  if_pos ⟨ha, by rcases h with h | h <;> simp [h]⟩

theorem groveScrub_read {a i : Nat} {w : Fin 3} (h : a < 4 → grovePresent s.variant a = true ∧ isFenced s (uGrove a) = false) :
    groveScrub a i (some w) s = grvFail a i w.val 1 s := by
  refine if_neg fun ⟨ha, hout⟩ => ?_
  obtain ⟨hpresent, hopen⟩ := h ha
  simp [hpresent, hopen] at hout

/-! ### Empty compartments (R446) -/

theorem cmpEmpty_due (hd : (cmpOf s c).defined = true) (hf : (cmpOf s c).frozen = true) (hp : (cmpOf s c).emptyPosted = false)
    (he : isEmpty s c = true) :
    cmpEmpty c s = cmpState c kEmpty (rotNow s c) 0 0 0 (modCmp c (fun y => { y with emptyPosted := true }) s) :=
  if_pos (by simp [hd, hf, hp, he])

theorem cmpEmpty_idle (h : ¬ ((cmpOf s c).defined = true ∧ (cmpOf s c).frozen = true ∧ (cmpOf s c).emptyPosted = false ∧
    isEmpty s c = true)) : cmpEmpty c s = s :=
  if_neg (by simpa [and_assoc] using h)

end

end Sys2Proof.Machine

namespace Sys2Proof.Proofs
open Machine

/-- Settles O60: each row by the equation of its operation; what a retirement leaves is read off `retireCut_eq`, since the event
that it posts changes none of the parts named. -/
theorem retireMoveEmpty : Obligations.RetireMoveEmpty := by
  intro s c h a i hh
  refine ⟨fun hout => ?_, fun x hf hr => boundaryRow_idle hh fun _ => (cutRetire_of_find hf).trans (if_neg (by simp [hr])),
    fun x hb hf hr => ?_, row_running hh rfl, fun hj bad => row_running hh (groveMove_nil hj),
    fun j r hj bad => row_running hh (groveMove_cons hj), row_running hh rfl,
    fun w ha hout => row_running hh (groveScrub_unread ha hout),
    fun w hin => row_running hh (groveScrub_read hin), ⟨?_, fun hnot => ?_⟩⟩
  · rcases hout with hf | hb
    · exact boundaryRow_idle hh fun _ => cutRetire_of_find_none hf
    · exact boundaryRow_off _ hb
  · have hhandle := handle_of_find hf
    obtain ⟨g, hg⟩ := retireCut_eq x s
    refine ⟨_, (boundaryRow_at _ hh hb).trans (congrArg Host.Outcome.next
      ((cutRetire_of_find hf).trans ((if_pos hr).trans hg))), ?_⟩
    rw [post_cut, post_cmp, post_lnd, post_em, hhandle]
    exact ⟨rfl, rfl, rfl, rfl, fun e he hl => learned_mem_emSweep (s := withoutHandle h.val s) he hl⟩
  · rintro ⟨hb, hd, hf, hp, he⟩
    exact (boundaryRow_at _ hh hb).trans (congrArg Host.Outcome.next (cmpEmpty_due hd hf hp he))
  · exact boundaryRow_idle hh fun hb => cmpEmpty_idle fun hdue => hnot ⟨hb, hdue⟩

end Sys2Proof.Proofs

/-! ## What a Laent command that passes its checks does in ring v (R209, R400, R416) -/

namespace Sys2Proof.Machine

theorem lopOf_op (o : Op) (x : Extra) : (lopOf o x).op = o := by cases o <;> rfl

/-- Every opcode without an order of its own is carried out by the common machinery, in the state in which it is checked. -/
theorem exec_opInstr {o : Op} (h : commonOp o = true) (q : Req) (x : Extra) (s : State) :
    exec (opInstr o q x) s = .next (runOp (lopOf o x) q (checkState o q s)) := by
  cases o
  case barrier | grvWrite | tallyRead | secured => exact Bool.noConfusion h
  all_goals rfl

/-- A served STAGE_ABORT finds the grove writes of its compartment carried out (R209). -/
theorem checkState_stageAbort {q : Req} {s : State} (hs : served s q = true) :
    checkState .stageAbort q s = finishJobs q.c s := if_pos (by simp [hs, afterMoves])

section
variable {o : Op} {q : Req} {x : Extra} {s : State}

theorem evalOp_now (hp : passes o q x s) (heff : opEff o = .now ∨ opEff o = .stage)
    (hfit : ((lopOf o x).eval s q).data.length ≤ q.outLen.toNat) :
    evalOp (lopOf o x) q (vOf s q o) s = ((lopOf o x).eval s q, none) := by
  obtain ⟨hadm, hep⟩ := hp
  rcases heff with h | h <;> simp only [evalOp, hadm, hep, lopOf_op, h, Nat.not_lt.mpr hfit, if_false]

theorem evalOp_target (hp : passes o q x s) (heff : opEff o = .target) (hok : ((lopOf o x).now s q).status = .ok) :
    evalOp (lopOf o x) q (vOf s q o) s = ({ (lopOf o x).now s q with status := .accepted, ring := q.t },
      some { due := q.t, v := vOf s q o, op := o, req := q, num := ((lopOf o x).now s q).value,
             blob := ((lopOf o x).now s q).blob }) := by
  obtain ⟨hadm, hep⟩ := hp
  simp only [evalOp, hadm, hep, lopOf_op, heff, hok, if_true, itemOf]

/-- Effect codes "now" and "stage": the effect is made and answered in ring v. -/
theorem runOp_now (hs : served s q = true) (hp : passes o q x s) (heff : opEff o = .now ∨ opEff o = .stage)
    (hfit : ((lopOf o x).eval s q).data.length ≤ q.outLen.toNat) :
    runOp (lopOf o x) q s = answer o q (vOf s q o) s ((lopOf o x).eval s q) := by
  simp only [runOp, hs, if_true, lopOf_op, evalOp_now hp heff hfit]

/-- Effect code T: what acceptance fixes is made, the command waits for its target ring, and ACCEPTED is answered. -/
theorem runOp_target (hs : served s q = true) (hp : passes o q x s) (heff : opEff o = .target)
    (hok : ((lopOf o x).now s q).status = .ok) :
    let a := (lopOf o x).now s q
    runOp (lopOf o x) q s = answer o q (vOf s q o) s
      { a with status := .accepted, ring := q.t,
               st := { a.st with items := a.st.items ++
                 [{ due := q.t, v := vOf s q o, op := o, req := q, num := a.value, blob := a.blob }] } } := by
  simp only [runOp, hs, if_true, lopOf_op, evalOp_target hp heff hok, Bool.false_eq_true, if_false]

/-- The row of an opcode of code "now" that returns no data, which fits every buffer (R420). -/
theorem exec_now_noData (hc : commonOp o = true) (heff : opEff o = .now) (hs : served (checkState o q s) q = true)
    (hp : passes o q x (checkState o q s)) (hdata : ((lopOf o x).eval (checkState o q s) q).data = []) :
    exec (opInstr o q x) s = .next (answer o q (vOf (checkState o q s) q o) (checkState o q s)
      ((lopOf o x).eval (checkState o q s) q)) :=
  (exec_opInstr hc q x s).trans (congrArg Host.Outcome.next (runOp_now hs hp (.inl heff) (by simp [hdata])))

/-- The row of an opcode of code T that acceptance does not turn away. -/
theorem exec_target (hc : commonOp o = true) (heff : opEff o = .target) (hs : served (checkState o q s) q = true)
    (hp : passes o q x (checkState o q s)) (hok : ((lopOf o x).now (checkState o q s) q).status = .ok) :
    let u := checkState o q s
    let a := (lopOf o x).now u q
    exec (opInstr o q x) s = .next (answer o q (vOf u q o) u
      { a with status := .accepted, ring := q.t,
               st := { a.st with items := a.st.items ++
                 [{ due := q.t, v := vOf u q o, op := o, req := q, num := a.value, blob := a.blob }] } }) :=
  (exec_opInstr hc q x s).trans (congrArg Host.Outcome.next (runOp_target hs hp heff hok))

end

end Sys2Proof.Machine

namespace Sys2Proof.Proofs
open Machine

/-- Settles O8: each of the three is an opcode of effect code T, and what it fixes at acceptance is its `now`. -/
theorem commitAndSwitchoverAccepted : Obligations.CommitAndSwitchoverAccepted := by
  refine ⟨fun o q x s ho => ?_, fun q x s hs hp => ?_⟩
  · rcases ho with rfl | rfl <;> exact fun hs hp hok => exec_target rfl rfl hs hp hok
  · exact exec_target (o := .pairSwitchover) rfl rfl hs hp rfl

/-- Settles O11: each is an opcode of effect code "now" that returns no data, and its effect is its `now`. -/
theorem laentNowEffects : Obligations.LaentNowEffects := by
  intro q x s hs
  refine ⟨fun hp => exec_now_noData (o := .cvCfgWrite) rfl rfl hs hp rfl,
    fun hp => exec_now_noData (o := .cvDisarm) rfl rfl hs hp rfl,
    fun hp => exec_now_noData (o := .keyDelete) rfl rfl hs hp rfl,
    fun hp => exec_now_noData (o := .saDelete) rfl rfl hs hp rfl,
    fun hp => exec_now_noData (o := .restart) rfl rfl hs hp rfl,
    fun hp => ⟨_, _, exec_now_noData (o := .stageOpen) rfl rfl hs hp rfl, rfl, rfl, rfl⟩, fun hu hp => ?_⟩
  rw [← checkState_stageAbort hs] at hu hp ⊢
  exact exec_now_noData (o := .stageAbort) rfl rfl hu hp rfl

end Sys2Proof.Proofs

/-! ## Learning, aging, flushes and parity (R165 to R175) -/

namespace Sys2Proof.Machine

section
variable {s : State}

theorem dueRing_stepped (h : s.tim.stepped = true) : dueRing s = 0 := if_pos h

theorem dueRing_running (h : s.tim.stepped = false) : dueRing s = s.ring := if_neg (by simp [h])

/-! ### Counts and events leave the exact-match table, the cuts and the compartments as they were (R176, R549) -/

/-- The parts of the state that a count, an event and a learn notice leave alone, of those that the table's rows speak of. -/
def tableParts (s : State) : EmSt × CutSt × CmpSt := (s.em, s.cut, s.cmp)

theorem tableParts_eq_iff {s t : State} : tableParts t = tableParts s ↔ t.em = s.em ∧ t.cut = s.cut ∧ t.cmp = s.cmp := by
  simp only [tableParts, Prod.mk.injEq]

@[simp] theorem tableParts_cnt (c : Ctr) (i j n : Nat) (s : State) : tableParts (cnt c i j n s) = tableParts s := rfl

@[simp] theorem tableParts_post (c k : Nat) (b : List Byte) (s : State) : tableParts (post c k b s) = tableParts s := by
  simp only [tableParts, post_em, post_cut, post_cmp]

@[simp] theorem tableParts_pairNotice (c k : Nat) (b : List Byte) (s : State) :
    tableParts (pairNotice c k b s) = tableParts s := by
  unfold pairNotice
  repeat' split
  all_goals rfl

@[simp] theorem tableParts_emPost (c k : Nat) (b : List Byte) (s : State) : tableParts (emPost c k b s) = tableParts s :=
  (tableParts_pairNotice _ _ _ _).trans (tableParts_post _ _ _ _)

@[simp] theorem tableParts_agedEvent (e : EmEnt) (ring reason : Nat) (s : State) :
    tableParts (agedEvent e ring reason s) = tableParts s := tableParts_emPost _ _ _ _

@[simp] theorem agedEvent_em (e : EmEnt) (ring reason : Nat) (s : State) : (agedEvent e ring reason s).em = s.em :=
  congrArg Prod.fst (tableParts_agedEvent e ring reason s)

@[simp] theorem tableParts_learnEvent (code : Nat) (e : EmEnt) (port : Nat) (s : State) :
    tableParts (learnEvent code e port s) = tableParts s := by
  unfold learnEvent
  split
  · exact tableParts_emPost _ _ _ _
  · rfl

/-! ### An entry placed in an empty table (R159) -/

/-- Storing an entry adds it to the table; of the rest, only the notes of the places that it takes change. -/
theorem emStore_eq (e : EmEnt) (stash : Bool) (x : Nat × Nat) (s : State) : ∃ notes, emStore e stash x s =
    { s with em := { s.em with ents := s.em.ents ++ [{ e with stash := stash, bank := x.1, index := x.2 }], notes := notes } } := by
  unfold emStore emWritten
  cases stash <;> cases e.wide <;> exact ⟨_, rfl⟩

theorem emFree_of_empty (h : s.em.ents = []) (x : Nat × Nat) : emFree s x = true := by simp [emFree, emAt, h]

/-- In an empty table every candidate slot is free, so an entry is placed in a slot of a bank. -/
theorem emPlace_of_empty (h : s.em.ents = []) (e : EmEnt) : ∃ x, emPlace e s = some (emStore e false x s) := by
  have hfree := emFree_of_empty h
  unfold emPlace
  cases e.wide with
  | true => exact ⟨(0, emIndex e.cid e.table e.key 0), by simp [hfree]⟩
  | false => exact ⟨(0, emIndex e.cid e.table e.key 0), by simp [emCands, hfree, List.range_succ]⟩

/-! ### One request (R166, R168) -/

/-- No learned entry has the key of a request. -/
def keyUnlearned (s : State) (r : LearnReq) : Prop :=
  s.em.ents.find? (fun e => e.learned && e.cid == r.cid && e.table == r.table && e.key == r.key) = none

variable {a : LearnAcc} {r : LearnReq}

theorem learnOne_stale (h : r.rotation ≠ (cmpOf a.st r.cid).rotation) :
    learnOne a r = { a with st := cnt .emLearnStale r.cid 0 1 a.st } := by simp [learnOne, h]

theorem learnOne_static (h : r.rotation = (cmpOf a.st r.cid).rotation) (hs : r.static_ = true) :
    learnOne a r = { a with st := cnt .emLearnStatic r.cid 0 1 a.st } := by simp [learnOne, h, hs]

theorem learnOne_quota (h : r.rotation = (cmpOf a.st r.cid).rotation) (hs : r.static_ = false) (hk : keyUnlearned a.st r)
    (hd : a.done < 512) (hq : (cmpOf a.st r.cid).emQuota ≤ learnedOf a.st r.cid) :
    learnOne a r = { a with st := cnt .emRefQuota r.cid 0 1 a.st, refused := addRefused r.cid 2 r a.refused } := by
  rw [keyUnlearned] at hk
  simp [learnOne, h, hs, hk, hq, Nat.not_le.mpr hd, refusedCtr]

theorem actRing_of_not_stepped (h : s.tim.stepped = false) : actRing s r = max r.ring s.em.floor := if_neg (by simp [h])

/-- The entry that a request asks for, before it has a place. -/
def requestedEnt (s : State) (r : LearnReq) : EmEnt :=
  { uid := s.cut.uid, cid := r.cid, table := r.table, wide := r.wide, learned := true, key := r.key, res := r.res,
    bank := 0, index := 0, stash := false, act := actRing s r, wrote := r.ring }

/-- On an empty table a request within the quota is placed, counted and, where the table calls for it, reported. -/
theorem learnOne_empty (h : r.rotation = (cmpOf a.st r.cid).rotation) (hs : r.static_ = false) (hd : a.done < 512)
    (he : a.st.em.ents = []) (hq : 0 < (cmpOf a.st r.cid).emQuota) : ∃ x e', learnOne a r =
      { a with st := learnEvent 0x0601 e' r.port (cnt .emLearnOk r.cid 0 1
                 (emStore (requestedEnt a.st r) false x (newUid a.st).2)), done := a.done + 1 } := by
  obtain ⟨x, hx⟩ := emPlace_of_empty (s := (newUid a.st).2) he (requestedEnt a.st r)
  simp only [requestedEnt, newUid] at hx
  refine ⟨x, ?posted, ?placed⟩
  case placed =>
    simp [learnOne, h, hs, he, learnedOf, Nat.not_le.mpr hd, Nat.pos_iff_ne_zero.mp hq, newUid, hx, requestedEnt]
    rfl

/-! ### A single request that waits (R166, R168) -/

/-- The state without the requests that wait. -/
def noReqs (s : State) : State := { s with em := { s.em with reqs := [] } }

theorem learnApply_early {n : Nat} (h : s.em.reqs = [r]) (hn : n < r.ring + 2) : learnApply n s = s := by
  simp [learnApply, h, Nat.not_le.mpr hn, foldS]

theorem learnApply_due {n : Nat} (h : s.em.reqs = [r]) (hn : r.ring + 2 ≤ n) :
    learnApply n s = refusedEvents (learnOne { st := noReqs s } r).refused (learnOne { st := noReqs s } r).st := by
  simp [learnApply, learnRing, h, hn, foldS, noReqs, sortBy, insBy, List.eraseDups_cons]

@[simp] theorem refusedEvents_nil (s : State) : refusedEvents [] s = s := rfl

theorem refusedEvents_one (code n : Nat) : refusedEvents [(r.cid, code, r, n)] s =
    post r.cid 0x0603 (emBody s.ring r.key r.tmpl r.table r.wide code r.port 0xFFFFFFFF n) s := rfl

theorem learnApply_stale {n : Nat} (h : s.em.reqs = [r]) (hn : r.ring + 2 ≤ n) (hr : r.rotation ≠ (cmpOf s r.cid).rotation) :
    learnApply n s = cnt .emLearnStale r.cid 0 1 (noReqs s) := by
  rw [learnApply_due h hn, learnOne_stale (a := { st := noReqs s }) hr, refusedEvents_nil]

theorem learnApply_static {n : Nat} (h : s.em.reqs = [r]) (hn : r.ring + 2 ≤ n) (hr : r.rotation = (cmpOf s r.cid).rotation)
    (hs : r.static_ = true) : learnApply n s = cnt .emLearnStatic r.cid 0 1 (noReqs s) := by
  rw [learnApply_due h hn, learnOne_static (a := { st := noReqs s }) hr hs, refusedEvents_nil]

theorem learnApply_quota {n : Nat} (h : s.em.reqs = [r]) (hn : r.ring + 2 ≤ n) (hr : r.rotation = (cmpOf s r.cid).rotation)
    (hs : r.static_ = false) (hk : keyUnlearned s r) (hq : (cmpOf s r.cid).emQuota ≤ learnedOf s r.cid) :
    learnApply n s = post r.cid 0x0603 (emBody s.ring r.key r.tmpl r.table r.wide 2 r.port 0xFFFFFFFF 1)
      (cnt .emRefQuota r.cid 0 1 (noReqs s)) := by
  rw [learnApply_due h hn, learnOne_quota (a := { st := noReqs s }) hr hs hk (Nat.zero_lt_succ _) hq, addRefused, refusedEvents_one]
  rfl

theorem learnApply_empty {n : Nat} (h : s.em.reqs = [r]) (hn : r.ring + 2 ≤ n) (hr : r.rotation = (cmpOf s r.cid).rotation)
    (hs : r.static_ = false) (he : s.em.ents = []) (hq : 0 < (cmpOf s r.cid).emQuota) : ∃ x, tableParts (learnApply n s) =
      tableParts (emStore (requestedEnt (noReqs s) r) false x (newUid (noReqs s)).2) := by
  obtain ⟨x, e', hone⟩ := learnOne_empty (a := { st := noReqs s }) hr hs (Nat.zero_lt_succ _) he hq
  exact ⟨x, by rw [learnApply_due h hn, hone, refusedEvents_nil, tableParts_learnEvent, tableParts_cnt]⟩

/-! ### Aging (R170) -/

section
variable {c t : Nat} {x : BitVec 64}

/-- The tick of an instance that falls in the ring in progress. -/
def tickNow (s : State) (c t : Nat) (x : BitVec 64) : AgeTick :=
  { tick := s.ring, cid := c, table := t, limit := emAgeLimit x, period := emPeriod x }

theorem agingTick_no_table (h : emTblNow s c t = none) : agingTick c t s = s := by simp only [agingTick, h]

theorem agingTick_kept (h : emTblNow s c t = some x) (ha : emAgeEn x = true) (hp : emPeriod x ≠ 0)
    (hr : s.ring % emPeriod x = 0) (hk : tickNow s c t x ∉ s.em.ticks) :
    agingTick c t s = { s with em := { s.em with ticks := s.em.ticks ++ [tickNow s c t x] } } := by
  rw [tickNow] at hk
  simp [agingTick, h, ha, hp, hr, hk, tickNow]

theorem agingTick_idle (h : emTblNow s c t = some x)
    (hi : emAgeEn x = false ∨ s.ring % emPeriod x ≠ 0 ∨ tickNow s c t x ∈ s.em.ticks) : agingTick c t s = s := by
  rw [tickNow] at hi
  rcases hi with hi | hi | hi <;> simp [agingTick, h, hi]

end

theorem learned_of_agesAt {k : AgeTick} {e : EmEnt} (h : agesAt k e = true) : e.learned = true := by
  simp only [agesAt, Bool.and_eq_true] at h
  obtain ⟨⟨⟨hl, -⟩, -⟩, -⟩ := h
  exact hl

/-- The entries that age at a tick whose effect is due by ring `n`. -/
def agedBy (n : Nat) (s : State) : List EmEnt :=
  s.em.ents.filter (fun e => (s.em.ticks.filter (fun t => decide (t.tick + 2 ≤ n))).any (fun t => agesAt t e))

theorem mem_agedBy {n : Nat} {e : EmEnt} {k : AgeTick} (he : e ∈ s.em.ents) (hk : k ∈ s.em.ticks) (hn : k.tick + 2 ≤ n)
    (ha : agesAt k e = true) : e ∈ agedBy n s :=
  List.mem_filter.mpr ⟨he, List.any_eq_true.mpr ⟨k, List.mem_filter.mpr ⟨hk, decide_eq_true hn⟩, ha⟩⟩

theorem countAged_ctr_alone (l : List EmEnt) (s : State) :
    ∃ y, foldS l (fun e => cnt .emAged e.cid 0 1) s = { s with ctr := y } :=
  foldS_induct (P := fun t => ∃ y, t = { s with ctr := y }) (by rintro e _ ⟨y, rfl⟩; exact ⟨_, rfl⟩) l ⟨s.ctr, rfl⟩

/-- The age-outs count, take the learned entries that aged away and the ticks with them, and leave posts to the sweeper. -/
theorem ageOuts_eq (n : Nat) (s : State) : ∃ y posts, ageOuts n s = { s with ctr := y, em := { s.em with
    ticks := s.em.ticks.filter (fun t => decide (n < t.tick + 2)),
    ents := s.em.ents.filter (fun e => !(e.learned && ((agedBy n s).map EmEnt.uid).contains e.uid)),
    posts := posts } } := by
  obtain ⟨y, hy⟩ := countAged_ctr_alone (agedBy n s) s
  rw [agedBy] at hy
  simp only [ageOuts, hy, agedBy]
  exact ⟨_, _, rfl⟩

/-- An entry that stays is none that ages at a due tick. -/
theorem agesAt_of_mem_stays {n : Nat} {e : EmEnt} {k : AgeTick}
    (he : e ∈ s.em.ents.filter (fun e => !(e.learned && ((agedBy n s).map EmEnt.uid).contains e.uid)))
    (hk : k ∈ s.em.ticks) (hn : k.tick + 2 ≤ n) : agesAt k e = false := by
  obtain ⟨hmem, hstay⟩ := List.mem_filter.mp he
  refine Bool.eq_false_iff.mpr fun ha => ?_
  have huid : e.uid ∈ (agedBy n s).map EmEnt.uid := List.mem_map_of_mem (mem_agedBy hmem hk hn ha)
  simp [learned_of_agesAt ha, huid] at hstay

/-! ### Flushes (R173) -/

/-- Where nothing of a list of effects and their rings is due by ring `n`, none is taken and all stay. -/
theorem none_due {n : Nat} {p : Nat → Bool} {l : List (Nat × Nat)} (h : ∀ x ∈ l, p x.1 = false ∨ n < x.2) :
    l.filter (fun x => p x.1 && decide (x.2 ≤ n)) = [] ∧ l.filter (fun x => !(p x.1 && decide (x.2 ≤ n))) = l := by
  have hnone : ∀ x ∈ l, (p x.1 && decide (x.2 ≤ n)) = false := fun x hx => by
    rcases h x hx with hp | hd
    · simp [hp]
    · simp [Nat.not_le.mpr hd]
  exact ⟨List.filter_eq_nil_iff.mpr fun x hx => by simp [hnone x hx],
    List.filter_eq_self.mpr fun x hx => by simp [hnone x hx]⟩

/-- A flush removes its learned entries; its counts and events change nothing else of the table. -/
theorem emFlush_em (p : EmEnt → Bool) (s : State) :
    (emFlush p s).em = { s.em with ents := s.em.ents.filter (fun e => !(e.learned && p e)) } := by
  refine foldS_keeps _ State.em _ (fun e t => ?_) _
  dsimp only
  split
  · exact agedEvent_em _ _ _ _
  · rfl

theorem emFlush_none {p : EmEnt → Bool} (h : ∀ e, p e = false) (s : State) : emFlush p s = s := by
  simp [emFlush, h, foldS]

theorem portFlushes_idle {n : Nat} {p : Nat → Bool} (h : ∀ f ∈ s.em.flushes, p f.1 = false ∨ n < f.2) : portFlushes n p s = s := by
  obtain ⟨hdue, hstay⟩ := none_due h
  simp only [portFlushes, hdue, List.map_nil, List.any_nil, Bool.and_false, emFlush_none fun _ => rfl, hstay]

theorem portFlushes_one {n q d : Nat} {p : Nat → Bool} (h : s.em.flushes = [(q, d)]) (hq : p q = true) (hd : d ≤ n) :
    let w := emFlush (fun e => (emTblNow s e.cid e.table).any emFlushDown && resNames e.res q) s
    portFlushes n p s = { w with em := { w.em with flushes := [] } } := by
  simp [portFlushes, h, hq, hd, emFlush_em]

/-! ### The sweeper (R172) -/

theorem sweeperVisit_no_posts {bank i : Nat} (h : s.em.posts = []) (bad : Bool) :
    sweeperVisit bank i bad s = if bad then emParityAt bank i s else s := by
  have hsame : { s with em := { s.em with posts := [] } } = s := by rw [← h]
  simp only [sweeperVisit, h, List.filter_nil, foldS, List.foldl_nil, hsame]

theorem sweeperVisit_one {bank i : Nat} {a : AgedPost} (h : s.em.posts = [a]) (hb : bank < 4)
    (hc : emCovers false bank i a.ent = true) :
    let w := agedEvent a.ent a.ring a.reason s
    sweeperVisit bank i false s = { w with em := { w.em with posts := [] } } := by
  simp [sweeperVisit, h, Nat.ne_of_lt hb, hc, foldS]

/-! ### Removal for parity (R175) -/

theorem parityRemove_idle {n : Nat} {p : Nat → Bool} (h : ∀ x ∈ s.em.parity, p x.1 = false ∨ n < x.2) : parityRemove n p s = s := by
  obtain ⟨hdue, hstay⟩ := none_due h
  simp [parityRemove, hdue, hstay, foldS, -Bool.not_and]

theorem tableParts_parityRemove_one {n u d : Nat} {p : Nat → Bool} (h : s.em.parity = [(u, d)]) (hu : p u = true) (hd : d ≤ n) :
    tableParts (parityRemove n p s) = tableParts
      { s with em := { s.em with ents := s.em.ents.filter (fun e => !(e.learned && e.uid == u)), parity := [] } } := by
  refine (foldS_keeps _ tableParts _ (fun e t => ?_) _).trans ?_
  · dsimp only
    split
    · exact (tableParts_pairNotice _ _ _ _).trans (tableParts_post _ _ _ _)
    · exact tableParts_post _ _ _ _
  · simp [tableParts, h, hu, hd, Bool.beq_eq_decide_eq]

end

end Sys2Proof.Machine

namespace Sys2Proof.Proofs
open Machine

/-- Settles O59: each row by the equation of its operation in the ring that `dueRing` gives; an insertion is read off the entry that
`emStore` adds, since the count and the event after it change nothing of the table. -/
theorem learnAndAge : Obligations.LearnAndAge := by
  refine ⟨fun s r hh hr => ?_, fun s c tb p b i uid hh => ?_⟩
  · refine ⟨fun hearly => row_running hh (learnApply_early hr ?_), fun hst hd => ?_⟩
    · rcases hearly with hst | hlt
      · rw [dueRing_stepped hst]; omega
      · unfold dueRing; split <;> omega
    have hdue : r.ring + 2 ≤ dueRing s := by rwa [dueRing_running hst]
    refine ⟨fun hrot => row_running hh (learnApply_stale hr hdue hrot),
      fun hrot hs => row_running hh (learnApply_static hr hdue hrot hs),
      fun hrot hs hk hq => row_running hh (learnApply_quota hr hdue hrot hs hk hq), fun hrot hs he hq => ?_⟩
    obtain ⟨x, hparts⟩ := learnApply_empty hr hdue hrot hs he hq
    obtain ⟨notes, hstore⟩ := emStore_eq (requestedEnt (noReqs s) r) false x (newUid (noReqs s)).2
    obtain ⟨hem, hcut, hcmp⟩ := tableParts_eq_iff.mp (hparts.trans (congrArg tableParts hstore))
    have hents : (learnApply (dueRing s) s).em.ents = [{ requestedEnt (noReqs s) r with bank := x.1, index := x.2 }] := by
      rw [hem]
      exact congrArg (· ++ _) he
    refine ⟨_, _, row_running hh rfl, hents, rfl, rfl, rfl, rfl, rfl, rfl, actRing_of_not_stepped hst, rfl, ?_, hcmp, ?_⟩
    · rw [hem]; rfl
    · rw [hcut]; rfl
  · refine ⟨fun x hx => ⟨fun ha hp hm hk => row_running hh (agingTick_kept hx ha hp hm hk),
        fun hi => row_running hh (agingTick_idle hx hi)⟩,
      fun hx => row_running hh (agingTick_no_table hx), ?_, fun hf => row_running hh (portFlushes_idle fun f hmem => ?_),
      fun d hf hd => row_running hh (portFlushes_one hf (beq_self_eq_true _) hd),
      fun hp => ⟨row_running hh (sweeperVisit_no_posts hp false), row_running hh (sweeperVisit_no_posts hp true)⟩,
      fun a hp hb hc => row_running hh (sweeperVisit_one hp hb hc),
      fun hx => row_running hh (parityRemove_idle fun x hmem => ?_), fun d hx hd => ?_⟩
    · obtain ⟨y, posts, hout⟩ := ageOuts_eq (dueRing s) s
      exact ⟨_, row_running hh hout, fun e he => ⟨List.mem_of_mem_filter he, fun k hk hn => agesAt_of_mem_stays he hk hn⟩,
        fun e he hl => List.mem_filter.mpr ⟨he, by simp [hl]⟩, rfl, rfl, rfl, rfl⟩
    · exact (hf f hmem).imp_left beq_eq_false_iff_ne.mpr
    · exact (hx x hmem).imp_left beq_eq_false_iff_ne.mpr
    · have hparts := tableParts_parityRemove_one (n := dueRing s) (p := fun u => u == uid) hx (beq_self_eq_true _) hd
      obtain ⟨hem, hcut, hcmp⟩ := tableParts_eq_iff.mp hparts
      exact ⟨_, row_running hh rfl, by rw [hem], by rw [hem], hcut, hcmp⟩

end Sys2Proof.Proofs

/-! ## BARRIER, SECURED, GRV_WRITE and TALLY_READ (R203, R209, R372, R373, R399, R425) -/

namespace Sys2Proof.Machine

section
variable {q : Req} {s : State}

/-! ### BARRIER (R425) -/

theorem ringOfV_outerId (s : State) (q : Req) (o : Op) : ringOfV s q.c (outerId s q o).1 (outerId s q o).2 = vOf s q o := by
  unfold outerId vOf
  split <;> rfl

/-- A BARRIER that passes its checks is answered, or waits with the SECURED command that carries it. -/
theorem runBarrier_admitted (hs : served s q = true) (ha : admission opBarrier (vOf s q .barrier) s q = .ok) :
    runBarrier q s = if barrierDone s q (vOf s q .barrier) then
      answer .barrier q (vOf s q .barrier) s { st := s, ring := vOf s q .barrier }
    else { (takeSec q s).2 with
      items := (takeSec q s).2.items ++
        [{ due := vOf s q .barrier + q.arg1.toNat, v := vOf s q .barrier, op := .barrier, req := q, rsp := true,
           sec := (takeSec q s).1 }] } := by
  simp only [runBarrier, hs, if_true, ringOfV_outerId, ha]
  rfl

/-! ### SECURED (R399) -/

/-- The state in which the next secured message of a session is opened: the grove writes of its compartment are carried out. -/
def openedState (q : Req) (s : State) : State :=
  modMbx q.c (fun m => { m with reads := beginSecured m.reads }) (finishJobs q.c s)

/-- What stands of the SECURED command while the command inside it is carried out. -/
def innerOpen (q : Req) (s : State) : SecOpen :=
  { tag := q.tag, outAddr := q.outAddr, outLen := q.outLen.toNat, sess := ((session s q.c).map Sess.ems).getD 0 }

theorem runSecured_out_of_turn (h : nextSecured s q = false ∨ (mbxOf s q.c).secOpen.isSome = true) : runSecured q s = s := by
  refine if_neg fun hrun => ?_
  obtain ⟨⟨-, hnext⟩, hnone⟩ := by simpa only [Bool.and_eq_true] using hrun
  rcases h with h | h
  · exact absurd hnext (by simp [h])
  · exact absurd hnone (by simp [Option.isSome_iff_ne_none.mp h])

section
variable (hs : served s q = true) (hn : nextSecured s q = true) (ho : (mbxOf s q.c).secOpen = none)
  (ha : admission opSecured (vOf (openedState q s) q .secured) (openedState q s) q = .ok)
include hs hn ho ha

/-- A command inside that passes the checks of R398 is held for its `NOT_BEFORE`, or awaited. -/
theorem runSecured_inner_ok (hi : innerCheck (openedState q s) q = .ok) :
    runSecured q s = if (openedState q s).ring < leAt q.payload 16 8 then
      holdInner q (innerOpen q (openedState q s)) (sessMsg q.c (openedState q s))
    else modMbx q.c (fun m => { m with secOpen := some (innerOpen q (openedState q s)) }) (sessMsg q.c (openedState q s)) := by
  unfold openedState at ha hi ⊢
  simp only [runSecured, hs, hn, ho, Option.isNone_none, Bool.and_self, if_true, ha, hi, innerOpen]

theorem runSecured_inner_refused (hi : innerCheck (openedState q s) q ≠ .ok) :
    runSecured q s = sealAnswer q.c (innerOpen q (openedState q s)) (vOf (openedState q s) q .secured)
      (innerRefusal q (innerCheck (openedState q s) q)) none (sessMsg q.c (openedState q s)) (sessMsg q.c (openedState q s)) := by
  unfold openedState at ha hi ⊢
  simp only [runSecured, hs, hn, ho, Option.isNone_none, Bool.and_self, if_true, ha, innerOpen]

end

/-! ### GRV_WRITE (R203, R209) -/

theorem runGrvWrite_waits {x : Extra} (hs : served s q = true) (hu : served (finishJobs q.c s) q = true)
    (hp : passes .grvWrite q x (finishJobs q.c s)) (hop : (grvWrOf (finishJobs q.c s) q).op ≠ 2) :
    runGrvWrite q s = { (takeSec q (finishJobs q.c s)).2 with grv := { (takeSec q (finishJobs q.c s)).2.grv with
      jobs := (takeSec q (finishJobs q.c s)).2.grv.jobs ++
        [{ req := q, v := vOf (finishJobs q.c s) q .grvWrite, sec := (takeSec q (finishJobs q.c s)).1 }] } } := by
  obtain ⟨ha, he⟩ := hp
  simp only [lopOf] at ha he
  simp only [runGrvWrite, hs, if_true]
  exact if_pos (by simp [hu, ha, he, hop])

theorem runGrvWrite_delete (hs : served s q = true) (hop : (grvWrOf (finishJobs q.c s) q).op = 2) :
    runGrvWrite q s = runOp opGrvWrite q (finishJobs q.c s) := by
  simp only [runGrvWrite, hs, if_true]
  exact if_neg (by simp [hop])

/-! ### What the SECURED command that leaves its mailbox, and an answer, leave as they were -/

@[simp] theorem takeSec_cap : (takeSec q s).2.cap = s.cap := by unfold takeSec; split <;> rfl
@[simp] theorem takeSec_dram : (takeSec q s).2.dram = s.dram := by unfold takeSec; split <;> rfl
@[simp] theorem takeSec_snap : (takeSec q s).2.snap = s.snap := by unfold takeSec; split <;> rfl
@[simp] theorem takeSec_variant : (takeSec q s).2.variant = s.variant := by unfold takeSec; split <;> rfl

theorem sealAnswer_cap {c : Nat} {so : SecOpen} {v : Nat} {r : Rsp} {b : Option Saved} {before after : State}
    (h : after.cap = before.cap) : (sealAnswer c so v r b before after).cap = before.cap := by
  unfold sealAnswer
  split
  · simp [h]
  · split <;> simp [h]

theorem answer_cap {o : Op} {v : Nat} {a : Ans} (h : a.st.cap = s.cap) : (answer o q v s a).cap = s.cap := by
  unfold answer
  split
  · split
    · exact h
    · exact sealAnswer_cap h
  · simp [h]

theorem answerLater_cap {o : Op} {v : Nat} {sec : Option SecOpen} {a : Ans} (h : a.st.cap = s.cap) :
    (answerLater o q v sec s a).cap = s.cap := by
  unfold answerLater
  split
  · exact answer_cap (a := { a with st := _ }) h
  · exact answer_cap h

end

/-! ### TALLY_READ (R370, R372, R373) -/

/-- A read joins the streams. -/
def joinReads (j : TlyRead) (s : State) : State := { s with cap := { s.cap with reads := s.cap.reads ++ [j] } }

@[simp] theorem joinReads_dram (j : TlyRead) (s : State) : (joinReads j s).dram = s.dram := rfl
@[simp] theorem joinReads_variant (j : TlyRead) (s : State) : (joinReads j s).variant = s.variant := rfl
@[simp] theorem tlyOf_joinReads (j : TlyRead) (s : State) (c : Nat) : tlyOf (joinReads j s) c = tlyOf s c := rfl

/-- The read that a TALLY_READ begins, by OLDEST and NEXT of the boundary (R372, R420). -/
def newRead (q : Req) (s : State) : TlyRead :=
  let t := tlyOf (atSnap s) q.c
  let first := max q.t (tlyOldest t)
  { req := q, v := vOf s q .tallyRead, sec := (takeSec q s).1, first := first, pos := first,
    stop := first + min (q.a1 12 0) (t.next - first), oldest := tlyOldest t, next := t.next }

theorem newRead_stop (q : Req) (s : State) :
    (newRead q s).stop = (newRead q s).first + min (q.a1 12 0) ((newRead q s).next - (newRead q s).first) := rfl

/-- The state in which a TALLY_READ joins its stream, at the clock of its row. -/
def readState (q : Req) (clk : Nat) (s : State) : State := { (takeSec q s).2 with clock := clk }

section
variable (q : Req) (clk : Nat) (s : State)

@[simp] theorem readState_cap : (readState q clk s).cap = s.cap := takeSec_cap
@[simp] theorem readState_dram : (readState q clk s).dram = s.dram := takeSec_dram
@[simp] theorem readState_variant : (readState q clk s).variant = s.variant := takeSec_variant
@[simp] theorem tlyOf_readState (c : Nat) : tlyOf (readState q clk s) c = tlyOf s c := by simp [tlyOf]

end

theorem runTallyRead_admitted {q : Req} {s : State} {clk : Nat} (hs : served s q = true)
    (ha : admission opTallyRead (vOf s q .tallyRead) s q = .ok) :
    let w := joinReads (newRead q s) (readState q clk s)
    runTallyRead q clk s = readOn q.c (readFuel w) w := by
  have hsnap : tlyOf (atSnap (takeSec q s).2) q.c = tlyOf (atSnap s) q.c := by simp [tlyOf]
  simp only [runTallyRead, hs, ha, beq_self_eq_true, Bool.and_self, if_true, hsnap]
  rfl

theorem orElseSt_eq_ok {a b : Status} : orElseSt a b = .ok ↔ a = .ok ∧ b = .ok := by
  unfold orElseSt
  split <;> simp [*]

/-- An opcode that keeps the common order and passes its checks has passed those of its arguments (R398). -/
theorem args_of_admission {l : LOp} {v : Nat} {s : State} {q : Req} (ho : l.ownOrder = false) (h : admission l v s q = .ok) :
    l.args s q = .ok := by
  simp only [admission, ho, Bool.false_eq_true, if_false, orElseSt_eq_ok] at h
  obtain ⟨-, -, -, hargs, -⟩ := h
  exact hargs

/-- A read that passes its checks asks for a record (R372). -/
theorem count_pos_of_admitted {q : Req} {s : State} {v : Nat} (h : admission opTallyRead v s q = .ok) : 0 < q.a1 12 0 := by
  refine Nat.pos_of_ne_zero fun h0 => ?_
  have hargs := args_of_admission rfl h
  simp [opTallyRead, firstBad, h0] at hargs

theorem newRead_first_lt_stop {q : Req} {s : State} (hsome : (newRead q s).first < (newRead q s).next) (hcount : 0 < q.a1 12 0) :
    (newRead q s).first < (newRead q s).stop := by
  rw [newRead_stop]
  omega

/-- A read that has not been overtaken goes on from where it stands. -/
theorem readAgain_current {t : Tly} {j : TlyRead} (h : tlyOldest t ≤ j.pos) :
    readAgain t j = { j with stop := min j.stop t.next } := if_neg (Nat.not_lt.mpr h)

/-- A read that delivered nothing releases nothing. -/
theorem readEnd_nothing {j : TlyRead} {s : State} (h : j.got = []) : readEnd j s = answerLater .tallyRead j.req j.v j.sec s
    { st := s, ring := j.v, data := packLE [(8, j.first), (8, 0), (8, j.oldest), (8, j.next)] } := by
  simp [readEnd, h]

theorem pageRun_head? {t : Tly} {n stop : Nat} (hstop : n < stop) (hlost : n ∉ t.lost) : (pageRun t n stop).head? = some n := by
  obtain ⟨k, hk⟩ : ∃ k, 16 - n % 16 = k + 1 := ⟨15 - n % 16, by omega⟩
  simp [pageRun, hk, List.range_succ_eq_map, hstop, hlost]

theorem readOn_no_reads {c fuel : Nat} {s : State} (h : ∀ i ∈ s.cap.reads, i.req.c ≠ c) : readOn c fuel s = s := by
  have hnone : s.cap.reads.find? (fun j => j.req.c == c) = none := by simpa using h
  cases fuel with
  | zero => rfl
  | succ n => simp [readOn, hnone]

section
variable {c : Nat} {s : State} {j : TlyRead} (hr : ∀ i ∈ s.cap.reads, i.req.c ≠ c) (hj : j.req.c = c)
include hr hj

theorem find_joinReads : (joinReads j s).cap.reads.find? (fun i => i.req.c == c) = some j := by
  have hnone : s.cap.reads.find? (fun i => i.req.c == c) = none := by simpa using hr
  simp [joinReads, List.find?_append, hnone, hj]

theorem setRead_joinReads (x : Option TlyRead) :
    setRead c x (joinReads j s) = { s with cap := { s.cap with reads := s.cap.reads ++ x.toList } } := by
  have hne : ∀ i ∈ s.cap.reads, (i.req.c != c) = true := by simpa using hr
  have htake : (s.cap.reads ++ [j]).takeWhile (fun i => i.req.c != c) = s.cap.reads := by
    simp [List.takeWhile_append_of_pos hne, hj]
  have hdrop : (s.cap.reads ++ [j]).dropWhile (fun i => i.req.c != c) = [j] := by
    simp [List.dropWhile_append_of_pos hne, hj]
  simp [setRead, joinReads, htake, hdrop]

variable (hd : ∀ r ∈ s.dram.reqs, ¬ (r.cls = 3 ∧ r.cid = c)) (hold : tlyOldest (tlyOf s c) ≤ j.pos)
include hd hold

/-- A read with nothing to deliver ends: nothing waits behind it in its compartment's stream. -/
theorem readOn_joined_ends {fuel : Nat} (hend : min j.stop (tlyOf s c).next ≤ j.pos) :
    readOn c (fuel + 1) (joinReads j s) = readOn c fuel (readEnd j s) := by
  have hreq : s.dram.reqs.any (fun r => r.cls == 3 && r.cid == c) = false := by simpa using hd
  simp only [readOn, joinReads_dram, hreq, find_joinReads hr hj, tlyOf_joinReads, readAgain_current hold, setRead_joinReads hr hj,
    hend, if_true, Bool.false_eq_true, if_false, Option.toList_none, List.append_nil]
  rfl

/-- A read with a record to deliver asks DRAM for those of its first page. -/
theorem readOn_joined_asks {fuel : Nat} (hstop : j.stop ≤ (tlyOf s c).next) (hgo : j.pos < j.stop) (hv : s.variant ≠ .e)
    (hlost : j.pos ∉ (tlyOf s c).lost) :
    readOn c (fuel + 1) (joinReads j s) =
      enqueueReq { cls := 3, page := tlyPage (tlyOf s c) j.pos, cid := c, write := false,
                   slots := (pageRun (tlyOf s c) j.pos j.stop).map (· % 16), ver := tlyVer (tlyOf s c) j.pos,
                   data := (pageRun (tlyOf s c) j.pos j.stop).map (recAt (tlyOf s c)) } (joinReads j s) := by
  have hreq : s.dram.reqs.any (fun r => r.cls == 3 && r.cid == c) = false := by simpa using hd
  have hagain : readAgain (tlyOf s c) j = j := by rw [readAgain_current hold, Nat.min_eq_left hstop]
  have hrun : (pageRun (tlyOf s c) j.pos j.stop).isEmpty = false := by
    simpa using List.ne_nil_of_mem (List.mem_of_head? (pageRun_head? hgo hlost))
  simp only [readOn, joinReads_dram, joinReads_variant, hreq, find_joinReads hr hj, tlyOf_joinReads, hagain, Nat.not_le.mpr hgo, hrun,
    hv, if_false, Bool.false_eq_true, setRead_joinReads hr hj]
  rfl

end

section
variable {q : Req} {s : State} {clk fuel : Nat} (hr : ∀ i ∈ s.cap.reads, i.req.c ≠ q.c)
  (hd : ∀ r ∈ s.dram.reqs, ¬ (r.cls = 3 ∧ r.cid = q.c)) (hold : tlyOldest (tlyOf s q.c) ≤ (newRead q s).first)
include hr hd hold

/-- A new read with nothing to deliver is answered at once. -/
theorem readOn_newRead_nothing (hnone : (newRead q s).next ≤ (newRead q s).first) :
    readOn q.c (fuel + 1) (joinReads (newRead q s) (readState q clk s)) =
      answerLater .tallyRead q (vOf s q .tallyRead) (takeSec q s).1 (readState q clk s)
        { st := readState q clk s, ring := vOf s q .tallyRead,
          data := packLE [(8, (newRead q s).first), (8, 0), (8, (newRead q s).oldest), (8, (newRead q s).next)] } := by
  have hstop : (newRead q s).stop = (newRead q s).first := by rw [newRead_stop]; omega
  have hend := readOn_joined_ends (c := q.c) (s := readState q clk s) (j := newRead q s) (fuel := fuel) (by simpa using hr) rfl
    (by simpa using hd) (by rw [tlyOf_readState]; exact hold) ((Nat.min_le_left _ _).trans hstop.le)
  rw [hend, readEnd_nothing rfl]
  exact readOn_no_reads (by simpa [answerLater_cap] using hr)

/-- A new read with something to deliver asks for the records of its first page. -/
theorem readOn_newRead_asks (hnext : (newRead q s).next ≤ (tlyOf s q.c).next) (hgo : (newRead q s).first < (newRead q s).stop)
    (hv : s.variant ≠ .e) (hlost : (newRead q s).first ∉ (tlyOf s q.c).lost) :
    let t := tlyOf s q.c
    let first := (newRead q s).first
    let run := pageRun t first (newRead q s).stop
    readOn q.c (fuel + 1) (joinReads (newRead q s) (readState q clk s)) =
      enqueueReq { cls := 3, page := tlyPage t first, cid := q.c, write := false, slots := run.map (· % 16),
                   ver := tlyVer t first, data := run.map (recAt t) } (joinReads (newRead q s) (readState q clk s)) := by
  have hstop : (newRead q s).stop ≤ (tlyOf s q.c).next := by
    rw [newRead_stop] at hgo ⊢
    omega
  have hasks := readOn_joined_asks (c := q.c) (s := readState q clk s) (j := newRead q s) (fuel := fuel) (by simpa using hr) rfl
    (by simpa using hd) (by rw [tlyOf_readState]; exact hold) (by rw [tlyOf_readState]; exact hstop) hgo (by simpa using hv)
    (by rw [tlyOf_readState]; exact hlost)
  rwa [tlyOf_readState] at hasks

end

end Sys2Proof.Machine

namespace Sys2Proof.Proofs
open Machine

/-- Settles O9: each command by the equation of its operation; a TALLY_READ whose stream is free ends, or waits for its first page, in
the first turn of the stream. -/
theorem barrierSecuredGroveWrite : Obligations.BarrierSecuredGroveWrite := by
  refine ⟨fun q x s hs ha => ?_, fun q x s hs => ⟨fun h => ?_, fun hn ho ha => ?_⟩, fun q x s hs hu hp => ?_, fun q x s hs ha => ?_⟩
  · have hrun := runBarrier_admitted hs ha
    exact ⟨fun hd => congrArg Host.Outcome.next (hrun.trans (if_pos hd)),
      fun hd => congrArg Host.Outcome.next (hrun.trans (if_neg (by simp [hd])))⟩
  · exact congrArg Host.Outcome.next (runSecured_out_of_turn h)
  · refine ⟨fun hi hb => ?_, fun hi hb => ?_, fun hi => ?_⟩
    · exact congrArg Host.Outcome.next ((runSecured_inner_ok hs hn ho ha hi).trans (if_neg (Nat.not_lt.mpr hb)))
    · exact congrArg Host.Outcome.next ((runSecured_inner_ok hs hn ho ha hi).trans (if_pos hb))
    · exact congrArg Host.Outcome.next (runSecured_inner_refused hs hn ho ha hi)
  · exact ⟨fun hop => congrArg Host.Outcome.next (runGrvWrite_waits hs hu hp hop),
      fun hop hfit => congrArg Host.Outcome.next
        ((runGrvWrite_delete hs hop).trans (runOp_now (o := .grvWrite) (x := x) hu hp (.inr rfl) hfit))⟩
  · have hrun := runTallyRead_admitted (clk := x.clk.val) hs ha
    refine ⟨congrArg Host.Outcome.next hrun, fun hr hd hold hnext => ⟨fun hnone => ?_, fun hsome hv hlost => ?_⟩⟩
    · exact congrArg Host.Outcome.next (hrun.trans (readOn_newRead_nothing hr hd hold hnone))
    · have hgo := newRead_first_lt_stop hsome (count_pos_of_admitted ha)
      exact ⟨_, pageRun_head? hgo hlost, congrArg Host.Outcome.next (hrun.trans (readOn_newRead_asks hr hd hold hnext hgo hv hlost))⟩

end Sys2Proof.Proofs

/-! ## The microcycle budget (R233, R234, R238, R240, R266) -/

namespace Sys2Proof.Machine

/-- The model's integer formula is that of R233 for the frames it speaks of. -/
theorem budgetOf_eq {L : Nat} (h : 64 ≤ L) : budgetOf L = min 320 (32 + (L - 64) / 32) := by
  unfold budgetOf
  omega

/-- The engine after the entry of the BUDGET trap (R238), with the resume address `r` that no rule gives. -/
def budgetTrapEng (x : Eng) (upc r : Nat) : Eng :=
  { x with used := x.used + 1, tf := mkFrame { x with used := x.used + 1 } upc 0 0 r 0 false, lastTrap := some (0, 0),
           handler := some 0, upc := 0, phase := 1 }

/-- The BUDGET trap is counted, and its entry is the routine's next microcycle: no budget test follows it (R234, R240). -/
theorem takeTrap_budget (p e : Nat) (x : Eng) (c : Copy) (upc resume : Nat) (s : State) :
    let t := progEvt (uEgress p) 0x23 255 0 1
      (progEvt (uEgress p) 0x24 (stCid c.fi.stamp) 1 1 (cnt .krfTrap (stCid c.fi.stamp) 0 1 s))
    takeTrap p e x c upc { code := 0, detail := 0 } (some resume) s =
      setEng p e (budgetTrapEng x upc (freshFree t).1) (freshFree t).2 := rfl

theorem ctrGet_setEng (k : Ctr) (i j p e : Nat) (x : Eng) (s : State) :
    ctrGet (setEng p e x s) k i j = ctrGet s k i j := rfl

theorem ctrGet_freshFree (k : Ctr) (i j : Nat) (s : State) : ctrGet (freshFree s).2 k i j = ctrGet s k i j := rfl

theorem engOf_takeTrap_budget (p e : Nat) (x : Eng) (c : Copy) (upc resume : Nat) (s : State) :
    ∃ r, engOf (takeTrap p e x c upc { code := 0, detail := 0 } (some resume) s) p e = budgetTrapEng x upc r := by
  rw [takeTrap_budget]
  exact ⟨_, engOf_setEng_self _ _ _ _⟩

theorem takeTrap_budget_counted (p e : Nat) (x : Eng) (c : Copy) (upc resume : Nat) (s : State) :
    ctrGet (takeTrap p e x c upc { code := 0, detail := 0 } (some resume) s) .krfTrap (stCid c.fi.stamp) 0 =
      (ctrGet s .krfTrap (stCid c.fi.stamp) 0 + 1) % 2 ^ 64 := by
  rw [takeTrap_budget, ctrGet_setEng, ctrGet_freshFree, ctrGet_progEvt, ctrGet_progEvt]
  exact ctrGet_cnt_self _ _ _ _ _ (by decide)

section
variable {p e : Nat} {x : Eng} {c : Copy} (upc : Nat) (s : State)

/-- Outside a handler, a budget used up is the BUDGET trap (R234). -/
theorem budgetTest_traps (h : copyBudget c ≤ x.used) (hh : x.handler = none) :
    budgetTest p e x c upc s = takeTrap p e x c upc { code := 0, detail := 0 } (some upc) s := by
  simp [budgetTest, Nat.not_lt.mpr h, hh]

/-- The BUDGET handler has 16 microcycles beyond the budget (R240). -/
theorem budgetTest_in_budget_handler (h : copyBudget c ≤ x.used) (hh : x.handler = some 0) :
    budgetTest p e x c upc s = if copyBudget c + 16 ≤ x.used then abortEng p e x c upc 2 s else setEng p e x s := by
  simp [budgetTest, Nat.not_lt.mpr h, hh]

/-- A budget used up in any other handler would trap inside it: the routine is aborted NESTED (R240). -/
theorem budgetTest_nested {k : Nat} (h : copyBudget c ≤ x.used) (hh : x.handler = some (k + 1)) :
    budgetTest p e x c upc s = abortEng p e x c upc 3 s := by
  simp [budgetTest, Nat.not_lt.mpr h, hh]

end

end Sys2Proof.Machine

namespace Sys2Proof.Proofs
open Machine

/-- Settles O52: the formula by arithmetic, the end of a microcycle by where the routine stands when its budget is used up. -/
theorem kerfBudget : Obligations.KerfBudget := by
  refine ⟨fun L h => budgetOf_eq h, fun L h h95 => ?_, by decide, by decide, by decide, fun c => rfl,
    fun s p e x c upc => ⟨budgetTest_within upc s, fun h hh => ?_, fun h hlt hh => ?_, fun h hh => ?_, fun k h hh =>
      budgetTest_nested upc s h hh⟩⟩
  · rw [budgetOf_eq h]
    omega
  · rw [budgetTest_traps upc s h hh]
    obtain ⟨r, heng⟩ := engOf_takeTrap_budget p e x c upc upc s
    simp only [heng]
    exact ⟨rfl, rfl, rfl, rfl, rfl, rfl, takeTrap_budget_counted p e x c upc upc s⟩
  · exact (budgetTest_in_budget_handler upc s h hh).trans (if_neg (Nat.not_le.mpr hlt))
  · exact (budgetTest_in_budget_handler upc s (by omega) hh).trans (if_pos h)

end Sys2Proof.Proofs

/-! ## The ALU as two's complement arithmetic (R259) -/

namespace Sys2Proof.Machine

theorem signedOf_toNat {w : Nat} (hw : 0 < w) (a : BitVec w) : signedOf w a.toNat = a.toInt := by
  rw [signedOf, BitVec.toInt_eq_toNat_cond]
  have hhalf : 2 * 2 ^ (w - 1) = 2 ^ w := mul_pow_sub_one hw.ne' 2
  by_cases h : a.toNat < 2 ^ (w - 1)
  · rw [if_pos h, if_pos (by omega)]
  · rw [if_neg h, if_neg (by omega)]

/-- A signed result overflows where reducing it to `w` bits changes it. -/
theorem signedOvf_eq_ne_bmod {w : Nat} (hw : 0 < w) (x : Int) : signedOvf w x = decide (x ≠ x.bmod (2 ^ w)) := by
  have hhalf : 2 * 2 ^ (w - 1) = 2 ^ w := mul_pow_sub_one hw.ne' 2
  have hfit : x.bmod (2 ^ w) = x ↔
      -((2 ^ (w - 1) : Nat) : Int) ≤ x ∧ x < ((2 ^ (w - 1) : Nat) : Int) := by
    rw [Int.bmod_eq_iff (Nat.two_pow_pos _), Int.sub_self]
    simp only [Int.dvd_zero, and_true]
    omega
  rw [signedOvf, ← Bool.decide_or, decide_eq_decide, ne_comm, Ne, hfit]
  omega

section
variable {w : Nat} (hw : 0 < w) (a b : BitVec w) (s : Nat)
include hw

/-- Addition with a carry in is that of `w`-bit words. -/
theorem aluAdd_toNat (cin : Nat) : aluAdd w a.toNat b.toNat cin =
    { r := (a + b + BitVec.ofNat w cin).toNat, c := decide (2 ^ w ≤ a.toNat + b.toNat + cin),
      v := decide (a.toInt + b.toInt + cin ≠ (a + b + BitVec.ofNat w cin).toInt) } := by
  have hint : (a + b + BitVec.ofNat w cin).toInt = (a.toInt + b.toInt + cin).bmod (2 ^ w) := by
    rw [BitVec.toInt_add, BitVec.toInt_add, BitVec.toInt_ofNat', Int.bmod_add_bmod, Int.add_bmod_bmod]
  rw [aluAdd, signedOf_toNat hw, signedOf_toNat hw, signedOvf_eq_ne_bmod hw, hint]
  simp only [BitVec.toNat_add, BitVec.toNat_ofNat, Nat.add_mod_mod, Nat.mod_add_mod]

/-- Subtraction with a borrow in is that of `w`-bit words. -/
theorem aluSub_toNat {cin : Nat} (hc : cin < 2) : aluSub w a.toNat b.toNat cin =
    { r := (a - b - BitVec.ofNat w cin).toNat, c := decide (a.toNat < b.toNat + cin),
      v := decide (a.toInt - b.toInt - cin ≠ (a - b - BitVec.ofNat w cin).toInt) } := by
  have hint : (a - b - BitVec.ofNat w cin).toInt = (a.toInt - b.toInt - cin).bmod (2 ^ w) := by
    rw [BitVec.toInt_sub, BitVec.toInt_sub, BitVec.toInt_ofNat', Int.bmod_sub_bmod, Int.sub_bmod_bmod]
  have hcin : cin < 2 ^ w := hc.trans_le (Nat.le_self_pow hw.ne' 2)
  have hnat : a.toNat + 2 * 2 ^ w - b.toNat - cin = 2 ^ w - cin + (2 ^ w - b.toNat + a.toNat) := by
    have := b.isLt
    omega
  rw [aluSub, signedOf_toNat hw, signedOf_toNat hw, signedOvf_eq_ne_bmod hw, hint, hnat]
  simp only [BitVec.toNat_sub, BitVec.toNat_ofNat, Nat.add_mod_mod, Nat.mod_eq_of_lt hcin]

end

section
variable {w : Nat} (a b : BitVec w) (s : Nat)

theorem aluShl_toNat : aluShl w a.toNat s =
    { r := (a <<< s).toNat, c := decide (1 ≤ s ∧ s ≤ w) && a.getLsbD (w - s), v := false } := by
  have hr : (if s < w then a.toNat * 2 ^ s % 2 ^ w else 0) = (a <<< s).toNat := by
    rw [BitVec.toNat_shiftLeft, Nat.shiftLeft_eq]
    split
    · rfl
    · next h => exact (Nat.mod_eq_zero_of_dvd (Dvd.dvd.mul_left (Nat.pow_dvd_pow 2 (Nat.not_lt.mp h)) _)).symm
  rw [aluShl, hr, ← Bool.decide_and]
  rfl

theorem toNat_div_two_pow_eq_zero {s : Nat} (h : ¬ s < w) : a.toNat / 2 ^ s = 0 :=
  Nat.div_eq_of_lt (a.isLt.trans_le (Nat.pow_le_pow_right Nat.two_pos (Nat.not_lt.mp h)))

/-- The quotient of a right shift needs no case of its own for a shift by the whole width. -/
theorem shr_quotient : (if s < w then a.toNat / 2 ^ s else 0) = a.toNat / 2 ^ s := by
  split
  · rfl
  · next h => exact (toNat_div_two_pow_eq_zero a h).symm

theorem aluShr_toNat : aluShr w a.toNat s =
    { r := (a >>> s).toNat, c := decide (1 ≤ s ∧ s ≤ w) && a.getLsbD (s - 1), v := false } := by
  rw [aluShr, shr_quotient, BitVec.toNat_ushiftRight, Nat.shiftRight_eq_div_pow, ← Bool.decide_and]
  rfl

/-- Shifting in ones from the left is shifting the complement and complementing again. -/
theorem div_add_ones_eq_compl_div :
    a.toNat / 2 ^ s + (2 ^ w - 2 ^ (w - min s w)) = 2 ^ w - 1 - (2 ^ w - 1 - a.toNat) / 2 ^ s := by
  by_cases h : s < w
  · have hpow : 2 ^ s * 2 ^ (w - s) = 2 ^ w := by rw [← Nat.pow_add, Nat.add_sub_cancel' h.le]
    have hdiv : (2 ^ w - 1 - a.toNat) / 2 ^ s = 2 ^ (w - s) - (a.toNat / 2 ^ s + 1) := by
      rw [Nat.sub_sub, Nat.add_comm 1, ← hpow]
      exact Nat.mul_sub_div _ _ _ (hpow ▸ a.isLt)
    have hlt : a.toNat / 2 ^ s < 2 ^ (w - s) := Nat.div_lt_of_lt_mul (hpow ▸ a.isLt)
    have hle : 2 ^ (w - s) ≤ 2 ^ w := Nat.pow_le_pow_right Nat.two_pos (Nat.sub_le w s)
    rw [Nat.min_eq_left h.le, hdiv]
    generalize 2 ^ (w - s) = m, a.toNat / 2 ^ s = q, 2 ^ w = n at hlt hle ⊢
    omega
  · have hcompl : (2 ^ w - 1 - a.toNat) / 2 ^ s = 0 := by
      rw [← BitVec.toNat_not]
      exact toNat_div_two_pow_eq_zero (~~~a) h
    rw [toNat_div_two_pow_eq_zero a h, hcompl, Nat.min_eq_right (Nat.not_lt.mp h), Nat.sub_self]
    omega

theorem aluSar_toNat : aluSar w a.toNat s =
    { r := (a.sshiftRight s).toNat, c := decide (1 ≤ s) && if s < w then a.getLsbD (s - 1) else a.msb, v := false } := by
  have hsign : a.toNat.testBit (w - 1) = a.msb := (BitVec.msb_eq_getLsbD_last a).symm
  rw [aluSar, hsign, shr_quotient, BitVec.toNat_sshiftRight]
  simp only [Nat.shiftRight_eq_div_pow]
  cases a.msb with
  | false => rfl
  | true => simp only [if_true, div_add_ones_eq_compl_div, BitVec.getLsbD]

/-- The end-around carry keeps the sum within the width. -/
theorem aluCsum_r_lt : (aluCsum w a.toNat b.toNat).r < 2 ^ w := by
  have ha := a.isLt
  have hb := b.isLt
  rw [aluCsum]
  by_cases hcarry : a.toNat + b.toNat < 2 ^ w
  · simpa only [Nat.mod_eq_of_lt hcarry, Nat.div_eq_of_lt hcarry, Nat.add_zero] using hcarry
  · have hdiv : (a.toNat + b.toNat) / 2 ^ w = 1 := Nat.div_eq_of_lt_le (by omega) (by omega)
    have hsplit := Nat.mod_add_div (a.toNat + b.toNat) (2 ^ w)
    rw [hdiv] at hsplit
    simp only [hdiv]
    omega

/-- `2 ^ w` counts as 1 in a sum with end-around carry. -/
theorem aluCsum_modEq (a b : Nat) : (aluCsum w a b).r ≡ a + b [MOD 2 ^ w - 1] := by
  have hone : 1 ≡ 2 ^ w [MOD 2 ^ w - 1] := (Nat.modEq_iff_dvd' Nat.one_le_two_pow).mpr dvd_rfl
  calc (a + b) % 2 ^ w + (a + b) / 2 ^ w
      = (a + b) % 2 ^ w + 1 * ((a + b) / 2 ^ w) := by rw [Nat.one_mul]
    _ ≡ (a + b) % 2 ^ w + 2 ^ w * ((a + b) / 2 ^ w) [MOD 2 ^ w - 1] := (hone.mul_right _).add_left _
    _ = a + b := Nat.mod_add_div _ _

end

/-! ### What each code answers -/

section
variable {w : Nat} (a b : BitVec w) (cin imm : Nat)

theorem alu_passA : alu 0x00 w a.toNat b.toNat cin imm = aluPlain a.toNat := by
  simp only [alu, BitVec.toNat_mod_cancel]

theorem alu_passB : alu 0x01 w a.toNat b.toNat cin imm = aluPlain b.toNat := by
  simp only [alu, BitVec.toNat_mod_cancel]

theorem alu_add (hw : 0 < w) : alu 0x02 w a.toNat b.toNat cin imm =
    { r := (a + b).toNat, c := decide (2 ^ w ≤ a.toNat + b.toNat), v := decide (a.toInt + b.toInt ≠ (a + b).toInt) } := by
  simpa [alu] using aluAdd_toNat hw a b 0

theorem alu_addc (hw : 0 < w) : alu 0x03 w a.toNat b.toNat cin imm =
    { r := (a + b + BitVec.ofNat w cin).toNat, c := decide (2 ^ w ≤ a.toNat + b.toNat + cin),
      v := decide (a.toInt + b.toInt + cin ≠ (a + b + BitVec.ofNat w cin).toInt) } := by
  simpa only [alu, BitVec.toNat_mod_cancel] using aluAdd_toNat hw a b cin

theorem alu_sub (hw : 0 < w) : alu 0x04 w a.toNat b.toNat cin imm =
    { r := (a - b).toNat, c := decide (a.toNat < b.toNat), v := decide (a.toInt - b.toInt ≠ (a - b).toInt) } := by
  simpa [alu] using aluSub_toNat hw a b Nat.two_pos

theorem alu_subb (hw : 0 < w) {cin : Nat} (hc : cin < 2) : alu 0x05 w a.toNat b.toNat cin imm =
    { r := (a - b - BitVec.ofNat w cin).toNat, c := decide (a.toNat < b.toNat + cin),
      v := decide (a.toInt - b.toInt - cin ≠ (a - b - BitVec.ofNat w cin).toInt) } := by
  simpa only [alu, BitVec.toNat_mod_cancel] using aluSub_toNat hw a b hc

theorem alu_and : alu 0x06 w a.toNat b.toNat cin imm = aluPlain (a &&& b).toNat := by
  simp only [alu, BitVec.toNat_mod_cancel, BitVec.toNat_and]

theorem alu_or : alu 0x07 w a.toNat b.toNat cin imm = aluPlain (a ||| b).toNat := by
  simp only [alu, BitVec.toNat_mod_cancel, BitVec.toNat_or]

theorem alu_xor : alu 0x08 w a.toNat b.toNat cin imm = aluPlain (a ^^^ b).toNat := by
  simp only [alu, BitVec.toNat_mod_cancel, BitVec.toNat_xor]

theorem alu_andn : alu 0x09 w a.toNat b.toNat cin imm = aluPlain (a &&& ~~~b).toNat := by
  simp only [alu, BitVec.toNat_mod_cancel, BitVec.toNat_and, BitVec.toNat_not]

theorem alu_shl : alu 0x0A w a.toNat b.toNat cin imm =
    { r := (a <<< (b.toNat % 64)).toNat,
      c := decide (1 ≤ b.toNat % 64 ∧ b.toNat % 64 ≤ w) && a.getLsbD (w - b.toNat % 64), v := false } := by
  simpa only [alu, BitVec.toNat_mod_cancel] using aluShl_toNat a (b.toNat % 64)

theorem alu_shr : alu 0x0B w a.toNat b.toNat cin imm =
    { r := (a >>> (b.toNat % 64)).toNat,
      c := decide (1 ≤ b.toNat % 64 ∧ b.toNat % 64 ≤ w) && a.getLsbD (b.toNat % 64 - 1), v := false } := by
  simpa only [alu, BitVec.toNat_mod_cancel] using aluShr_toNat a (b.toNat % 64)

theorem alu_sar : alu 0x0C w a.toNat b.toNat cin imm =
    { r := (a.sshiftRight (b.toNat % 64)).toNat,
      c := decide (1 ≤ b.toNat % 64) && if b.toNat % 64 < w then a.getLsbD (b.toNat % 64 - 1) else a.msb, v := false } := by
  simpa only [alu, BitVec.toNat_mod_cancel] using aluSar_toNat a (b.toNat % 64)

theorem alu_minu : alu 0x0F w a.toNat b.toNat cin imm = aluPlain (min a.toNat b.toNat) := by
  simp only [alu, BitVec.toNat_mod_cancel]

theorem alu_maxu : alu 0x10 w a.toNat b.toNat cin imm = aluPlain (max a.toNat b.toNat) := by
  simp only [alu, BitVec.toNat_mod_cancel]

theorem alu_csum16 : alu 0x11 w a.toNat b.toNat cin imm = aluCsum w a.toNat b.toNat := by
  simp only [alu, BitVec.toNat_mod_cancel]

/-- CMP answers what SUB answers. -/
theorem alu_cmp : alu 0x0D w a.toNat b.toNat cin imm = alu 0x04 w a.toNat b.toNat cin imm := rfl

/-- TEST answers what AND answers. -/
theorem alu_test : alu 0x0E w a.toNat b.toNat cin imm = alu 0x06 w a.toNat b.toNat cin imm := rfl

theorem alu_extract : alu 0x12 w a.toNat b.toNat cin imm =
    aluPlain (a.toNat / 2 ^ (b.toNat % 64) % 2 ^ (b.toNat / 256 % 64 + 1)) := by
  simp only [alu, BitVec.toNat_mod_cancel]

/-- Every code's result fits the width (R259): most results are words already. -/
theorem alu_r_lt (hw : 0 < w) {cin : Nat} (hc : cin < 2) (op : Nat) : (alu op w a.toNat b.toNat cin imm).r < 2 ^ w := by
  match op with
  | 0x00 => exact alu_passA a b cin imm ▸ a.isLt
  | 0x01 => exact alu_passB a b cin imm ▸ b.isLt
  | 0x02 => exact alu_add a b cin imm hw ▸ BitVec.isLt _
  | 0x03 => exact alu_addc a b cin imm hw ▸ BitVec.isLt _
  | 0x04 | 0x0D => exact alu_sub a b cin imm hw ▸ BitVec.isLt _
  | 0x05 => exact alu_subb a b imm hw hc ▸ BitVec.isLt _
  | 0x06 | 0x0E => exact alu_and a b cin imm ▸ BitVec.isLt _
  | 0x07 => exact alu_or a b cin imm ▸ BitVec.isLt _
  | 0x08 => exact alu_xor a b cin imm ▸ BitVec.isLt _
  | 0x09 => exact alu_andn a b cin imm ▸ BitVec.isLt _
  | 0x0A => exact alu_shl a b cin imm ▸ BitVec.isLt _
  | 0x0B => exact alu_shr a b cin imm ▸ BitVec.isLt _
  | 0x0C => exact alu_sar a b cin imm ▸ BitVec.isLt _
  | 0x0F => exact alu_minu a b cin imm ▸ (min_le_left _ _).trans_lt a.isLt
  | 0x10 => exact alu_maxu a b cin imm ▸ max_lt a.isLt b.isLt
  | 0x11 => exact alu_csum16 a b cin imm ▸ aluCsum_r_lt a b
  | 0x12 => exact alu_extract a b cin imm ▸ ((Nat.mod_le _ _).trans (Nat.div_le_self _ _)).trans_lt a.isLt
  | 0x13 => exact Nat.mod_lt _ (Nat.two_pow_pos w)
  | n + 0x14 => exact Nat.two_pow_pos w

end

/-- The codes of moves, logic, minimum, maximum and fields leave C and V clear. -/
theorem alu_flags_clear (w a b cin imm : Nat) {op : Nat}
    (hop : op ∈ [0x00, 0x01, 0x06, 0x07, 0x08, 0x09, 0x0F, 0x10, 0x12, 0x13]) :
    (alu op w a b cin imm).c = false ∧ (alu op w a b cin imm).v = false := by
  simp only [List.mem_cons, List.not_mem_nil, or_false] at hop
  rcases hop with rfl | rfl | rfl | rfl | rfl | rfl | rfl | rfl | rfl | rfl <;> exact ⟨rfl, rfl⟩

theorem aluWrites_eq_false_iff (op : Nat) : aluWrites op = false ↔ op = 0x0D ∨ op = 0x0E := by
  rw [aluWrites, Bool.and_eq_false_iff, bne_eq_false_iff_eq, bne_eq_false_iff_eq]

end Sys2Proof.Machine

namespace Sys2Proof.Proofs
open Machine

/-- Settles O53: the equation of each code, for every width above 0. -/
theorem kerfAlu : Obligations.KerfAlu := by
  intro w a b cin imm hmem hc r s
  have hw : 0 < w := by
    refine Nat.pos_of_ne_zero ?_
    rintro rfl
    exact absurd hmem (by decide)
  have hadd : r 0x02 = _ := alu_add a b cin imm hw
  have haddc : r 0x03 = _ := alu_addc a b cin imm hw
  have hsub : r 0x04 = _ := alu_sub a b cin imm hw
  have hsubb : r 0x05 = _ := alu_subb a b imm hw hc
  have hshl : r 0x0A = _ := alu_shl a b cin imm
  have hshr : r 0x0B = _ := alu_shr a b cin imm
  have hsar : r 0x0C = _ := alu_sar a b cin imm
  have hcsum : r 0x11 = _ := alu_csum16 a b cin imm
  refine ⟨alu_r_lt a b imm hw hc, congrArg AluOut.r (alu_passA a b cin imm), congrArg AluOut.r (alu_passB a b cin imm),
    congrArg AluOut.r hadd, congrArg AluOut.c hadd, congrArg AluOut.v hadd,
    congrArg AluOut.r haddc, congrArg AluOut.c haddc, congrArg AluOut.v haddc,
    congrArg AluOut.r hsub, congrArg AluOut.c hsub, congrArg AluOut.v hsub, alu_cmp a b cin imm,
    congrArg AluOut.r hsubb, congrArg AluOut.c hsubb, congrArg AluOut.v hsubb,
    congrArg AluOut.r (alu_and a b cin imm), congrArg AluOut.r (alu_or a b cin imm), congrArg AluOut.r (alu_xor a b cin imm),
    congrArg AluOut.r (alu_andn a b cin imm), alu_test a b cin imm,
    congrArg AluOut.r hshl, congrArg AluOut.c hshl, congrArg AluOut.r hshr, congrArg AluOut.c hshr,
    congrArg AluOut.r hsar, congrArg AluOut.c hsar,
    congrArg AluOut.r (alu_minu a b cin imm), congrArg AluOut.r (alu_maxu a b cin imm),
    hcsum ▸ aluCsum_modEq a.toNat b.toNat, congrArg AluOut.c hcsum,
    fun op hop => alu_flags_clear w a.toNat b.toNat cin imm hop, aluWrites_eq_false_iff⟩

end Sys2Proof.Proofs

/-! ## The matching of a plane (R282, R284) -/

namespace Sys2Proof.Machine

/-! ### Grants and accepts of an iteration -/

section
variable (s : State) (plane : Nat) (req m : List (Nat × Nat))

/-- The ingress group to which an egress group grants: the first, from its grant pointer on, whose request is free of the match so far. -/
def grantOf (j : Nat) : Option Nat :=
  firstFrom (fun i => (req.filter (fun r => m.all (fun x => x.1 != r.1 && x.2 != r.2))).contains (i, j)) (ptrOf s plane 0 j)

/-- The egress group whose grant an ingress group accepts: the first from its accept pointer on. -/
def acceptOf (i : Nat) : Option Nat :=
  firstFrom (fun j => ((List.range 16).filterMap (fun j => (grantOf s plane req m j).map (fun i => (i, j)))).contains (i, j))
    (ptrOf s plane 1 i)

theorem matchIter_eq : matchIter s plane req m =
    (List.range 16).filterMap (fun i => (acceptOf s plane req m i).map (fun j => (i, j))) := rfl

end

section
variable {s : State} {plane : Nat} {req m : List (Nat × Nat)}

theorem grantOf_free {i j : Nat} (h : grantOf s plane req m j = some i) :
    (i, j) ∈ req ∧ ∀ y ∈ m, y.1 ≠ i ∧ y.2 ≠ j := by
  have hfree := List.find?_some h
  simpa using hfree

theorem acceptOf_granted {i j : Nat} (h : acceptOf s plane req m i = some j) : grantOf s plane req m j = some i := by
  have hgranted := List.find?_some h
  simp only [List.contains_iff_mem, List.mem_filterMap, Option.map_eq_some_iff, Prod.mk.injEq] at hgranted
  obtain ⟨k, -, i', hgrant, rfl, rfl⟩ := hgranted
  exact hgrant

theorem grantOf_of_mem_matchIter {x : Nat × Nat} (h : x ∈ matchIter s plane req m) : grantOf s plane req m x.2 = some x.1 := by
  simp only [matchIter_eq, List.mem_filterMap, Option.map_eq_some_iff] at h
  obtain ⟨i, -, j, haccept, rfl⟩ := h
  exact acceptOf_granted haccept

/-- What is answered for some of a list's elements comes in the order of the list. -/
theorem map_fst_filterMap_sublist (f : Nat → Option Nat) (l : List Nat) :
    ((l.filterMap (fun i => (f i).map (fun j => (i, j)))).map Prod.fst).Sublist l := by
  induction l with
  | nil => exact .slnil
  | cons i l ih =>
    cases h : f i with
    | none => simpa [h] using ih.cons i
    | some j => simpa [h] using ih

/-- An iteration accepts one grant for an ingress group. -/
theorem matchIter_ingress_nodup : ((matchIter s plane req m).map Prod.fst).Nodup :=
  List.nodup_range.sublist (map_fst_filterMap_sublist (acceptOf s plane req m) (List.range 16))

/-- An egress group grants to one ingress group in an iteration. -/
theorem matchIter_egress_nodup : ((matchIter s plane req m).map Prod.snd).Nodup := by
  refine List.Nodup.map_on (fun x hx y hy hxy => ?_) matchIter_ingress_nodup.of_map
  have hgx := grantOf_of_mem_matchIter hx
  rw [hxy, grantOf_of_mem_matchIter hy] at hgx
  exact Prod.ext (Option.some.inj hgx).symm hxy

end

/-! ### The rounds of a slot -/

/-- A set of requests with every ingress and every egress group at most once. -/
structure IsMatching (req m : List (Nat × Nat)) : Prop where
  requested : ∀ x ∈ m, x ∈ req
  ingress : (m.map Prod.fst).Nodup
  egress : (m.map Prod.snd).Nodup

theorem IsMatching.nil (req : List (Nat × Nat)) : IsMatching req [] :=
  ⟨fun _ h => absurd h List.not_mem_nil, List.nodup_nil, List.nodup_nil⟩

/-- An iteration adds to a matching only requests of groups that it leaves free. -/
theorem IsMatching.append_matchIter {req m : List (Nat × Nat)} (h : IsMatching req m) (s : State) (plane : Nat) :
    IsMatching req (m ++ matchIter s plane req m) := by
  have hnew {x : Nat × Nat} (hx : x ∈ matchIter s plane req m) := grantOf_free (grantOf_of_mem_matchIter hx)
  refine ⟨fun x hx => (List.mem_append.mp hx).elim (h.requested x) (fun hx => (hnew hx).1), ?_, ?_⟩
  · rw [List.map_append]
    refine h.ingress.append matchIter_ingress_nodup (List.disjoint_left.mpr fun i hold hiter => ?_)
    obtain ⟨y, hy, rfl⟩ := List.mem_map.mp hold
    obtain ⟨x, hx, hxy⟩ := List.mem_map.mp hiter
    exact ((hnew hx).2 y hy).1 hxy.symm
  · rw [List.map_append]
    refine h.egress.append matchIter_egress_nodup (List.disjoint_left.mpr fun j hold hiter => ?_)
    obtain ⟨y, hy, rfl⟩ := List.mem_map.mp hold
    obtain ⟨x, hx, hxy⟩ := List.mem_map.mp hiter
    exact ((hnew hx).2 y hy).2 hxy.symm

theorem matchIter_isMatching (s : State) (plane : Nat) (req : List (Nat × Nat)) : IsMatching req (matchIter s plane req []) :=
  (IsMatching.nil req).append_matchIter s plane

/-! ### The pointers -/

/-- The pointers of an accept: each goes one past its partner. -/
def movePtrs (plane : Nat) (ij : Nat × Nat) (s : State) : State :=
  { s with lnd := { s.lnd with
    ptr := tput 0 (tput 0 s.lnd.ptr (k3 plane 0 ij.2) ((ij.1 + 1) % 16 + 1)) (k3 plane 1 ij.1) ((ij.2 + 1) % 16 + 1) } }

theorem matchPlane_snd (plane : Nat) (req : List (Nat × Nat)) (s : State) :
    (matchPlane plane req s).2 = foldS (matchIter s plane req []) (movePtrs plane) s := rfl

theorem ptrOf_moved {s : State} {plane kind g n : Nat} (h : tget 0 s.lnd.ptr (k3 plane kind g) = n + 1) :
    ptrOf s plane kind g = n := by
  rw [ptrOf, h]
  rfl

theorem ptrOf_congr {s t : State} {plane kind g : Nat} (hring : t.ring = s.ring)
    (h : tget 0 t.lnd.ptr (k3 plane kind g) = tget 0 s.lnd.ptr (k3 plane kind g)) : ptrOf t plane kind g = ptrOf s plane kind g := by
  rw [ptrOf, ptrOf, h, hring]

theorem movePtrs_ptr (plane : Nat) (ij : Nat × Nat) (s : State) : (movePtrs plane ij s).lnd.ptr =
    tput 0 (tput 0 s.lnd.ptr (k3 plane 0 ij.2) ((ij.1 + 1) % 16 + 1)) (k3 plane 1 ij.1) ((ij.2 + 1) % 16 + 1) := rfl

theorem ptrOf_movePtrs_grant (plane : Nat) (ij : Nat × Nat) (s : State) (j : Nat) :
    ptrOf (movePtrs plane ij s) plane 0 j = if j = ij.2 then (ij.1 + 1) % 16 else ptrOf s plane 0 j := by
  split
  · next h => exact ptrOf_moved (by rw [movePtrs_ptr, tget_tput_ne _ _ _ (by simp), h, tget_tput_self])
  · next h => exact ptrOf_congr rfl (by rw [movePtrs_ptr, tget_tput_ne _ _ _ (by simp), tget_tput_ne _ _ _ (by simpa using h)])

theorem ptrOf_movePtrs_accept (plane : Nat) (ij : Nat × Nat) (s : State) (i : Nat) :
    ptrOf (movePtrs plane ij s) plane 1 i = if i = ij.1 then (ij.2 + 1) % 16 else ptrOf s plane 1 i := by
  split
  · next h => exact ptrOf_moved (by rw [movePtrs_ptr, h, tget_tput_self])
  · next h => exact ptrOf_congr rfl (by rw [movePtrs_ptr, tget_tput_ne _ _ _ (by simpa using h), tget_tput_ne _ _ _ (by simp)])

section
variable {α β : Type} [DecidableEq β] {f : α → State → State} {key : α → β} {val : α → Nat} {read : State → β → Nat}
  (hf : ∀ a t b, read (f a t) b = if b = key a then val a else read t b)
include hf

/-- A fold whose steps each write one place leaves the places that none of them names. -/
theorem foldS_writes_other {l : List α} (s : State) {b : β} (hb : b ∉ l.map key) : read (foldS l f s) b = read s b := by
  induction l generalizing s with
  | nil => rfl
  | cons c l ih =>
    obtain ⟨hne, hl⟩ := not_or.mp (List.mem_cons.not.mp hb)
    exact (ih (f c s) hl).trans ((hf c s b).trans (if_neg hne))

/-- Where no two of its steps write one place, each place reads what its step wrote. -/
theorem foldS_writes_self {l : List α} (hl : (l.map key).Nodup) (s : State) {a : α} (ha : a ∈ l) :
    read (foldS l f s) (key a) = val a := by
  induction l generalizing s with
  | nil => exact absurd ha List.not_mem_nil
  | cons c l ih =>
    obtain ⟨hc, hl⟩ := List.nodup_cons.mp hl
    rcases List.mem_cons.mp ha with rfl | ha
    · exact (foldS_writes_other hf (f a s) hc).trans ((hf a s (key a)).trans (if_pos rfl))
    · exact ih hl (f c s) ha

end

end Sys2Proof.Machine

namespace Sys2Proof.Proofs
open Machine

/-- Settles O49: an iteration extends a matching by requests of free groups, and each pointer is moved by at most one accept of the
first. -/
theorem planeMatching : Obligations.PlaneMatching := by
  intro s plane req m t first
  have hfirst : IsMatching req first := matchIter_isMatching s plane req
  have hm : IsMatching req m := (hfirst.append_matchIter t plane).append_matchIter t plane
  have ht : t = foldS first (movePtrs plane) s := matchPlane_snd plane req s
  have hgrant := ptrOf_movePtrs_grant plane
  have haccept := ptrOf_movePtrs_accept plane
  have frame {β : Type} (g : LndSt → β) (hg : ∀ (x : LndSt) p, g { x with ptr := p } = g x) : g t.lnd = g s.lnd :=
    foldS_keeps s (fun u => g u.lnd) (movePtrs plane) (fun _ _ => hg _ _) first
  refine ⟨hm.requested, hm.ingress, hm.egress,
    (List.sublist_append_left _ _).trans (List.sublist_append_left _ _), fun i j hij => ?_, fun j hj => ?_, fun i hi => ?_,
    frame LndSt.voq (fun _ _ => rfl), frame LndSt.path (fun _ _ => rfl), frame LndSt.flight (fun _ _ => rfl)⟩ <;> rw [ht]
  · exact ⟨foldS_writes_self (read := fun u => ptrOf u plane 0) hgrant hfirst.egress s hij,
      foldS_writes_self (read := fun u => ptrOf u plane 1) haccept hfirst.ingress s hij⟩
  · exact foldS_writes_other (read := fun u => ptrOf u plane 0) hgrant s hj
  · exact foldS_writes_other (read := fun u => ptrOf u plane 1) haccept s hi

end Sys2Proof.Proofs

/-! ## The scheduler while the rails are held (R328, R561) -/

namespace Sys2Proof.Machine

/-- Once the rails are to fall, no port begins a frame (R561). -/
theorem schedStart_falling {s : State} (h : s.pwr.fallAt.isSome = true) (p clk : Nat) :
    schedStart p clk s = { s with clock := clk } := if_pos (by simp [h])

/-- A copy of class 7 at the scheduler of port 0. -/
def sendable : Done := { copy := { waitingCopy with cls := 7 }, bytes := zeros 60, out := 0 }

/-- A forwarding module with that copy, whose port is up, after a power failure. -/
def railsHeldSender : State := powerFail
  { State.reset with
    md := { mode := .forwarding, upDone := true },
    link := { port := [(k1 0, { cfg := 0x400#128, up := true })] },
    sch := { queue := [(k3 0 7 0, [sendable])] } }

/-- The clock at which a copy that is chosen at clock 0 has its first byte at the MAC (R328). -/
def heldStart : Nat := nowClk { railsHeldSender with clock := 0 } + 16

/-- The module with the transmissions of port 0 as they stand at that clock. -/
def heldMac : State := macAdvance 0 heldStart { railsHeldSender with clock := 0 }

/-- The copy is the port's one head, and nothing but the power failure keeps it from beginning. -/
theorem railsHeldSender_heads : heads heldMac 0 = [(k3 0 7 0, sendable)] := by decide +kernel

theorem railsHeldSender_mayBegin : mayBegin heldMac 0 heldStart sendable = true := by decide +kernel

theorem railsHeldSender_not_oversize :
    gateOversize heldMac 0 7 (wireClocks heldMac 0 (wireBytes heldMac 0 sendable)) = false := by decide +kernel

/-- A copy that begins leaves its queue. -/
theorem railsHeldSender_started :
    (dropOversize 0 (startCopy 0 heldStart (k3 0 7 0, sendable) heldMac)).sch.queue = [] := by decide +kernel

theorem railsHeldSender_queue : railsHeldSender.sch.queue = [(k3 0 7 0, [sendable])] := by decide +kernel

end Sys2Proof.Machine

namespace Sys2Proof.Proofs
open Machine

/-- Refutes O54: between a power failure and the fall of the rails no port begins a frame (R561), so SCHED_START leaves the copy of class 7
that waits in `railsHeldSender` in its queue; the statement's third clause, which does not ask whether the rails are to fall, has it
begin. The module is running and one POWER_FAIL behind a copy that may begin; it is not claimed to be reached from reset. -/
theorem not_schedulerRows : ¬ Obligations.SchedulerRows := by
  intro h
  obtain ⟨-, -, htake, -⟩ := h railsHeldSender 0 0 0 (by decide)
  have hbegins := htake (by decide) (by decide) (k3 0 7 0, sendable) railsHeldSender_heads (by decide) (by decide)
    railsHeldSender_mayBegin railsHeldSender_not_oversize
  have hholds : exec (.schedStart 0 0) railsHeldSender = .next { railsHeldSender with clock := 0 } :=
    row_running (by decide) (schedStart_falling (by decide) 0 0)
  have hstate := Host.Outcome.next.inj (hholds.symm.trans hbegins)
  have hqueue : railsHeldSender.sch.queue = [] := (congrArg (fun t => t.sch.queue) hstate).trans railsHeldSender_started
  rw [railsHeldSender_queue] at hqueue
  exact List.cons_ne_nil _ _ hqueue

end Sys2Proof.Proofs

/-! ## Spill writes, readback and the page walk (R274, R312 to R315) -/

namespace Sys2Proof.Machine

theorem voqOf_setVoq_self (k : Key) (v : Voq) (s : State) : voqOf (setVoq k v s) k = v := tget_tput_self _ _ _ _

theorem voqOf_congr {s t : State} (h : t.lnd = s.lnd) (k : Key) : voqOf t k = voqOf s k := by
  rw [voqOf, h, voqOf]

/-! ### A request leaves the Landing as it was (R347, R352, R355) -/

@[simp] theorem startWake_lnd (ch r : Nat) (s : State) : (startWake ch r s).lnd = s.lnd := by
  unfold startWake
  split <;> rfl

@[simp] theorem countDelays_lnd (s : State) : (countDelays s).lnd = s.lnd :=
  foldS_keeps s State.lnd _ (fun r t => by split <;> rfl) _

@[simp] theorem enqueueReq_lnd (r : DReq) (s : State) : (enqueueReq r s).lnd = s.lnd := by
  simp only [enqueueReq, countDelays_lnd, touchRank, startWake_lnd, modRank_lnd]
  split
  · exact dropBack_lnd s r.page
  · rfl

@[simp] theorem writeReq_lnd (k : Key) (c : Copy) (start : Nat) (data : List (List Byte)) (j : Nat) (s : State) :
    (writeReq k c start data j s).lnd = s.lnd := enqueueReq_lnd _ s

/-! ### Pages for a VOQ (R312, R314, R353) -/

/-- `t` is `s` but for the DRAM controller. -/
def DramOnly (s t : State) : Prop := ∃ x, t = { s with dram := x }

theorem DramOnly.refl (s : State) : DramOnly s s := ⟨s.dram, rfl⟩

theorem DramOnly.modRank {s t : State} (h : DramOnly s t) (ch r : Nat) (f : Rank → Rank) : DramOnly s (modRank ch r f t) := by
  obtain ⟨_, rfl⟩ := h
  exact ⟨_, rfl⟩

theorem DramOnly.modHead {s t : State} (h : DramOnly s t) (page : Nat) (f : PageHead → PageHead) :
    DramOnly s (modHead page f t) := by
  obtain ⟨_, rfl⟩ := h
  exact ⟨_, rfl⟩

theorem DramOnly.setDram {s t : State} (h : DramOnly s t) (x : DramSt) : DramOnly s { t with dram := x } := by
  obtain ⟨_, rfl⟩ := h
  exact ⟨_, rfl⟩

theorem DramOnly.wakeForPages {s t : State} (h : DramOnly s t) (ch : Nat) : DramOnly s (wakeForPages ch t) := by
  unfold Machine.wakeForPages startWake
  dsimp only
  split
  · split
    · split
      · exact h.modRank _ _ _
      · exact h
    · exact h
  · exact h

theorem DramOnly.wakeAll {s t : State} (h : DramOnly s t) : DramOnly s (wakeAll t) :=
  foldS_induct (P := DramOnly s) (fun ch _ hu => hu.wakeForPages ch) _ h

theorem DramOnly.takePage {s t : State} (h : DramOnly s t) (ch r : Nat) : DramOnly s (takePage ch r t).2 := by
  unfold Machine.takePage
  dsimp only
  split <;> exact h.modRank _ _ _

theorem allocPage_dramOnly {s t : State} {p ver : Nat} (h : allocPage s = some (p, ver, t)) : DramOnly s t := by
  unfold allocPage at h
  dsimp only at h
  split at h
  · contradiction
  · simp only [Option.some.injEq, Prod.mk.injEq] at h
    obtain ⟨-, -, rfl⟩ := h
    exact (((DramOnly.refl s).wakeAll.takePage _ _).setDram _).wakeForPages _

theorem DramOnly.voqOf {s t : State} (h : DramOnly s t) (k : Key) : voqOf t k = voqOf s k := by
  obtain ⟨_, rfl⟩ := h
  rfl

theorem DramOnly.voqPages {s t : State} (h : DramOnly s t) : voqPages t = voqPages s := by
  obtain ⟨_, rfl⟩ := h
  rfl

/-- A page more in the chain of a VOQ. -/
def chained (k : Key) (pg : Nat × Nat) (s u : State) : State :=
  setVoq k { voqOf s k with pages := (voqOf s k).pages ++ [pg] } u

/-- A VOQ's chain stays as it is, or, below `VOQ_PAGES`, takes a page behind those it holds (R312, R314). -/
theorem growPages_step (k : Key) (want fuel : Nat) (s : State) : DramOnly s (growPages k want (fuel + 1) s) ∨
    ∃ pg u, DramOnly s u ∧ (voqOf s k).pages.length < voqPages s ∧
      growPages k want (fuel + 1) s = growPages k want fuel (chained k pg s u) := by
  rw [growPages]
  dsimp only
  split
  · exact .inl (.refl s)
  · next hgrow =>
    obtain ⟨-, hroom⟩ := not_or.mp hgrow
    split
    · exact .inl (DramOnly.refl s).wakeAll
    · next p ver t halloc =>
      have ht := allocPage_dramOnly halloc
      refine .inr ⟨(p, ver), _, ?_, Nat.not_le.mp hroom, rfl⟩
      split
      · exact ht.modHead _ _
      · exact ht

theorem growPages_pages (k : Key) (want fuel : Nat) (s : State) :
    (voqOf s k).pages <+: (voqOf (growPages k want fuel s) k).pages ∧
      (voqOf (growPages k want fuel s) k).pages.length ≤ max (voqOf s k).pages.length (voqPages s) := by
  induction fuel generalizing s with
  | zero => exact ⟨List.prefix_rfl, le_max_left _ _⟩
  | succ fuel ih =>
    rcases growPages_step k want fuel s with hstop | ⟨pg, u, hu, hlt, hgrow⟩
    · rw [hstop.voqOf]
      exact ⟨List.prefix_rfl, le_max_left _ _⟩
    · obtain ⟨hpre, hlen⟩ := ih (chained k pg s u)
      have hpages : (voqOf (chained k pg s u) k).pages = (voqOf s k).pages ++ [pg] := by rw [chained, voqOf_setVoq_self]
      have hlimit : voqPages (chained k pg s u) = voqPages s := hu.voqPages
      rw [hpages] at hpre hlen
      rw [hlimit, List.length_append, List.length_singleton] at hlen
      rw [hgrow]
      exact ⟨(List.prefix_append _ _).trans hpre, by omega⟩

/-! ### SPILL_WRITE (R274, R312, R314) -/

/-- The slots of a copy that its VOQ's pages hold. -/
def sentData (k : Key) (y : Copy) (s : State) : List (List Byte) :=
  ((slotData s y).drop (voqOf s k).part).take (slotRoom (voqOf s k))

/-- The VOQ behind the slots that are sent for its first tail copy. -/
def sentVoq (k : Key) (y : Copy) (s : State) : Voq :=
  let v := voqOf s k
  let n := (sentData k y s).length
  let whole := v.part + n == copySlots y
  { v with wr := v.wr + n, part := if whole then 0 else v.part + n,
           tail := if whole then v.tail.drop 1 else y :: v.tail.drop 1, writing := if whole then some y else none }

theorem voqOf_sendSlots (k : Key) (old : Nat) (x : Copy) (s : State) : voqOf (sendSlots k old x s) k =
    sentVoq k (if (voqOf s k).part = 0 then { x with at_ := nowClk s } else x) s := by
  unfold sendSlots
  dsimp only
  rw [voqOf_congr (foldS_keeps _ State.lnd _ (fun j t => writeReq_lnd _ _ _ _ j t) _), voqOf_setVoq_self]
  rfl

theorem sentVoq_whole {k : Key} {y : Copy} {s : State}
    (h : (voqOf s k).part + (sentData k y s).length = copySlots y) :
    (sentVoq k y s).writing = some y ∧ (sentVoq k y s).tail = (voqOf s k).tail.drop 1 ∧ (sentVoq k y s).part = 0 := by
  simp [sentVoq, h]

theorem sentVoq_part {k : Key} {y : Copy} {s : State}
    (h : (voqOf s k).part + (sentData k y s).length ≠ copySlots y) :
    (sentVoq k y s).writing = none ∧ (sentVoq k y s).tail = y :: (voqOf s k).tail.drop 1 ∧
      (sentVoq k y s).part = (voqOf s k).part + (sentData k y s).length := by
  simp [sentVoq, h]

theorem readCells_clean (c : Copy) (s : State) : readCells c [] s = (c, s) :=
  List.foldl_fixed' (fun n => by rw [cellErr_nil, markCell_nil]) _

section
variable {k : Key} {s : State} (errs : CellErrs) (st : Stores)

theorem spillWrite_empty (h : (voqOf s k).tail = []) : spillWrite k errs st s = voqNorm k s := by
  unfold spillWrite
  simp only [h]

theorem spillWrite_waits (ht : (voqOf s k).tail ≠ [])
    (h : (voqOf s k).spilling = false ∨ (voqOf s k).writing.isSome = true ∨ walkDue s k = true) : spillWrite k errs st s = s := by
  obtain ⟨x, r, hx⟩ := List.exists_cons_of_ne_nil ht
  unfold spillWrite
  simp only [hx]
  exact if_pos (by rcases h with h | h | h <;> simp [h])

variable {x : Copy} {r : List Copy} (hx : (voqOf s k).tail = x :: r) (hs : (voqOf s k).spilling = true)
  (hw : (voqOf s k).writing = none) (hd : walkDue s k = false)
include hx hs hw hd

theorem spillWrite_bad (hp : (voqOf s k).part = 0) (hb : storesBad s x st ≠ []) : spillWrite k errs st s =
    settle x false (dropIngress x 0 (blazeDrop x 10 0x44 0 (stPipe x.fi.stamp)
      (foldS (storesBad s x st) (storeFinding x) (setVoq k { voqOf s k with tail := r } s)))) := by
  unfold spillWrite
  simp only [hx]
  rw [if_neg (by simp [hs, hw, hd]), if_pos ⟨hp, hb⟩]

theorem spillWrite_held (hb : (voqOf s k).part ≠ 0 ∨ storesBad s x st = []) (hh : writeHeld s k = true) :
    spillWrite k errs st s =
      toDirect k { s with buf := { s.buf with limitWait := tput false s.buf.limitWait k true } } := by
  unfold spillWrite
  simp only [hx]
  rw [if_neg (by simp [hs, hw, hd]), if_neg (fun ⟨hp, hbad⟩ => hb.elim (· hp) hbad), if_pos hh]

theorem spillWrite_sends (hb : (voqOf s k).part ≠ 0 ∨ storesBad s x st = []) (hh : writeHeld s k = false) :
    spillWrite k [] st s =
      sendSlots k (voqOf s k).pages.length x (growPages k (copySlots x - (voqOf s k).part) (copySlots x) s) := by
  unfold spillWrite
  simp only [hx]
  rw [if_neg (by simp [hs, hw, hd]), if_neg (fun ⟨hp, hbad⟩ => hb.elim (· hp) hbad), if_neg (by simp [hh])]
  simp only [readCells_clean, ite_self]

end

/-! ### SPILL_READBACK (R313) -/

section
variable {g n : Nat} {s : State}

theorem spillReadback_none (h : turnVoq s g = none) : spillReadback g s = s := by
  unfold spillReadback
  simp only [h]

theorem spillReadback_waits (h : turnVoq s g = some n) (hw : stageWaits s g = true) :
    spillReadback g s = { s with buf := { s.buf with stageWait := tput false s.buf.stageWait (k1 g) true } } := by
  unfold spillReadback
  simp only [h, hw, if_true]

/-- No copy is passed over before one that is not discarded (R315). -/
theorem passDoomed_front {k : Key} {x : Copy} {r : List Copy} (hx : (voqOf s k).dram = x :: r) (hd : x.doomed = false)
    (fuel : Nat) : passDoomed k fuel s = s := by
  cases fuel with
  | zero => rfl
  | succ fuel => simp [passDoomed, hx, hd]

/-- The turn of a group has passed VOQ number `n`. -/
def turnPassed (g n : Nat) (s : State) : State :=
  { s with buf := { s.buf with turn := tput 0 s.buf.turn (k1 g) ((n + 1) % 512 + 1) } }

theorem spillReadback_reads {x : Copy} {r : List Copy} (h : turnVoq s g = some n)
    (hx : (voqOf s (voqKey g n)).dram = x :: r) (hd : x.doomed = false) (hw : stageWaits s g = false) :
    spillReadback g s =
      foldS (List.range (voqOf s (voqKey g n)).pages.length) (readReq (voqKey g n) x (voqOf s (voqKey g n)).rd)
        (setVoq (voqKey g n)
          { voqOf s (voqKey g n) with reading := true, stage := (stagingFree s g).take (copyCells x) }
          (takeStaging g ((stagingFree s g).take (copyCells x)) (turnPassed g n s))) := by
  unfold spillReadback
  simp only [h, hw, passDoomed_front hx hd, Bool.false_eq_true, if_false]
  split
  · next hnone => exact absurd (hx.symm.trans hnone) (List.cons_ne_nil x r)
  · next hsome =>
    obtain ⟨rfl, -⟩ := List.cons.inj (hx.symm.trans hsome)
    rfl

end

/-! ### SPILL_PAGE_WALK (R315) -/

section
variable {k : Key} {s : State}

theorem spillPageWalk_idle (h : walkDue s k = false ∨ (voqOf s k).writing.isSome = true ∨ (voqOf s k).reading = true ∨
    reqsOf s 4 k = true) : spillPageWalk k s = s := by
  refine if_neg ?_
  rcases h with h | h | h | h
  · simp [h]
  · simp [Option.isSome_iff_ne_none.mp h]
  · simp [h]
  · simp [h]

variable (hd : walkDue s k = true) (hw : (voqOf s k).writing = none) (hr : (voqOf s k).reading = false)
include hd hw hr

theorem spillPageWalk_due (hq : reqsOf s 4 k = false) :
    spillPageWalk k s = foldS ((voqOf s k).pages.map Prod.fst) (walkReq k) s := if_pos (by simp [hd, hw, hr, hq])

theorem walkDone_frees (hk : k ≠ chainKey) (hq : reqsOf s 4 k = false) :
    walkDone k s = toDirect k (setVoq k { voqOf s k with dram := [] } s) := by
  rw [walkDone, if_neg (by simp [hq]), if_neg hk, if_pos (by simp [hd, hw, hr])]

end

theorem walkDone_more {k : Key} {s : State} (hq : reqsOf s 4 k = true) : walkDone k s = s := if_pos hq

end Sys2Proof.Machine

namespace Sys2Proof.Proofs
open Machine

/-- Settles O56: each row by what stands at the front of its VOQ's portion, and the chain of pages by induction on the pages that a copy
can ask for. -/
theorem spillRows : Obligations.SpillRows := by
  intro s g p c hh k v
  have row {t u : State} (h : t = u) : (.next (unlessHalted s (spillMark t)) : Out) = .next (spillMark u) :=
    row_running hh (congrArg spillMark h)
  refine ⟨fun errs st ht => row (spillWrite_empty errs st ht), fun errs st ht h => row (spillWrite_waits errs st ht h),
    fun x r errs st hx hs hw hd => ⟨fun hp hb => row (spillWrite_bad errs st hx hs hw hd hp hb),
      fun hb => ⟨fun hheld => row (spillWrite_held errs st hx hs hw hd hb hheld), fun hheld => ?_⟩⟩, fun x => ?_,
    fun h => row (spillReadback_none h), fun n hn => ⟨fun hw => row (spillReadback_waits hn hw),
      fun x r hx hd hw => row (spillReadback_reads hn hx hd hw)⟩,
    fun h => row_running hh (spillPageWalk_idle h), fun hd hw hr => ⟨fun hq => row_running hh (spillPageWalk_due hd hw hr hq),
      fun hq => walkDone_frees hd hw hr ?_ hq, walkDone_more⟩⟩
  · exact ⟨row (spillWrite_sends st hx hs hw hd hb hheld), growPages_pages k (copySlots x - v.part) (copySlots x) s⟩
  · intro y data w
    have hw : w = sentVoq k y s := voqOf_sendSlots k v.pages.length x s
    rw [hw]
    exact ⟨rfl, rfl, sentVoq_whole, sentVoq_part⟩
  · intro hk
    have hg : g.val = 16 := congrArg Prod.fst hk
    omega

end Sys2Proof.Proofs

/-! ## Commands that are not served, and what HALTED keeps (R405, R421, R497, R498) -/

namespace Sys2Proof.Machine

theorem runOp_unserved {l : LOp} {q : Req} {s : State} (h : served s q = false) : runOp l q s = s :=
  if_neg (by simp [h])

/-- A command that is not served finds no grove write carried out for it (R209). -/
theorem checkState_unserved {o : Op} {q : Req} {s : State} (h : served s q = false) : checkState o q s = s :=
  if_neg (by simp [h])

theorem runOp_afterMoves_unserved {l : LOp} {q : Req} {s : State} (h : served s q = false) :
    runOp l q (if served s q = true then finishJobs q.c s else s) = s := by
  rw [if_neg (by simp [h]), runOp_unserved h]

theorem runBarrier_unserved {q : Req} {s : State} (h : served s q = false) : runBarrier q s = s :=
  if_neg (by simp [h])

theorem runGrvWrite_unserved {q : Req} {s : State} (h : served s q = false) : runGrvWrite q s = s := by
  simp [runGrvWrite, h, runOp_unserved h]

theorem runTallyRead_unserved {q : Req} {clk : Nat} {s : State} (h : served s q = false) : runTallyRead q clk s = s := by
  simp [runTallyRead, h, runOp_unserved h]

theorem runSecured_unserved {q : Req} {s : State} (h : served s q = false) : runSecured q s = s :=
  if_neg (by simp [h])

/-- A command that cannot be served has no effect at all (R405, R421, R496). -/
theorem exec_unserved (o : Op) (x : Extra) {q : Req} {s : State} (h : served s q = false) : exec (opInstr o q x) s = .next s := by
  by_cases hc : commonOp o = true
  · rw [exec_opInstr hc, checkState_unserved h, runOp_unserved h]
  · cases o
    case barrier => exact congrArg Host.Outcome.next (runBarrier_unserved h)
    case grvWrite => exact congrArg Host.Outcome.next (runGrvWrite_unserved h)
    case tallyRead => exact congrArg Host.Outcome.next (runTallyRead_unserved h)
    case secured => exact congrArg Host.Outcome.next (runSecured_unserved h)
    all_goals exact absurd rfl hc

theorem dmaStopped_of_halted {s : State} (h : halted s = true) : dmaStopped s = true := by
  simp only [halted, Bool.or_eq_true] at h
  rcases h with h | h <;> simp [dmaStopped, h]

theorem served_of_halted {s : State} (h : halted s = true) (q : Req) : served s q = false := by
  simp [served, dmaStopped_of_halted h]

theorem halted_of_mode {s : State} (h : s.md.mode = .halted) : halted s = true := by simp [halted, h]

/-- A row that HALTED bars leaves the state as it is. -/
theorem row_halted {s : State} (h : halted s = true) (t : State) : (.next (unlessHalted s t) : Out) = .next s :=
  congrArg Host.Outcome.next (if_pos h)

theorem evtOpen_of_halted {s : State} (h : halted s = true) (c : Nat) : evtOpen s c = false := by
  simp [evtOpen, dmaStopped_of_halted h]

/-- No event is posted in HALTED (R405). -/
theorem post_halted {s : State} (h : halted s = true) (c code : Nat) (b : List Byte) : post c code b s = s :=
  if_pos (by simp [evtOpen_of_halted h])

theorem flushLost_halted {s : State} (h : halted s = true) (c : Nat) : flushLost c s = s :=
  if_neg (by simp [evtOpen_of_halted h])

theorem mayRead_halted {s : State} (h : halted s = true) (c : Nat) : mayRead s c = false := by
  simp [mayRead, dmaStopped_of_halted h]

theorem nextRead_halted {s : State} (h : halted s = true) : nextRead s = none :=
  List.find?_eq_none.mpr fun c _ => by simp [mayRead_halted h]

theorem commandFetch_halted {s : State} (h : halted s = true) (c : Nat) (hd p : List Byte) (dma : Bool) :
    commandFetch c hd p dma s = s := if_neg (by simp [nextRead_halted h])

/-- What every row but RING_BOUNDARY leaves as it was in HALTED: the mode, the supply, keys and sessions, and every record but those of
the host interface, the Lookout, the counters and the power entry. -/
structure KeepsHalted (s t : State) : Prop where
  mode : t.md.mode = s.md.mode
  power : t.pwr.on = s.pwr.on
  sess : t.trust.sess = s.trust.sess
  cutKey : t.trust.cutKey = s.trust.cutKey
  keys : t.trust.keys = s.trust.keys
  frozen : (t.lnd, t.cut, t.em, t.grv, t.par, t.buf, t.krf, t.sch, t.dram, t.cap, t.link, t.cmp) =
    (s.lnd, s.cut, s.em, s.grv, s.par, s.buf, s.krf, s.sch, s.dram, s.cap, s.link, s.cmp)
  tim : t.tim = { s.tim with stepped := t.tim.stepped }

namespace KeepsHalted

theorem refl (s : State) : KeepsHalted s s := ⟨rfl, rfl, rfl, rfl, rfl, rfl, rfl⟩

theorem trans {s t u : State} (h : KeepsHalted s t) (g : KeepsHalted t u) : KeepsHalted s u :=
  ⟨g.mode.trans h.mode, g.power.trans h.power, g.sess.trans h.sess, g.cutKey.trans h.cutKey, g.keys.trans h.keys,
    g.frozen.trans h.frozen, by rw [g.tim, h.tim]⟩

theorem haltedInv {s t : State} (h : KeepsHalted s t) (hi : haltedInv s) : haltedInv t := by
  obtain ⟨hm, hs, hc, hl, hk⟩ := hi
  have hf := h.frozen
  simp only [Prod.mk.injEq] at hf
  obtain ⟨-, -, -, -, -, -, -, -, -, -, hlink, -⟩ := hf
  exact ⟨h.mode.trans hm, h.sess.trans hs, h.cutKey.trans hc, hlink ▸ hl, h.keys ▸ hk⟩

theorem halted {s t : State} (h : KeepsHalted s t) (hh : halted s = true) : Machine.halted t = true := by
  simp only [Machine.halted, h.mode, h.power]
  exact hh

theorem cnt (c : Ctr) (i j n : Nat) (s : State) : KeepsHalted s (cnt c i j n s) := ⟨rfl, rfl, rfl, rfl, rfl, rfl, rfl⟩

theorem modMbx (c : Nat) (f : Mbx → Mbx) (s : State) : KeepsHalted s (modMbx c f s) := ⟨rfl, rfl, rfl, rfl, rfl, rfl, rfl⟩

theorem setSpdm (tr : Nat) (x : SpdmSt) (s : State) : KeepsHalted s (setSpdm tr x s) := ⟨rfl, rfl, rfl, rfl, rfl, rfl, rfl⟩

theorem note (u k c : Nat) (d : List Nat) (s : State) : KeepsHalted s (note u k c d s) := by constructor <;> simp

theorem fenceFault (u k c : Nat) (d : List Nat) (s : State) : KeepsHalted s (fenceFault u k c d s) := by constructor <;> simp

theorem fenceCause (u c : Nat) (s : State) : KeepsHalted s (fenceCause u c s) := by
  unfold Machine.fenceCause
  split
  · exact fenceFault _ _ _ _ s
  · exact refl s

theorem registerRead (c off size : Nat) (s : State) : KeepsHalted s (registerRead c off size s) := by
  unfold Machine.registerRead
  split
  · exact cnt _ _ _ _ s
  · split
    · exact modMbx _ _ s
    · exact refl s

section
variable {s : State} (hh : Machine.halted s = true)
include hh

/-- In HALTED an alert is posted nowhere. -/
theorem powerAlert {t : State} (h : KeepsHalted s t) (k z v : Nat) : KeepsHalted s (powerAlert k z v t) := by
  rw [Machine.powerAlert, post_halted (h.halted hh)]
  exact h

theorem powerDown : KeepsHalted s (powerDown s) := by
  have hf (r : Option Nat) : Machine.halted { s with pwr := { s.pwr with fallAt := r } } = true := hh
  rw [Machine.powerDown, if_pos (hf _)]
  exact ⟨rfl, rfl, rfl, rfl, rfl, rfl, rfl⟩

theorem powerFail : KeepsHalted s (powerFail s) := by
  unfold Machine.powerFail
  split
  · have h := powerAlert hh (cnt .pwrFails 0 0 1 s) 3 255 0
    exact h.trans (powerDown (h.halted hh))
  · exact refl s

theorem dipStart : KeepsHalted s (dipStart s) := by
  unfold Machine.dipStart
  split
  · exact refl s
  · refine powerAlert hh ?_ _ _ _
    exact ⟨rfl, rfl, rfl, rfl, rfl, rfl, rfl⟩

theorem dipEnd : KeepsHalted s (dipEnd s) := by
  unfold Machine.dipEnd
  split
  · refine powerAlert hh ?_ _ _ _
    exact ⟨rfl, rfl, rfl, rfl, rfl, rfl, rfl⟩
  · exact refl s

/-- The three parts of a temperature reading, the warning, the fence of a Grove die and the shutdown, each keep what HALTED keeps. -/
theorem thermal (z i : Nat) (v : Int) : KeepsHalted s (thermal z i v s) := by
  have set (b : Bool) : KeepsHalted s { s with pwr := { s.pwr with warn := tput false s.pwr.warn (k2 z i) b } } :=
    ⟨rfl, rfl, rfl, rfl, rfl, rfl, rfl⟩
  have fence {t : State} (h : KeepsHalted s t) : KeepsHalted s (if z = 1 ∧ 1680 < v then Machine.fenceCause (uGrove i) 3 t else t) := by
    split
    · exact h.trans (fenceCause _ _ t)
    · exact h
  have off {t : State} (h : KeepsHalted s t) (w : Nat) : KeepsHalted s (if shutAt z ≤ v ∧ t.pwr.offZone = none then
      let t := Machine.powerDown (Machine.powerAlert 6 z w (Machine.cnt .pwrThermalOff 0 0 1 t))
      { t with pwr := { t.pwr with offZone := some z } } else t) := by
    split
    · have h := powerAlert hh (h.trans (cnt .pwrThermalOff 0 0 1 t)) 6 z w
      have h := h.trans (powerDown (h.halted hh))
      exact h.trans ⟨rfl, rfl, rfl, rfl, rfl, rfl, rfl⟩
    · exact h
  unfold Machine.thermal
  refine off (fence ?_) _
  split
  · exact powerAlert hh (set true) _ _ _
  · split
    · exact powerAlert hh (set false) _ _ _
    · exact refl s

theorem tempReading (n z i : Nat) (v : Int) : KeepsHalted s (tempReading n z i v s) := by
  unfold Machine.tempReading
  split
  · have h : KeepsHalted s (keepReading 3 n v s) := ⟨rfl, rfl, rfl, rfl, rfl, rfl, rfl⟩
    exact h.trans (thermal (h.halted hh) z i v)
  · exact note _ _ _ _ s

/-- In HALTED an exchange of SPDM goes no further than the six requests of R498, none of which touches a session. -/
theorem spdm (tr : Nat) (inside : Bool) (m : Spdm) : KeepsHalted s (spdm tr inside m s).2 := by
  have asked (p : Bool) (r : List Byte) {t : State} (h : KeepsHalted s t) :
      KeepsHalted s (if p = true then (some r, t) else (none, s)).2 := by
    split
    · exact h
    · exact refl s
  by_cases ha : haltedAnswers m = true
  · cases m
    case challenge | keyOffer | keyExchange | finish | heartbeat | keyUpdate | endSession | other => exact Bool.noConfusion ha
    all_goals simp only [Machine.spdm, ha, notAdmitted, sessionRequest, Bool.and_false, Bool.or_false, Bool.not_true,
      Bool.false_eq_true, if_false]
    case getVersion => exact setSpdm _ _ s
    case getCapabilities | negotiate => exact asked _ _ (setSpdm _ _ s)
    case getDigests | getCertificate | getMeasurements => exact asked _ _ (refl s)
  · simp only [Machine.spdm, hh, ha, Bool.not_false, Bool.and_self, if_true]
    exact refl s

theorem spdmRow (tr : Nat) (inside : Bool) (m : Spdm) : KeepsHalted s (spdmRow tr inside m s) := by
  have h := spdm hh tr inside m
  unfold Machine.spdmRow
  split
  · dsimp only
    split
    · exact h.trans ⟨rfl, rfl, rfl, rfl, rfl, rfl, rfl⟩
    · exact h
  · exact refl s

end

end KeepsHalted

theorem sessionTimeout_closed {s : State} {tr : Nat} (h : session s tr = none) : sessionTimeout tr s = s := by
  simp [sessionTimeout, h]

theorem session_of_sess_nil {s : State} (h : s.trust.sess = []) (c : Nat) : session s c = none := by simp [session, h]

/-- Every row but RING_BOUNDARY keeps what HALTED keeps: those that HALTED bars and the Laent commands change nothing, and the rest are
the power entry, the management port's attestation and the reads of a mailbox page (R497, R498; log entry 5). -/
theorem exec_halted {i : Instr} {s : State} (hi : haltedInv s) (hon : s.pwr.on = true) (hb : i ≠ .ringBoundary) :
    ∃ t, exec i s = .next t ∧ KeepsHalted s t := by
  obtain ⟨hm, hsess, -⟩ := hi
  have hh := halted_of_mode hm
  have on {t : State} (h : KeepsHalted s t) : KeepsHalted s (if s.pwr.on = true then t else s) := by rwa [if_pos hon]
  have same {i : Instr} (h : exec i s = .next s) : ∃ t, exec i s = .next t ∧ KeepsHalted s t := ⟨s, h, .refl s⟩
  cases i
  case ringBoundary => exact absurd rfl hb
  case ringNowLowRead => exact ⟨_, rfl, on (.registerRead _ _ _ s)⟩
  case dipStart => exact ⟨_, rfl, on (.dipStart hh)⟩
  case dipEnd => exact ⟨_, rfl, on (.dipEnd hh)⟩
  case tempReading => exact ⟨_, rfl, on (.tempReading hh _ _ _ _)⟩
  case powerFail => exact ⟨_, rfl, .powerFail hh⟩
  case powerOn => exact same (congrArg Host.Outcome.next (if_pos (by simp [hon])))
  case powerGood => exact same (congrArg Host.Outcome.next (if_pos (by simp [hon])))
  case fwLoad | cid0PasidSet | mgmtLaent => exact same (congrArg Host.Outcome.next (if_pos hh))
  case commandFetch => exact same (congrArg Host.Outcome.next (commandFetch_halted hh _ _ _ _))
  case evtLost => exact same (congrArg Host.Outcome.next (flushLost_halted hh _))
  case sessionTimeout => exact same (congrArg Host.Outcome.next (sessionTimeout_closed (session_of_sess_nil hsess _)))
  case getVersion | getCapabilities | negotiateAlgorithms | getDigests | getCertificate | getMeasurements | keyOffer | keyExchange |
      finish | endSession => exact ⟨_, rfl, .spdmRow hh _ _ _⟩
  case barrier => exact same (congrArg Host.Outcome.next (runBarrier_unserved (served_of_halted hh _)))
  case grvWrite => exact same (congrArg Host.Outcome.next (runGrvWrite_unserved (served_of_halted hh _)))
  case tallyRead => exact same (congrArg Host.Outcome.next (runTallyRead_unserved (served_of_halted hh _)))
  case secured => exact same (congrArg Host.Outcome.next (runSecured_unserved (served_of_halted hh _)))
  case stageAbort | cutCommit | cutCommitSigned | grvTblWrite | grvGmaskWrite | grvRead =>
    exact same (congrArg Host.Outcome.next (runOp_afterMoves_unserved (served_of_halted hh _)))
  case identityRead | portCfgWrite | radioWinWrite | portReset | portRead | cageRead | timSrcWrite | timCtlWrite | timRealign |
      timSrcRead | baseBundleLoad | cmpBundleLoad | bundleList | abortFrameRead | stageOpen | listWrite | actionWrite |
      actdataWrite | psetWrite | cutHdrWrite | parseWrite | cutRead | emTblWrite | emStaticWrite | emLearnWrite | emFlush |
      emLookup | trieTblWrite | trieAdd | trieDelete | trieLookup | grvPairWrite | poolCfgWrite | lndCfgWrite | glistWrite |
      gateSwitch | shapeWrite | shareWrite | schedRead | spillCfgWrite | dramCfgWrite | tallyCfgWrite | tallyPagesWrite |
      cvAssign | cvCfgWrite | cvArm | cvDisarm | cvRead | counterRead | counterProgram | blazeCfgWrite | cmpDefine |
      cmpQuotaWrite | cmpDelete | cmpAttach | cmpDetach | krfRegionWrite | cmpReset | freeze | thaw | save | restore |
      cmpRead | spdm | ownerEnrol | cutKeySet | keyInstall | keyDelete | keyExport | secyAlloc | secyWrite | rxScWrite |
      saInstall | saSwitch | saDelete | faultRead | firebreakLift | firebreakRaise | factoryMode | modeSet | restart |
      configSave | groupSleep | nightTrimWrite | calExport | calImport | calWrite | pairCfgWrite | pairSwitchover |
      pairStatusRead =>
    exact same (congrArg Host.Outcome.next (runOp_unserved (served_of_halted hh _)))
  all_goals exact same (row_halted hh _)

theorem KeepsHalted.nextRing (s : State) : KeepsHalted s (nextRing s) := ⟨rfl, rfl, rfl, rfl, rfl, rfl, rfl⟩

theorem KeepsHalted.takeSnap (s : State) : KeepsHalted s (takeSnap s) := ⟨rfl, rfl, rfl, rfl, rfl, rfl, rfl⟩

theorem exists_fallAt_of_railsDue {s : State} (h : railsDue s = true) : ∃ r, s.pwr.fallAt = some r ∧ r ≤ s.ran := by
  simpa [railsDue, Option.any_eq_true] using h

theorem ringBoundary_latch {s : State} (hm : s.md.mode = .halted) (hon : s.pwr.on = true) :
    KeepsHalted s (ringBoundary s) ∨ ((ringBoundary s).pwr.on = false ∧ ∃ r, s.pwr.fallAt = some r ∧ r ≤ s.ran + 1) := by
  cases hr : railsDue (nextRing s) with
  | false => exact .inl (ringBoundary_halted hon hr hm ▸ (KeepsHalted.nextRing s).trans (.takeSnap _))
  | true => exact .inr ⟨ringBoundary_railsFall hon hr ▸ rfl, exists_fallAt_of_railsDue hr⟩

/-- A step keeps what HALTED keeps, unless it is the ring boundary at which the rails fall. -/
theorem step_latch {s t : State} (hi : haltedInv s) (hon : s.pwr.on = true) (h : step s = .next t) :
    KeepsHalted s t ∨ (t.pwr.on = false ∧ ∃ rest r, s.pending = .ringBoundary :: rest ∧ s.pwr.fallAt = some r ∧ r ≤ s.ran + 1) := by
  cases hq : s.pending with
  | nil =>
    simp only [step, hq, Host.Outcome.next.injEq] at h
    exact .inl (h ▸ .refl s)
  | cons i rest =>
    let u : State := { s with pending := rest }
    have hu : KeepsHalted s u := ⟨rfl, rfl, rfl, rfl, rfl, rfl, rfl⟩
    simp only [step, hq] at h
    by_cases hb : i = .ringBoundary
    · subst hb
      obtain rfl := Host.Outcome.next.inj h
      rcases ringBoundary_latch (s := u) hi.1 hon with hk | ⟨hoff, r, hr⟩
      · exact .inl (hu.trans hk)
      · exact .inr ⟨hoff, rest, r, rfl, hr⟩
    · obtain ⟨v, hv, hk⟩ := exec_halted (s := u) hi hon hb
      obtain rfl := Host.Outcome.next.inj (hv.symm.trans h)
      exact .inl (hu.trans hk)

end Sys2Proof.Machine

namespace Sys2Proof.Proofs
open Machine

/-- Settles O35: each row keeps what HALTED keeps, and so does the ring boundary, unless the rails fall there. -/
theorem haltedLatch : Obligations.HaltedLatch := by
  intro s t hi hon hstep
  refine (step_latch hi hon hstep).imp_left fun h => ?_
  have hf := h.frozen
  simp only [Prod.mk.injEq] at hf
  obtain ⟨hlnd, hcut, hem, hgrv, hpar, hbuf, hkrf, hsch, hdram, hcap, hlink, hcmp⟩ := hf
  exact ⟨h.haltedInv hi, h.power.trans hon, hlnd, hcut, hem, hgrv, hpar, hbuf, hkrf, hsch, hdram, hcap, hlink, hcmp, h.tim⟩

end Sys2Proof.Proofs

/-! ## The checks of a Laent command, its acceptance and its refusal (R398, R400, R413 to R422) -/

namespace Sys2Proof.Machine

/-! ### What the tables of R425 to R432 give each opcode -/

theorem commonOp_of_target : ∀ o : Op, opEff o = .target → commonOp o = true := by intro o; cases o <;> decide

theorem commonOp_of_next : ∀ o : Op, opEff o = .next → commonOp o = true := by intro o; cases o <;> decide

/-- No grove write comes before an opcode of code T that fixes nothing at acceptance. -/
theorem afterMoves_of_target : ∀ o : Op,
    opEff o = .target → o ≠ .cutCommit → o ≠ .cutCommitSigned → afterMoves o = false := by
  intro o; cases o <;> decide

theorem afterMoves_of_next : ∀ o : Op, opEff o = .next → afterMoves o = false := by intro o; cases o <;> decide

/-- The reads of which R420 says that they change nothing. -/
def readOps : List Op :=
  [.identityRead, .portRead, .cageRead, .timSrcRead, .bundleList, .abortFrameRead, .cutRead, .schedRead, .cvRead, .cmpRead, .faultRead,
   .calExport, .pairStatusRead, .grvRead]

theorem eff_of_read : ∀ o ∈ readOps, opEff o = .now ∧ commonOp o = true := by decide

theorem inSealed_iff : ∀ o : Op,
    (opInfo o).inSealed = true ↔ opCode o ∈ [0x0101, 0x0102, 0x0E00, 0x0E01, 0x0E02, 0x0F01, 0x1001] := by
  intro o; cases o <;> decide

section
variable {o : Op} {q : Req} {x : Extra} {s : State}

theorem checkState_of_not_afterMoves (h : afterMoves o = false) : checkState o q s = s := if_neg (by simp [h])

/-- The 32 opcodes of code T that fix nothing at acceptance. -/
theorem now_of_target (h : opEff o = .target) (hc : o ≠ .cutCommit) (hs : o ≠ .cutCommitSigned) (hp : o ≠ .pairSwitchover) :
    (lopOf o x).now s q = { st := s, ring := s.ring } := by
  cases o
  case cutCommit => exact absurd rfl hc
  case cutCommitSigned => exact absurd rfl hs
  case pairSwitchover => exact absurd rfl hp
  case portCfgWrite | radioWinWrite | portReset | timSrcWrite | timCtlWrite | baseBundleLoad | cmpBundleLoad | emFlush |
      poolCfgWrite | lndCfgWrite | gateSwitch | shapeWrite | shareWrite | spillCfgWrite | dramCfgWrite | tallyCfgWrite | cvArm |
      counterProgram | blazeCfgWrite | cmpAttach | cmpDetach | cmpReset | freeze | thaw | secyWrite | saSwitch | firebreakLift |
      firebreakRaise | modeSet | groupSleep | nightTrimWrite | pairCfgWrite => rfl
  all_goals exact absurd h (by decide)

/-- An opcode of code "next" fixes nothing at acceptance but the blob that a RESTORE brings. -/
theorem now_of_next (h : opEff o = .next) :
    ∃ r, (lopOf o x).now s q = { st := s, ring := r, blob := if o = .restore then some x.blob else none } := by
  cases o
  case restore | krfRegionWrite => exact ⟨0, rfl⟩
  case timRealign | emLookup | trieLookup | grvPairWrite | tallyPagesWrite | cvAssign | cmpDefine | cmpQuotaWrite | cmpDelete |
      save | ownerEnrol | cutKeySet | secyAlloc | rxScWrite | saInstall | factoryMode | calImport | calWrite =>
    exact ⟨s.ring, rfl⟩
  all_goals exact absurd h (by decide)

/-- A read takes its values at the boundary and leaves the state as it is (R420). -/
theorem eval_of_read (h : o ∈ readOps) :
    ∃ n v d, (lopOf o x).eval s q = { st := s, ring := s.ring, count := n, value := v, data := d } ∧
      d = ((lopOf o x).now (atSnap s) q).data := by
  simp only [readOps, List.mem_cons, List.not_mem_nil, or_false] at h
  rcases h with rfl | rfl | rfl | rfl | rfl | rfl | rfl | rfl | rfl | rfl | rfl | rfl | rfl | rfl <;> exact ⟨_, _, _, rfl, rfl⟩

/-! ### Acceptance -/

/-- The row of an opcode of code "now" or "stage": the effect is made and answered in ring v. -/
theorem exec_now (hc : commonOp o = true) (heff : opEff o = .now ∨ opEff o = .stage) (hs : served (checkState o q s) q = true)
    (hp : passes o q x (checkState o q s)) (hfit : ((lopOf o x).eval (checkState o q s) q).data.length ≤ q.outLen.toNat) :
    exec (opInstr o q x) s = .next (answer o q (vOf (checkState o q s) q o) (checkState o q s)
      ((lopOf o x).eval (checkState o q s) q)) :=
  (exec_opInstr hc q x s).trans (congrArg Host.Outcome.next (runOp_now hs hp heff hfit))

theorem evalOp_next (hp : passes o q x s) (heff : opEff o = .next) (hok : ((lopOf o x).now s q).status = .ok) :
    evalOp (lopOf o x) q (vOf s q o) s = ((lopOf o x).now s q,
      some { due := vOf s q o + 1, v := vOf s q o, op := o, req := q, rsp := true, num := ((lopOf o x).now s q).value,
             blob := ((lopOf o x).now s q).blob }) := by
  obtain ⟨hadm, hep⟩ := hp
  simp only [evalOp, hadm, hep, lopOf_op, heff, hok, if_true, itemOf]

/-- Effect code "next": the command waits for the boundary after v, and its SECURED command with it. -/
theorem runOp_next (hs : served s q = true) (hp : passes o q x s) (heff : opEff o = .next) :
    runOp (lopOf o x) q s = { (takeSec q s).2 with items := (takeSec q s).2.items ++
      [{ due := vOf s q o + 1, v := vOf s q o, op := o, req := q, rsp := true, sec := (takeSec q s).1,
         blob := if o = .restore then some x.blob else none }] } := by
  obtain ⟨r, hn⟩ := now_of_next (q := q) (x := x) (s := s) heff
  simp only [runOp, hs, if_true, lopOf_op, evalOp_next hp heff (by rw [hn]), hn]

/-! ### Refusal -/

theorem evalOp_refused {st : Status} {l : LOp} {v : Nat} (ha : admission l v s q = st) (hok : st ≠ .ok) (hf : st ≠ .fenced) :
    evalOp l q v s = (refuse st s, none) := by
  unfold evalOp
  rw [ha]
  cases st
  case ok => exact absurd rfl hok
  case fenced => exact absurd rfl hf
  all_goals rfl

/-- A command whose checks refuse it is answered, and nothing else changes (R400, R417). -/
theorem runOp_refused {st : Status} (hs : served s q = true) (ha : admission (lopOf o x) (vOf s q o) s q = st)
    (hok : st ≠ .ok) (hf : st ≠ .fenced) :
    runOp (lopOf o x) q s = answer o q (vOf s q o) s { st := s, status := st } := by
  simp only [runOp, hs, if_true, lopOf_op, evalOp_refused ha hok hf, refuse]

theorem exec_refused {st : Status} (hc : commonOp o = true) (hs : served (checkState o q s) q = true)
    (ha : admission (lopOf o x) (vOf (checkState o q s) q o) (checkState o q s) q = st) (hok : st ≠ .ok) (hf : st ≠ .fenced) :
    let u := checkState o q s
    exec (opInstr o q x) s = .next (answer o q (vOf u q o) u { st := u, status := st }) :=
  (exec_opInstr hc q x s).trans (congrArg Host.Outcome.next (runOp_refused hs ha hok hf))

/-! ### The checks in their order (R398, R417) -/

/-- A sender without the right is refused at step 9 (R415). -/
theorem admission_denied {v : Nat} (hpay : payPresence (opPay o) q.payload.length = .ok)
    (hrot : q.rotation = (cmpOf s q.c).rotation) (hright : rightsOk (opRights o) q = false) : admission (lopOf o x) v s q = .denied := by
  simp [admission, lopOf_op, firstBad, hpay, hrot, hright, orElseSt]

section
variable {v : Nat} (hpay : payPresence (opPay o) q.payload.length = .ok) (hrot : q.rotation = (cmpOf s q.c).rotation)
  (hright : rightsOk (opRights o) q = true) (howns : (lopOf o x).owns s q = true)
include hpay hrot hright howns

theorem admission_busy (hm : s.md.mode = .sealed) (hsealed : (opInfo o).inSealed = false) :
    admission (lopOf o x) v s q = .busy := by
  simp [admission, lopOf_op, firstBad, hpay, hrot, hright, howns, hm, hsealed, orElseSt]

variable (hmode : s.md.mode ≠ .sealed ∨ (opInfo o).inSealed = true)
include hmode

theorem admission_absent (hpres : (lopOf o x).present s q = false) : admission (lopOf o x) v s q = .absent := by
  have hm : (s.md.mode != .sealed || (opInfo o).inSealed) = true := by simpa using hmode
  simp [admission, lopOf_op, firstBad, hpay, hrot, hright, howns, hm, hpres, orElseSt]

variable (hpres : (lopOf o x).present s q = true)
include hpres

theorem admission_fenced (hunits : ((lopOf o x).units s q).all (fun u => !isFenced s u) = false) :
    admission (lopOf o x) v s q = .fenced := by
  have hm : (s.md.mode != .sealed || (opInfo o).inSealed) = true := by simpa using hmode
  simp only [admission, lopOf_op, firstBad, hpay, hrot, hright, howns, hm, hpres, hunits, orElseSt, beq_self_eq_true, if_true,
    Bool.false_eq_true, if_false, reduceCtorEq]

variable (hunits : ((lopOf o x).units s q).all (fun u => !isFenced s u) = true) (hord : (lopOf o x).ownOrder = false)
  (hform : argForm o q = .ok) (hsize : paySize (opPay o) q.payload.length = .ok) (hargs : (lopOf o x).args s q = .ok)
include hunits hord hform hsize hargs

/-- A command that passes steps 1 to 13 is judged by its target ring (step 14) and then by its own preconditions. -/
theorem admission_late : admission (lopOf o x) v s q =
    orElseSt (if opEff o = .target then tCheck v q.t else .ok) ((lopOf o x).pre s q) := by
  have hm : (s.md.mode != .sealed || (opInfo o).inSealed) = true := by simpa using hmode
  simp only [admission, lopOf_op, firstBad, hpay, hrot, hright, howns, hm, hpres, hunits, hord, hform, hsize, hargs,
    beq_self_eq_true, if_true, Bool.false_eq_true, if_false]
  rfl

end

theorem tCheck_late {v T : Nat} (h : T < v + 16) : tCheck v T = .lateRing := if_pos h

theorem tCheck_far {v T : Nat} (h : v + 100000000 < T) : tCheck v T = .range := by
  rw [tCheck, if_neg (by omega), if_pos h]

theorem tCheck_ok {v T : Nat} (h : v + 16 ≤ T) (g : T ≤ v + 100000000) : tCheck v T = .ok := by
  rw [tCheck, if_neg (by omega), if_neg (by omega)]

end

end Sys2Proof.Machine

namespace Sys2Proof.Proofs
open Machine

/-- Settles O1: the equation of `step` for each form of the queue. -/
theorem stepRunsTheFront : Obligations.StepRunsTheFront :=
  ⟨fun c rest s h => by simp only [step, h], fun s h => by simp only [step, h]⟩

/-- Settles O2: the meaning of each row is written as a next state. -/
theorem everyCommandAnswers : Obligations.EveryCommandAnswers := by
  intro i s
  cases i <;> exact ⟨_, rfl⟩

/-- Settles O4: an opcode of code T that fixes nothing at acceptance leaves its item and its answer alone. -/
theorem laentAccepted : Obligations.LaentAccepted := by
  intro o q x s heff hc hcs hps hs hp
  have hu : checkState o q s = s := checkState_of_not_afterMoves (afterMoves_of_target o heff hc hcs)
  have hnow : (lopOf o x).now s q = { st := s, ring := s.ring } := now_of_target heff hc hcs hps
  rw [← hu] at hs hp
  have h := exec_target (commonOp_of_target o heff) heff hs hp (by rw [hu, hnow])
  rw [hu] at h
  rw [h, hnow]

/-- Settles O5: an opcode of code "next" fixes nothing at acceptance but a RESTORE's blob. -/
theorem laentNext : Obligations.LaentNext := by
  intro o q x s heff hs hp
  rw [exec_opInstr (commonOp_of_next o heff), checkState_of_not_afterMoves (afterMoves_of_next o heff), runOp_next hs hp heff]

/-- Settles O6: the rows of the two codes are carried out by the common machinery. -/
theorem laentNow : Obligations.LaentNow := fun _ _ _ _ heff hc hs hp hfit => exec_now hc heff hs hp hfit

/-- Settles O7: the refusal is that of the common machinery; a command that is not served meets no check at all. -/
theorem laentRefused : Obligations.LaentRefused :=
  ⟨fun _ _ _ _ _ hc hs ha hok hf => exec_refused hc hs ha hok hf, fun o _ x _ h => exec_unserved o x h⟩

/-- Settles O10: a read is evaluated on the boundary's values and answered with the state as it is. -/
theorem laentReads : Obligations.LaentReads := by
  intro o q x s ho u hs hp hfit
  obtain ⟨heff, hc⟩ := eff_of_read o ho
  obtain ⟨n, v, d, he, hd⟩ := eval_of_read (q := q) (x := x) (s := u) ho
  exact ⟨_, rfl, rfl, rfl, rfl, hd, he ▸ exec_now hc (.inl heff) hs hp hfit⟩

/-- Settles O13: the four rights by their definition; the refusal at step 9 is an admission of DENIED. -/
theorem rightsDenied : Obligations.RightsDenied := by
  refine ⟨fun q => ⟨rfl, ?_, Iff.rfl, ?_⟩,
    fun o q x s hc hs hpay hrot hright =>
      exec_refused hc hs (admission_denied hpay hrot hright) (by decide) (by decide)⟩
  · rw [Fin.ext_iff]
    exact beq_iff_eq
  · rw [Fin.ext_iff]
    simp only [rightsOk, Bool.or_eq_true, Bool.and_eq_true, beq_iff_eq]
    rfl

/-- Settles O14: HALTED serves no command; SEALED is step 10, and each later step by the equation of the checks. -/
theorem modeAdmits : Obligations.ModeAdmits := by
  refine ⟨fun o q x s hm => exec_unserved o x (served_of_halted (halted_of_mode hm) q), inSealed_iff,
    fun o q x s v hpay hrot hright howns => ⟨admission_busy hpay hrot hright howns, fun hmode =>
      ⟨admission_absent hpay hrot hright howns hmode, admission_fenced hpay hrot hright howns hmode,
        fun hpres hunits hord hform hsize hargs ht => ?_⟩⟩⟩
  rw [admission_late hpay hrot hright howns hmode hpres hunits hord hform hsize hargs, ite_eq_right_iff.mpr ht]
  rfl

/-- Settles O15: step 14 is the target-ring test. -/
theorem targetRing : Obligations.TargetRing := by
  intro o q x s v heff hord hpay hrot hright howns hmode hpres hunits hform hsize hargs
  rw [admission_late hpay hrot hright howns (.inl hmode) hpres hunits hord hform hsize hargs, if_pos heff]
  exact ⟨fun h => by rw [tCheck_late h]; rfl, fun h => by rw [tCheck_far h]; rfl, fun h g => by rw [tCheck_ok h g]; rfl⟩

end Sys2Proof.Proofs

/-! ## Lists of records, of commands read and of waiting commands (R400, R419, R422) -/

namespace Sys2Proof.Machine

section
variable {op : Op} {q : Req} {form : Req → Nat → List Byte → Status} {f : StageFn} {r : List Byte} {rs : List (List Byte)} {n : Nat}
  {s : State}

/-- A record whose form is refused ends the command (R419). -/
theorem applyRecs_badForm (h : form q n r ≠ .ok) : applyRecs op q form f (r :: rs) n s = (form q n r, n, s) := by
  rw [applyRecs]
  split
  next heq => exact absurd heq h
  next => rfl

/-- A record that its stage function refuses ends the command (R419). -/
theorem applyRecs_refused (h : form q n r = .ok) (g : (f q n r s).1 ≠ .ok) :
    applyRecs op q form f (r :: rs) n s = ((f q n r s).1, n, s) := by
  rw [applyRecs, h]
  cases hf : f q n r s with
  | mk st t =>
    rw [hf] at g
    cases st
    case ok => exact absurd rfl g
    all_goals rfl

/-- A record that is taken is applied, and the next one follows it. -/
theorem applyRecs_taken (h : form q n r = .ok) (g : (f q n r s).1 = .ok) :
    applyRecs op q form f (r :: rs) n s = applyRecs op q form f rs (n + 1) (digestRec op q r (f q n r s).2) := by
  rw [applyRecs, h]
  cases hf : f q n r s with
  | mk st t =>
    rw [hf] at g
    obtain rfl : st = .ok := g
    rfl

end

/-! ### The answers that may be written (R400) -/

theorem readyRsp_blocked {l : List ReadEnt} (h : ∀ e ∈ l, e.long = false) : readyRsp true l = ([], l) := by
  induction l with
  | nil => rfl
  | cons e r ih =>
    obtain ⟨he, hr⟩ := List.forall_mem_cons.mp h
    cases ha : e.ans <;> simp [readyRsp, ha, he, ih hr]

/-- Commands none of which is long: what stands before the first unanswered one is written. -/
theorem readyRsp_short {l : List ReadEnt} (h : ∀ e ∈ l, e.long = false) :
    readyRsp false l = ((l.takeWhile (fun e => e.ans.isSome)).filterMap ReadEnt.ans, l.dropWhile (fun e => e.ans.isSome)) := by
  induction l with
  | nil => rfl
  | cons e r ih =>
    obtain ⟨he, hr⟩ := List.forall_mem_cons.mp h
    cases ha : e.ans with
    | none => simp [readyRsp, ha, he, readyRsp_blocked hr]
    | some a => simp [readyRsp, ha, he, ih hr]

/-- Commands all of which are long: every answer is written. -/
theorem readyRsp_long {l : List ReadEnt} (h : ∀ e ∈ l, e.long = true) (b : Bool) :
    readyRsp b l = (l.filterMap ReadEnt.ans, l.filter (fun e => e.ans.isNone)) := by
  induction l generalizing b with
  | nil => rfl
  | cons e r ih =>
    obtain ⟨he, hr⟩ := List.forall_mem_cons.mp h
    cases ha : e.ans <;> simp [readyRsp, ha, he, ih hr]

/-! ### Insertion sort: a permutation, sorted, and stable -/

section
variable {α : Type} {lt : α → α → Bool}

theorem insBy_perm (x : α) (l : List α) : (insBy lt x l).Perm (x :: l) := by
  induction l with
  | nil => exact .refl _
  | cons y r ih =>
    rw [insBy]
    split
    · exact (ih.cons y).trans (.swap x y r)
    · exact .refl _

theorem sortBy_perm (l : List α) : (sortBy lt l).Perm l := by
  induction l with
  | nil => exact .refl _
  | cons x r ih => exact (insBy_perm x _).trans (ih.cons x)

/-- An order whose complement is transitive and total sorts: no element is less than one before it. -/
theorem pairwise_sortBy (htrans : ∀ a b c, lt b a = false → lt c b = false → lt c a = false)
    (hasymm : ∀ a b, lt a b = true → lt b a = false) (l : List α) : (sortBy lt l).Pairwise (fun a b => lt b a = false) := by
  have ins (x : α) {l : List α} (h : l.Pairwise (fun a b => lt b a = false)) : (insBy lt x l).Pairwise (fun a b => lt b a = false) := by
    induction l with
    | nil => exact List.pairwise_singleton _ _
    | cons y r ih =>
      obtain ⟨hy, hr⟩ := List.pairwise_cons.mp h
      rw [insBy]
      split
      next hlt =>
        refine List.pairwise_cons.mpr ⟨fun z hz => ?_, ih hr⟩
        rcases List.mem_cons.mp ((insBy_perm x r).mem_iff.mp hz) with rfl | hz
        · exact hasymm _ _ hlt
        · exact hy z hz
      next hlt =>
        have hxy : lt y x = false := Bool.eq_false_iff.mpr hlt
        refine List.pairwise_cons.mpr ⟨fun z hz => ?_, h⟩
        rcases List.mem_cons.mp hz with rfl | hz
        · exact hxy
        · exact htrans x y z hxy (hy z hz)
  induction l with
  | nil => exact .nil
  | cons x r ih => exact ins x ih

/-- Elements none of which is less than another stay in the order in which they stood. -/
theorem filter_sortBy {p : α → Bool} (hp : ∀ a b, p a = true → p b = true → lt a b = false) (l : List α) :
    (sortBy lt l).filter p = l.filter p := by
  have ins (x : α) (l : List α) : (insBy lt x l).filter p = (x :: l).filter p := by
    induction l with
    | nil => rfl
    | cons y r ih =>
      rw [insBy]
      split
      next hlt =>
        rw [List.filter_cons, ih]
        cases hx : p x with
        | false => simp [List.filter_cons, hx]
        | true =>
          have hy : p y = false := Bool.eq_false_iff.mpr fun hy => by simp [hp y x hy hx] at hlt
          simp [hx, hy]
      next => rfl
  induction l with
  | nil => rfl
  | cons x r ih => rw [sortBy, ins, List.filter_cons, List.filter_cons, ih]

end

/-- The order of R422: the validation ring, then the compartment. -/
theorem itemLt_eq_false {a b : Item} : itemLt b a = false ↔ a.v < b.v ∨ (a.v = b.v ∧ a.req.c ≤ b.req.c) := by
  simp only [itemLt, Bool.or_eq_false_iff, decide_eq_false_iff_not, Bool.and_eq_false_imp, beq_iff_eq]
  omega

end Sys2Proof.Machine

namespace Sys2Proof.Proofs
open Machine

/-- Settles O12: by induction on the records, with the number of those before them. -/
theorem recordsInOrder : Obligations.RecordsInOrder := by
  intro op q form f l
  induction l with
  | nil => exact fun n s => ⟨Nat.le_refl n, by simp [applyRecs], fun _ => rfl, fun h => absurd rfl h⟩
  | cons x xs ih =>
    intro n s
    by_cases hform : form q n x = .ok
    · by_cases hf : (f q n x s).1 = .ok
      · obtain ⟨hle, htake, hok, hbad⟩ := ih (n + 1) (digestRec op q x (f q n x s).2)
        intro r
        have hr : r = applyRecs op q form f xs (n + 1) (digestRec op q x (f q n x s).2) := applyRecs_taken hform hf
        rw [hr]
        have hsub (m : Nat) (h : n + 1 ≤ m) : m - n = m - (n + 1) + 1 := by omega
        rw [hsub _ hle, List.take_succ_cons, applyRecs_taken hform hf, List.getElem?_cons_succ]
        exact ⟨by omega, htake, fun h => by rw [hok h, List.length_cons]; omega, hbad⟩
      · simp only [applyRecs_refused hform hf, Nat.sub_self, List.take_zero, List.getElem?_cons_zero]
        exact ⟨Nat.le_refl n, rfl, fun h => absurd h hf, fun _ => ⟨x, rfl, .inr ⟨hform, rfl⟩⟩⟩
    · simp only [applyRecs_badForm hform, Nat.sub_self, List.take_zero, List.getElem?_cons_zero]
      exact ⟨Nat.le_refl n, rfl, fun h => absurd h hform, fun _ => ⟨x, rfl, .inl rfl⟩⟩

/-- Settles O17: by induction on the commands read. -/
theorem responseOrder : Obligations.ResponseOrder := fun _ => ⟨readyRsp_short, readyRsp_long⟩

/-- Settles O46: the sort by the order of R422 is a permutation, sorted and stable. -/
theorem landingOrder : Obligations.LandingOrder := by
  intro s due
  refine ⟨sortBy_perm due, ?_, fun v c => filter_sortBy (fun a b ha hb => ?_) due⟩
  · refine (pairwise_sortBy (fun a b c h g => ?_) (fun a b h => ?_) due).imp itemLt_eq_false.mp
    · rw [itemLt_eq_false] at *
      omega
    · rw [← Bool.not_eq_false] at h
      rw [itemLt_eq_false] at *
      omega
  · simp only [Bool.and_eq_true, beq_iff_eq] at ha hb
    exact itemLt_eq_false.mpr (.inr ⟨by omega, by omega⟩)

end Sys2Proof.Proofs

/-! ## Responses, doorbells and registers of a mailbox (R386 to R406) -/

namespace Sys2Proof.Machine

section
variable {s : State}

/-! ### A response is written (R386, R390, R394) -/

/-- The slot that a response of compartment `c` becomes: with the compartment's rotation, laid out, and with the DMA that carries it. -/
def slotOf (c : Nat) (sl : Slot) (s : State) : Slot :=
  let r := { sl.rsp with rotation := (cmpOf s c).rotation }
  { sl with rsp := r, bytes := rspHeader c r, dataDma := dataDma s c r,
            dma := slotDma s c (mbxOf s c).rspBase ((mbxOf s c).rspTail.toNat % 4096) }

/-- The state with a response in its slot and the tail behind it, before the vector and the restart. -/
def rspPut (c : Nat) (sl : Slot) (s : State) : State :=
  modMbx c (fun m => { m with rspTail := m.rspTail + 1 }) { s with host := { s.host with
    rspSlots := tput {} s.host.rspSlots (k2 c ((mbxOf s c).rspTail.toNat % 4096)) (slotOf c sl s) } }

theorem writeRsp_eq (c : Nat) (sl : Slot) (s : State) :
    let t := signal c 0 (rspPut c sl s)
    writeRsp c sl s = if isRestart (slotOf c sl s) then restartBy (restartRing t) t else t := rfl

end

theorem signal_rspSlots (c k : Nat) (s : State) : (signal c k s).host.rspSlots = s.host.rspSlots := by
  unfold signal
  dsimp only
  split <;> rfl

theorem signal_evtSlots (c k : Nat) (s : State) : (signal c k s).host.evtSlots = s.host.evtSlots := by
  unfold signal
  dsimp only
  split <;> rfl

theorem restartRing_signal (c k : Nat) (s : State) : restartRing (signal c k s) = restartRing s := by simp [restartRing]

/-- A response changes nothing of the host interface but its slot, its mailbox's tail and vector 0. -/
theorem writeRsp_host (c : Nat) (sl : Slot) (s : State) : (writeRsp c sl s).host = (signal c 0 (rspPut c sl s)).host := by
  rw [writeRsp_eq]
  split <;> rfl

theorem mbxOf_writeRsp (c d : Nat) (sl : Slot) (s : State) : mbxOf (writeRsp c sl s) d = mbxOf (rspPut c sl s) d := by
  rw [mbxOf, writeRsp_host]
  exact mbxOf_signal ..

theorem writeRsp_rspSlots (c : Nat) (sl : Slot) (s : State) : (writeRsp c sl s).host.rspSlots =
    tput {} s.host.rspSlots (k2 c ((mbxOf s c).rspTail.toNat % 4096)) (slotOf c sl s) := by
  rw [writeRsp_host, signal_rspSlots]
  rfl

theorem writeRsp_restartAt (c : Nat) (sl : Slot) (s : State) : (writeRsp c sl s).lko.restartAt =
    if isRestart (slotOf c sl s) then some (min (s.lko.restartAt.getD (restartRing s)) (restartRing s)) else s.lko.restartAt := by
  rw [writeRsp_eq, restartRing_signal]
  split
  · simp [restartBy, signal_lko]
    rfl
  · rw [signal_lko]
    rfl

end Sys2Proof.Machine

namespace Sys2Proof.Proofs
open Machine

/-- Settles O16: the slot, the tail and the restart ring by the equation of the writing; the vector that it signals changes none of
them. -/
theorem responseWritten : Obligations.ResponseWritten := by
  intro c sl s t n k r
  refine ⟨?_, ?_, fun j hj => ?_, fun d hd => ?_, ?_⟩
  · exact (mbxOf_writeRsp c c sl s).trans (mbxOf_modMbx_self ..)
  · exact (congrArg (tget {} · k) (writeRsp_rspSlots c sl s)).trans (tget_tput_self ..)
  · exact (congrArg (tget {} · j) (writeRsp_rspSlots c sl s)).trans (tget_tput_ne _ _ _ hj)
  · exact (mbxOf_writeRsp c d sl s).trans (mbxOf_modMbx_ne _ _ hd)
  · exact writeRsp_restartAt c sl s

end Sys2Proof.Proofs

/-! ## Doorbells, vectors and the service of a mailbox (R387 to R406) -/

namespace Sys2Proof.Machine

section
variable {s : State} {c : Nat}

@[simp] theorem mbxOf_cnt (x : Ctr) (i j n d : Nat) (s : State) : mbxOf (cnt x i j n s) d = mbxOf s d := rfl

@[simp] theorem mbxOf_note (u k e : Nat) (l : List Nat) (d : Nat) (s : State) : mbxOf (note u k e l s) d = mbxOf s d := by
  rw [mbxOf, note_host]
  rfl

theorem ctrGet_setMbxFault (c k : Nat) (x : Ctr) (i j : Nat) (s : State) : ctrGet (setMbxFault c k s) x i j = ctrGet s x i j := by
  simp [ctrGet]

/-! ### Doorbells and consumer counts (R391 to R393, R401) -/

theorem cmdTailWrite_taken {v : BitVec 32} (h : span v (mbxOf s c).cmdHead ≤ 4096)
    (g : span (mbxOf s c).cmdTail (mbxOf s c).cmdHead ≤ span v (mbxOf s c).cmdHead) :
    cmdTailWrite c v s = modMbx c (fun m => { m with cmdTail := v }) s := if_pos ⟨h, g⟩

theorem cmdTailWrite_bad {v : BitVec 32} (h : 4096 < span v (mbxOf s c).cmdHead ∨
      span v (mbxOf s c).cmdHead < span (mbxOf s c).cmdTail (mbxOf s c).cmdHead) :
    cmdTailWrite c v s = note 0x49 0x0D01 c [] (setMbxFault c 1 (cnt .mbxTailBad c 0 1 s)) :=
  if_neg (by omega)

theorem rspHeadWrite_taken {v : BitVec 32} (h : span v (mbxOf s c).rspHead ≤ span (mbxOf s c).rspTail (mbxOf s c).rspHead) :
    rspHeadWrite c v s = modMbx c (fun m => { m with rspHead := v }) s := if_pos h

theorem rspHeadWrite_bad {v : BitVec 32} (h : span (mbxOf s c).rspTail (mbxOf s c).rspHead < span v (mbxOf s c).rspHead) :
    rspHeadWrite c v s = cnt .mbxTailBad c 0 1 s := if_neg (Nat.not_le.mpr h)

theorem evtHeadWrite_taken {v : BitVec 32} (h : span v (mbxOf s c).evtHead ≤ span (mbxOf s c).evtTail (mbxOf s c).evtHead) :
    evtHeadWrite c v s = flushLost c (modMbx c (fun m => { m with evtHead := v }) s) := if_pos h

theorem evtHeadWrite_bad {v : BitVec 32} (h : span (mbxOf s c).evtTail (mbxOf s c).evtHead < span v (mbxOf s c).evtHead) :
    evtHeadWrite c v s = cnt .mbxTailBad c 0 1 s := if_neg (Nat.not_le.mpr h)

/-- Nothing was lost, so no EVT_LOST is written (R401). -/
theorem flushLost_none (h : (mbxOf s c).lost = 0) : flushLost c s = s := if_neg (by simp [h])

/-- No command is read past the tail that the last doorbell saw, or without room for its response (R391, R392). -/
theorem mayRead_waits (h : (mbxOf s c).fetchTo = (mbxOf s c).cmdHead ∨
      4096 ≤ (mbxOf s c).reads.length + span (mbxOf s c).rspTail (mbxOf s c).rspHead) : mayRead s c = false := by
  rcases h with h | h
  · simp [mayRead, h, span]
  · simp [mayRead, Nat.not_lt.mpr h]

theorem mayRead_of_nextRead (h : nextRead s = some c) : mayRead s c = true := List.find?_some h

theorem commandFetch_waits (h : mayRead s c = false) (hd p : List Byte) (dma : Bool) : commandFetch c hd p dma s = s :=
  if_neg fun hn => by simp [mayRead_of_nextRead hn] at h

end

end Sys2Proof.Machine

namespace Sys2Proof.Proofs
open Machine

/-- Settles O18: each register by the equation of its write; a command that may not be read is not the one read next. -/
theorem mailboxDoorbells : Obligations.MailboxDoorbells := by
  refine ⟨fun s c v hh => ⟨fun h g => row_running hh (cmdTailWrite_taken h g), fun h => row_running hh (rspHeadWrite_taken h),
      fun h => ⟨row_running hh (evtHeadWrite_taken h), fun hl => ?_⟩, row_running hh rfl⟩,
    fun s c v hh => ⟨fun h => ⟨_, row_running hh (cmdTailWrite_bad h), ?_⟩, fun h => row_running hh (rspHeadWrite_bad h),
      fun h => row_running hh (evtHeadWrite_bad h), fun h hd p dma =>
        congrArg Host.Outcome.next (commandFetch_waits (mayRead_waits h) hd p dma)⟩⟩
  · exact row_running hh ((evtHeadWrite_taken h).trans (flushLost_none ((congrArg Mbx.lost (mbxOf_modMbx_self ..)).trans hl)))
  · refine ⟨by simp, ?_, noted_note .., fun d hd => ?_, by simp, by simp, by simp⟩
    · rw [ctrGet_note _ _ _ _ _ _ _ (by decide), ctrGet_setMbxFault, ctrGet_cnt_self _ _ _ _ _ (by decide)]
    · rw [mbxOf_note, mbxOf_setMbxFault_ne _ _ hd, mbxOf_cnt]

end Sys2Proof.Proofs

/-! ## Vectors (R404) -/

namespace Sys2Proof.Machine

section
variable {s : State} {c k : Nat}

/-- What re-arming writes into a vector: armed, from the end of the holdoff. -/
def armVec (s : State) (c : Nat) (v : Vec) : Vec :=
  { v with armed := true, holdUntil := if (mbxOf s c).holdoff = 0 then 0 else s.ran + (mbxOf s c).holdoff }

theorem rearmSignal_idle (h : vecStands s c k = false) : rearmSignal c k s = s := if_neg (by simp [h])

theorem rearmSignal_stands (h : vecStands s c k = true) : rearmSignal c k s = signal c k s := if_pos h

theorem signal_armed (h : (vecOf s c k).armed = true) (g : (vecOf s c k).holdUntil ≤ s.ran) : signal c k s = fireVec c k s :=
  if_pos (by simp [h, g])

theorem signal_disarmed (h : (vecOf s c k).armed = false) : signal c k s = s := if_neg (by simp [h])

/-- A disarmed vector is not signalled (R404). -/
theorem rearmSignal_disarmed (h : (vecOf s c k).armed = false) : rearmSignal c k s = s := by
  unfold rearmSignal
  split
  · exact signal_disarmed h
  · rfl

/-- A vector whose condition does not stand stays armed. -/
theorem rearm_idle (h : vecStands s c k = false) : rearm c k s = modVec c k (armVec s c) s :=
  rearmSignal_idle (s := modVec c k (armVec s c) s) h

theorem rearm_stands (h : vecStands s c k = true) (h0 : (mbxOf s c).holdoff = 0) :
    rearm c k s = fireVec c k (modVec c k (armVec s c) s) :=
  (rearmSignal_stands (s := modVec c k (armVec s c) s) h).trans
    (signal_armed (by simp [armVec]) (by simp [armVec, h0]))

theorem vecOf_fireVec_self (h : (vecOf s c k).masked = false) :
    vecOf (fireVec c k s) c k = { vecOf s c k with armed := false, sent := (vecOf s c k).sent + 1 } := by
  simp [fireVec, h]

theorem foldS_range_succ (f : Nat → State → State) (n : Nat) (s : State) :
    foldS (List.range (n + 1)) f s = f n (foldS (List.range n) f s) := by
  simp [foldS, List.range_succ]

/-- Vectors none of which has its condition are all re-armed, and nothing else changes. -/
theorem foldS_rearm_idle (n : Nat) (h : ∀ j, j < n → vecStands s c (j + 1) = false) :
    ∃ w, foldS (List.range n) (fun k => rearm c (k + 1)) s = { s with host := { s.host with vec := w } } ∧
      (∀ j, j < n → tget {} w (k2 c (j + 1)) = armVec s c (vecOf s c (j + 1))) ∧
      (∀ j, j = 0 ∨ n < j → tget {} w (k2 c j) = vecOf s c j) := by
  induction n with
  | zero => exact ⟨_, rfl, fun j hj => absurd hj (Nat.not_lt_zero j), fun _ _ => rfl⟩
  | succ n ih =>
    obtain ⟨w, hw, hin, hout⟩ := ih fun j hj => h j (by omega)
    let t : State := { s with host := { s.host with vec := w } }
    have hne {j : Nat} (hj : j ≠ n + 1) : k2 c j ≠ k2 c (n + 1) := fun hk => hj (congrArg (fun k => k.2.1) hk)
    refine ⟨tmod {} w (k2 c (n + 1)) (armVec s c), ?_, fun j hj => ?_, fun j hj => ?_⟩
    · rw [foldS_range_succ, hw]
      exact rearm_idle (s := t) (h n (by omega))
    · rcases Nat.lt_succ_iff_lt_or_eq.mp hj with hlt | rfl
      · rw [tget_tmod_ne _ _ _ (hne (by omega)), hin j hlt]
      · rw [tget_tmod_self, hout _ (by omega)]
    · rw [tget_tmod_ne _ _ _ (hne (by omega)), hout j (by omega)]

end

end Sys2Proof.Machine

namespace Sys2Proof.Proofs
open Machine

/-- Settles O19: re-arming by whether the condition stands; ARM_EVT by an induction over its vectors. -/
theorem vectorsArm : Obligations.VectorsArm := by
  intro s c k hh h r
  refine ⟨fun hs => row_running hh (rearm_idle hs), fun hs h0 hm => ⟨_, row_running hh (rearm_stands hs h0), ?_⟩, fun hs => ?_,
    fun hs ha hu => row_running hh ((rearmSignal_stands hs).trans (signal_armed ha hu)),
    fun ha => row_running hh (rearmSignal_disarmed ha)⟩
  · rw [vecOf_fireVec_self (by simpa [armVec] using hm), vecOf_modVec_self]
    simp [armVec, show (mbxOf s c).holdoff = 0 from h0]
  · obtain ⟨w, hw, hin, hout⟩ := foldS_rearm_idle 18 hs
    exact ⟨_, row_running hh hw, hin, hout 0 (.inl rfl), fun _ => rfl, rfl, rfl⟩

end Sys2Proof.Proofs

/-! ## The service of a mailbox and its registers (R385 to R389, R405) -/

namespace Sys2Proof.Machine

section
variable {s : State} {c : Nat}

theorem power_of_running (hh : halted s = false) : s.pwr.on = true := by
  simp only [halted, Bool.or_eq_false_iff, Bool.not_eq_false'] at hh
  obtain ⟨-, hon⟩ := hh
  exact hon

/-- An accepted write of `ENABLE` 1 (R389, R405, R406). -/
theorem mbxEnable_accepted (he : (mbxOf s c).enable = false) (hd : cmpDefined s c = true) (hc : (mbxOf s c).cmdBase ≠ 0)
    (hr : (mbxOf s c).rspBase ≠ 0) (hv : (mbxOf s c).evtBase ≠ 0) :
    mbxEnable c s = cnt .mbxRotDiscard c 0 ((mbxOf s c).reads.length + heldNum (mbxOf s c)) (setMbxFault c 0 (modMbx c (fun m =>
      { clearCounts m with enable := true, enabling := true, dmaStop := false, reads := [], held := none, secOpen := none, late := [] })
      (dropWaiting c s))) := by
  have hready : (cmpDefined s c && (mbxOf s c).cmdBase != 0 && (mbxOf s c).rspBase != 0 && (mbxOf s c).evtBase != 0) = true := by
    simp only [Bool.and_eq_true, bne_iff_ne]
    exact ⟨⟨⟨hd, hc⟩, hr⟩, hv⟩
  unfold mbxEnable
  rw [if_neg (by simp [he]), if_pos hready]

/-- A write of `ENABLE` 1 without a compartment or without its bases is refused with NOT_READY (R389). -/
theorem mbxEnable_notReady (he : (mbxOf s c).enable = false) (h : cmpDefined s c = false ∨ (mbxOf s c).cmdBase = 0 ∨
      (mbxOf s c).rspBase = 0 ∨ (mbxOf s c).evtBase = 0) : mbxEnable c s = setMbxFault c 6 s := by
  unfold mbxEnable
  rw [if_neg (by simp [he]), if_neg]
  rcases h with h | h | h | h <;> simp [h]

theorem mbxEnabling_due (h : (mbxOf s c).enabling = true) :
    mbxEnabling c s = modMbx c (fun m => { m with enabling := false, enabled := true }) s := if_pos h

theorem mbxDrained_done (hen : (mbxOf s c).enabled = true) (he : (mbxOf s c).enable = false)
    (h : ((mbxOf s c).reads = [] ∧ (mbxOf s c).held = none) ∨ (mbxOf s c).dmaStop = true) :
    mbxDrained c s = closeSession c (modMbx c (fun m => { m with enabled := false }) s) := by
  refine if_pos ?_
  rcases h with ⟨hr, hh⟩ | h <;> simp [*]

theorem mbxDrained_waits (h : (mbxOf s c).reads ≠ [] ∨ (mbxOf s c).held ≠ none) (hd : (mbxOf s c).dmaStop = false) :
    mbxDrained c s = s := by
  refine if_neg ?_
  rcases h with h | h <;> simp [h, hd]

/-! ### Accesses to the registers (R385, R387, R388) -/

theorem registerRead_ringNow (c : Nat) (s : State) :
    registerRead c 0x20 4 s = modMbx c (fun m => { m with latch := BitVec.ofNat 32 (s.ring / 2 ^ 32) }) s := rfl

theorem registerRead_bad {off size : Nat} (h : (size ≠ 4 ∧ size ≠ 8) ∨ off % size ≠ 0) :
    registerRead c off size s = cnt .mbxBadAccess c 0 1 s := if_pos h

theorem registerWrite_bad {off size : Nat} {v : BitVec 64} (h : (size ≠ 4 ∧ size ≠ 8) ∨ off % size ≠ 0) :
    registerWrite c off size v s = cnt .mbxBadAccess c 0 1 s := if_pos h

/-- A ring base out of service takes an aligned address (R387, R388). -/
theorem baseWrite_taken {get : Mbx → BitVec 64} {put : Mbx → BitVec 64 → Mbx} {v : BitVec 64} (off : Nat)
    (he : (mbxOf s c).enabled = false) (h : v.toNat % 4096 = 0) :
    baseWrite c get put off 8 v s = modMbx c (fun m => put m v) s := if_neg (by simp [mergeWrite, he, h])

theorem baseWrite_unaligned {get : Mbx → BitVec 64} {put : Mbx → BitVec 64 → Mbx} {v : BitVec 64} (off : Nat)
    (h : v.toNat % 4096 ≠ 0) : baseWrite c get put off 8 v s = setMbxFault c 5 s := if_pos (by simp [mergeWrite, h])

theorem cfgWrite_range {v : BitVec 64} (off : Nat) (h : fld v 34 8 < 1000 ∨ 100000000 < fld v 34 8 ∨ 1000 < fld v 44 35 ∨
      ((mbxOf s c).enabled = true ∧ fld v 34 8 ≠ (mbxOf s c).timeout)) : cfgWrite c off 8 v s = setMbxFault c 5 s := if_pos h

/-- A write of `MBX.CFG` in range that leaves `ENABLE` as it is (R388). -/
theorem cfgWrite_taken {v : BitVec 64} (off : Nat) (hlo : 1000 ≤ fld v 34 8) (hhi : fld v 34 8 ≤ 100000000) (hh : fld v 44 35 ≤ 1000)
    (hen : (mbxOf s c).enabled = false) (he : (mbxOf s c).enable = bit v 0) :
    cfgWrite c off 8 v s = modMbx c (fun m => { m with timeout := fld v 34 8, holdoff := fld v 44 35, evtSeal := bit v 1 }) s := by
  have hrange : ¬ (fld v 34 8 < 1000 ∨ 100000000 < fld v 34 8 ∨ 1000 < fld v 44 35 ∨
      ((mbxOf s c).enabled = true ∧ fld v 34 8 ≠ (mbxOf s c).timeout)) := by simp [hen]; omega
  simp only [cfgWrite, mergeWrite, if_true, if_neg hrange, he]
  cases bit v 0 <;> rfl

/-- The places of `CMD_BASE`, `RSP_BASE`, `EVT_BASE` and `MBX.CFG` in the mailbox page (R388). -/
theorem hostWrite_cmdBase (v : BitVec 64) : hostWrite 0 c (0x0050#16).toNat 8 v s =
    baseWrite c Mbx.cmdBase (fun m n => { m with cmdBase := n }) 0x50 8 v s := rfl

theorem hostWrite_rspBase (v : BitVec 64) : hostWrite 0 c (0x0058#16).toNat 8 v s =
    baseWrite c Mbx.rspBase (fun m n => { m with rspBase := n }) 0x58 8 v s := rfl

theorem hostWrite_evtBase (v : BitVec 64) : hostWrite 0 c (0x0060#16).toNat 8 v s =
    baseWrite c Mbx.evtBase (fun m n => { m with evtBase := n }) 0x60 8 v s := rfl

theorem hostWrite_cfg (v : BitVec 64) : hostWrite 0 c (0x0068#16).toNat 8 v s = cfgWrite c 0x68 8 v s := rfl

/-- The places of the MSI-X table: 64 entries of 16 bytes to a compartment, four double words to an entry (log entry 4). -/
theorem msixWrite_dword {k : Nat} {i : Nat} (hc : c < 32) (hk : k < 19) (hi : i < 4) (v : BitVec 64) :
    msixWrite (1024 * c + 16 * k + 4 * i) 4 v s = modVec c k (msixDword i (v.setWidth 32)) s := by
  have hbad : ¬ (((4 : Nat) ≠ 4 ∧ (4 : Nat) ≠ 8) ∨ (1024 * c + 16 * k + 4 * i) % 4 ≠ 0 ∨ 0x8000 ≤ 1024 * c + 16 * k + 4 * i) := by omega
  have hcid : (1024 * c + 16 * k + 4 * i) / 16 / 64 = c := by omega
  have hvec : (1024 * c + 16 * k + 4 * i) / 16 % 64 = k := by omega
  have hdword : (1024 * c + 16 * k + 4 * i) % 16 / 4 = i := by omega
  rw [msixWrite, if_neg hbad]
  simp only [hcid, hvec, hdword]
  rfl

end

end Sys2Proof.Machine

namespace Sys2Proof.Proofs
open Machine

/-- Settles O20: each row by the equation of its operation. -/
theorem mailboxService : Obligations.MailboxService := by
  intro s c hh m
  exact ⟨fun he hd hc hr hv => row_running hh (mbxEnable_accepted he hd hc hr hv),
    fun he h => ⟨_, row_running hh (mbxEnable_notReady he h), mbxOf_setMbxFault_self ..⟩, mbxEnabling_due, row_running hh rfl,
    fun hb hen he h => (boundaryRow_at _ hh hb).trans (congrArg Host.Outcome.next (mbxDrained_done hen he h)), boundaryRow_off _,
    fun _ _ h hd => boundaryRow_idle hh fun _ => mbxDrained_waits h hd⟩

/-- Settles O21: each access by the equation of its register. -/
theorem mailboxRegisters : Obligations.MailboxRegisters := by
  intro s c v hh m
  have hon := power_of_running hh
  have read {t u : State} (h : t = u) : (.next (if s.pwr.on = true then t else s) : Out) = .next u := by rw [if_pos hon, h]
  have page (off : BitVec 12) : (off.setWidth 16).toNat % 4096 = off.toNat := by
    have := off.isLt
    simp
    omega
  refine ⟨read (registerRead_ringNow ..), fun off size h => ⟨read (registerRead_bad h), ?_⟩, fun k i => ?_,
    fun he ha => ⟨row_running hh ((hostWrite_cmdBase v).trans (baseWrite_taken _ he ha)),
      row_running hh ((hostWrite_rspBase v).trans (baseWrite_taken _ he ha)),
      row_running hh ((hostWrite_evtBase v).trans (baseWrite_taken _ he ha))⟩,
    fun ha => ⟨_, row_running hh ((hostWrite_cmdBase v).trans (baseWrite_unaligned _ ha)), mbxOf_setMbxFault_self ..⟩,
    fun h => ⟨_, row_running hh ((hostWrite_cfg v).trans (cfgWrite_range _ h)), mbxOf_setMbxFault_self ..⟩,
    fun hlo hhi hho hen he => row_running hh ((hostWrite_cfg v).trans (cfgWrite_taken _ hlo hhi hho hen he))⟩
  · refine row_running hh (registerWrite_bad ?_)
    rwa [page]
  · have hoff : (BitVec.ofNat 16 (1024 * c.val + 16 * k.val + 4 * i.val)).toNat = 1024 * c.val + 16 * k.val + 4 * i.val := by
      rw [BitVec.toNat_ofNat]
      omega
    refine row_running hh ?_
    rw [hoff]
    exact msixWrite_dword c.isLt k.isLt i.isLt v

end Sys2Proof.Proofs

/-! ## Commands are read, held and ended; events are posted (R386, R390 to R405) -/

namespace Sys2Proof.Machine

section
variable {s : State} {c : Nat}

/-! ### The command read next (R394) -/

/-- The CID from which the round robin of this ring counts (R394). -/
def readFrom (s : State) : Nat := if s.host.turn = 0 then s.ring else s.host.turn - 1

/-- The command read next is that of the first CID that may be read, counted from the turn. -/
theorem nextRead_first (h : nextRead s = some c) :
    mayRead s c = true ∧ ∀ d, d < (c + 32 - readFrom s % 32) % 32 → mayRead s ((readFrom s + d) % 32) = false := by
  refine ⟨mayRead_of_nextRead h, fun d hd => ?_⟩
  have hf : ((List.range 32).find? (mayRead s ∘ fun d => (readFrom s + d) % 32)).map (fun d => (readFrom s + d) % 32) = some c :=
    (List.find?_map ..).symm.trans h
  obtain ⟨i, hi, hic⟩ := Option.map_eq_some_iff.mp hf
  obtain ⟨-, hlt, hno⟩ := List.find?_range_eq_some.mp hi
  have hi32 : i < 32 := List.mem_range.mp hlt
  simpa using hno d (by omega)

/-- The state in which a command that is read is checked: the head is behind it, its DMA is out, and the turn is the next CID's (R386,
R390, R394). -/
def readStart (c : Nat) (h : List Byte) (s : State) : State :=
  let u := modMbx c (fun m => { m with cmdHead := m.cmdHead + 1, readsInRing := m.readsInRing + 1,
                                       cmdDma := slotDma s c m.cmdBase (m.cmdHead.toNat % 4096), payDma := payloadDma s c h }) s
  { u with host := { u.host with readsInRing := u.host.readsInRing + 1, turn := (c + 1) % 32 + 1 } }

@[simp] theorem mbxOf_readStart (h : List Byte) : mbxOf (readStart c h s) c =
    { mbxOf s c with cmdHead := (mbxOf s c).cmdHead + 1, readsInRing := (mbxOf s c).readsInRing + 1,
                     cmdDma := slotDma s c (mbxOf s c).cmdBase ((mbxOf s c).cmdHead.toNat % 4096),
                     payDma := payloadDma s c h } :=
  mbxOf_modMbx_self s c (fun m =>
    { m with cmdHead := m.cmdHead + 1, readsInRing := m.readsInRing + 1,
             cmdDma := slotDma s c m.cmdBase (m.cmdHead.toNat % 4096), payDma := payloadDma s c h })

/-- The command that a header describes, as it is held for its `NOT_BEFORE`. -/
def heldOf (h : List Byte) : Held :=
  { tag := BitVec.ofNat 32 (leAt h 8 4), op := leAt h 4 2, notBefore := leAt h 16 8, arg1 := BitVec.ofNat 32 (leAt h 60 4) }

/-- The command that a header describes, as it is validated in ring `v`. -/
def readOf (h : List Byte) (o : Op) (v : Nat) : ReadEnt :=
  { tag := BitVec.ofNat 32 (leAt h 8 4), op := leAt h 4 2, v := v, long := opLong o, ans := none }

section
variable {h p : List Byte} {dma : Bool} (hn : nextRead s = some c) (hcl : s.host.closing = false)
  (hok : fetchCheck s c h p dma = .ok) {o : Op} (ho : opOfCode (leAt h 4 2) = some o)
include hn hcl hok ho

/-- A command whose `NOT_BEFORE` lies ahead is held (R398). -/
theorem commandFetch_held (hnb : s.ring < leAt h 16 8) :
    commandFetch c h p dma s = modMbx c (fun m => { m with held := some (heldOf h) }) (readStart c h s) := by
  simp only [commandFetch, hn, if_true, ho]
  refine (if_neg (Bool.eq_false_iff.mp hcl)).trans ?_
  split
  next => exact if_pos hnb
  next hbad => exact absurd hok hbad

/-- A command that passes steps 1 to 9 is validated in the present ring (R398). -/
theorem commandFetch_validated (hnb : leAt h 16 8 ≤ s.ring) (hr : outsideOk o c = true) :
    commandFetch c h p dma s = modMbx c (fun m => { m with reads := m.reads ++ [readOf h o s.ring] }) (readStart c h s) := by
  simp only [commandFetch, hn, if_true, ho]
  refine (if_neg (Bool.eq_false_iff.mp hcl)).trans ?_
  split
  next =>
    refine (if_neg (Nat.not_lt.mpr hnb)).trans ?_
    exact if_pos hr
  next hbad => exact absurd hok hbad

end

end

end Sys2Proof.Machine

namespace Sys2Proof.Proofs
open Machine

/-- Settles O22: a command that is read is held for its `NOT_BEFORE` or validated, and both leave the mailbox as `readStart` has it but
for that command. -/
theorem commandsAreRead : Obligations.CommandsAreRead := by
  refine ⟨fun s c h p dma o hn hcl hok ho hr => ?_, fun s c hn => nextRead_first hn⟩
  rcases Nat.lt_or_ge s.ring (leAt h 16 8) with hnb | hnb
  · refine ⟨_, congrArg Host.Outcome.next (commandFetch_held hn hcl hok ho hnb), ?_⟩
    rw [mbxOf_modMbx_self, mbxOf_readStart]
    exact ⟨rfl, rfl, rfl, rfl, rfl, rfl, fun h => absurd h (Nat.not_le.mpr hnb), fun _ => ⟨rfl, rfl⟩⟩
  · refine ⟨_, congrArg Host.Outcome.next (commandFetch_validated hn hcl hok ho hnb (hr hnb)), ?_⟩
    rw [mbxOf_modMbx_self, mbxOf_readStart]
    exact ⟨rfl, rfl, rfl, rfl, rfl, rfl, fun _ => ⟨rfl, rfl⟩, fun h => absurd h (Nat.not_lt.mpr hnb)⟩

end Sys2Proof.Proofs

/-! ## Held commands, timeouts and DMA errors (R398, R400, R401, R405) -/

namespace Sys2Proof.Machine

section
variable {s : State} {c : Nat}

/-- A held command outside a session is validated at the first boundary at or after its `NOT_BEFORE` (R398). -/
theorem notBeforeRelease_due {x : Held} {o : Op} (hx : (mbxOf s c).held = some x) (hs : x.sec = none) (hr : x.notBefore ≤ s.ring)
    (ho : opOfCode x.op = some o) (hok : outsideOk o c = true) :
    notBeforeRelease c s = flushRsp c (modMbx c (fun m =>
      { m with held := none, reads := m.reads ++ [{ tag := x.tag, op := x.op, v := s.ring, long := opLong o, ans := none }] }) s) := by
  simp only [notBeforeRelease, hx, hr, if_true, hs, ho, hok, Bool.and_true]

/-- A command that has no answer past `TIMEOUT` rings of v is ended (R400). -/
theorem commandTimeout_due {tag : BitVec 32} {e : ReadEnt}
    (hf : (mbxOf s c).reads.find? (fun e => e.tag = tag && e.ans.isNone) = some e) (ht : e.v + (mbxOf s c).timeout < s.ring) :
    let mine (q : Req) (sec : Option SecOpen) : Bool := q.c == c && carries e.op tag q sec
    let u := dropReads (fun j => mine j.req j.sec)
      { s with items := s.items.filter (fun i => !(i.rsp && mine i.req i.sec)),
               grv := { s.grv with jobs := s.grv.jobs.filter (fun j => !mine j.req j.sec) } }
    let w := if e.op = 0x0E01 then modMbx c (fun m => { m with secOpen := m.secOpen.filter (fun x => x.tag != tag) }) u else u
    commandTimeout c tag s = deliver c { rsp := { op := e.op, status := .timeout, tag := tag, v := e.v } } w := by
  simp only [commandTimeout, hf, ht, if_true]

theorem evtOpen_iff : evtOpen s c = true ↔ (mbxOf s c).enabled = true ∧ dmaStopped s = false ∧ (mbxOf s c).dmaStop = false := by
  simp [evtOpen, and_assoc]

/-- EVT_LOST is written once there is space (R401). -/
theorem flushLost_due (ho : evtOpen s c = true) (hl : 0 < (mbxOf s c).lost) (hs : span (mbxOf s c).evtTail (mbxOf s c).evtHead < 8192) :
    flushLost c s = writeEvt c 0x0001 (packLE [(4, (mbxOf s c).lost), (4, 0), (8, (mbxOf s c).lostRing)]) s := if_pos ⟨ho, hl, hs⟩

theorem flushLost_closed (ho : evtOpen s c = false) : flushLost c s = s := if_neg (by simp [ho])

theorem mbxOf_mbxDma (w p : Nat) :
    mbxOf (mbxDma c w p s) c = { mbxOf s c with fetchTo := (mbxOf s c).cmdHead, dmaStop := true, fault := 2 + w } := by
  rw [mbxDma, mbxOf_note, mbxOf_setMbxFault_self, mbxOf_modMbx_self]
  rfl

end

end Sys2Proof.Machine

namespace Sys2Proof.Proofs
open Machine

/-- Settles O23: each row by the equation of its operation. -/
theorem mailboxEvents : Obligations.MailboxEvents := by
  intro s c hh m
  refine ⟨fun x o hx hs hr ho hok => row_running hh (notBeforeRelease_due hx hs hr ho hok), fun e r hm ha ht => ?_,
    fun hen hd hs hl hsp => congrArg Host.Outcome.next (flushLost_due (evtOpen_iff.mpr ⟨hen, hd, hs⟩) hl hsp), fun h => ?_,
    fun w x => ⟨_, row_running hh rfl, mbxOf_mbxDma ..⟩⟩
  · exact row_running hh (commandTimeout_due ((congrArg (List.find? _) hm).trans (List.find?_cons_of_pos (by simp [ha]))) ht)
  · rcases h with h | h | h
    · exact congrArg Host.Outcome.next (flushLost_closed (by simp [evtOpen, show (mbxOf s c).enabled = false from h]))
    · exact congrArg Host.Outcome.next (flushLost_closed (by simp [evtOpen, show (mbxOf s c).dmaStop = true from h]))
    · exact congrArg Host.Outcome.next (flushLost_none h)

end Sys2Proof.Proofs

/-! ## Events are written in their slots or lost (R386, R390, R401, R402) -/

namespace Sys2Proof.Machine

section
variable {s : State} {c code : Nat} {b : List Byte}

/-- The event that a slot takes in the clear, of a mailbox that has lost none (R402). -/
def plainEvt (c code : Nat) (b : List Byte) (s : State) : Evt :=
  let e : Evt := { code := code, cid := c, rotation := (cmpOf s c).rotation, seq := (mbxOf s c).evtTail, body := padTo 48 b }
  { e with bytes := evtSlotBytes (((session s c).map Sess.ems).getD 0) e,
           dma := slotDma s c (mbxOf s c).evtBase ((mbxOf s c).evtTail.toNat % 8192) }

theorem writeEvt_evtSlots (h : (mbxOf s c).evtSeal = false) (hl : (mbxOf s c).lost = 0) :
    (writeEvt c code b s).host.evtSlots =
      tput {} s.host.evtSlots (k2 c ((mbxOf s c).evtTail.toNat % 8192)) (plainEvt c code b s) := by
  simp only [writeEvt, signal_evtSlots, h, hl]
  rfl

theorem mbxOf_writeEvt (d : Nat) : mbxOf (writeEvt c code b s) d =
    mbxOf (modMbx c (fun m => { m with evtTail := m.evtTail + 1, lost := 0, lostRing := 0 }) s) d := by
  simp only [writeEvt, mbxOf_signal]
  rfl

theorem mbxOf_writeEvt_ne {d : Nat} (h : d ≠ c) : mbxOf (writeEvt c code b s) d = mbxOf s d :=
  (mbxOf_writeEvt d).trans (mbxOf_modMbx_ne _ _ h)

theorem mbxOf_flushLost_ne {d : Nat} (h : d ≠ c) : mbxOf (flushLost c s) d = mbxOf s d := by
  unfold flushLost
  dsimp only
  split
  · exact mbxOf_writeEvt_ne h
  · rfl

/-! ### The four ways of an event (R400, R401) -/

/-- The state after an event that finds no room: its number is used, and it is counted as lost. -/
def evtLoss (c : Nat) (s : State) : State :=
  cnt .mbxEvtLost c 0 1 (modMbx c (fun m =>
    { m with evtTail := m.evtTail + 1, lost := m.lost + 1, lostRing := if m.lost = 0 then s.ring else m.lostRing }) (seqUsed c s))

theorem post_closed (h : evtOpen s c = false) : post c code b s = s := if_pos (by simp [h])

theorem post_late (h : evtOpen s c = true) (ha : acceptHeld s c = true) :
    post c code b s = modMbx c (fun m => { m with late := m.late ++ [(code, b)] }) s := by simp [post, h, ha]

theorem post_open (h : evtOpen s c = true) (ha : acceptHeld s c = false) : post c code b s =
    let u := flushLost c s
    if (mbxOf u c).lost = 0 ∧ span (mbxOf u c).evtTail (mbxOf u c).evtHead < 8191 then writeEvt c code b u else evtLoss c u := by
  simp only [post, h, ha, Bool.not_true, Bool.false_eq_true, if_false]
  rfl

/-- An event that finds room, where none was lost before it, is written. -/
theorem post_written (h : evtOpen s c = true) (ha : acceptHeld s c = false) (hl : (mbxOf s c).lost = 0)
    (hs : span (mbxOf s c).evtTail (mbxOf s c).evtHead < 8191) : post c code b s = writeEvt c code b s := by
  rw [post_open h ha, flushLost_none hl]
  exact if_pos ⟨hl, hs⟩

/-- An event that finds the ring full is lost, and no EVT_LOST is written. -/
theorem post_lost (h : evtOpen s c = true) (ha : acceptHeld s c = false) (hs : 8192 ≤ span (mbxOf s c).evtTail (mbxOf s c).evtHead) :
    post c code b s = evtLoss c s := by
  rw [post_open h ha, show flushLost c s = s from if_neg (by omega)]
  exact if_neg (by omega)

theorem mbxOf_evtLoss (d : Nat) : mbxOf (evtLoss c s) d = mbxOf (modMbx c (fun m =>
    { m with evtTail := m.evtTail + 1, lost := m.lost + 1, lostRing := if m.lost = 0 then s.ring else m.lostRing }) s) d := rfl

/-- An event of a compartment changes no other mailbox. -/
theorem mbxOf_post_ne {d : Nat} (h : d ≠ c) : mbxOf (post c code b s) d = mbxOf s d := by
  cases ho : evtOpen s c with
  | false => rw [post_closed ho]
  | true =>
    cases ha : acceptHeld s c with
    | true => rw [post_late ho ha, mbxOf_modMbx_ne _ _ h]
    | false =>
      rw [post_open ho ha]
      dsimp only
      split
      · exact (mbxOf_writeEvt_ne h).trans (mbxOf_flushLost_ne h)
      · exact (mbxOf_modMbx_ne (seqUsed c (flushLost c s)) _ h).trans (mbxOf_flushLost_ne h)

end

end Sys2Proof.Machine

namespace Sys2Proof.Proofs
open Machine

/-- Settles O24: each of the four ways of an event by its equation. -/
theorem eventsPosted : Obligations.EventsPosted := by
  intro s c code b m t e
  refine ⟨fun he => post_closed (by simp [evtOpen, show (mbxOf s c).enabled = false from he]), fun h ha => post_late h ha,
    fun h ha hl hs hseal => ?_, fun h ha hs => ?_, fun d hd => mbxOf_post_ne hd⟩
  · have ht : t = writeEvt c code b s := post_written h ha hl hs
    have hm : mbxOf t c = { mbxOf s c with evtTail := (mbxOf s c).evtTail + 1, lost := 0, lostRing := 0 } := by
      rw [ht, mbxOf_writeEvt, mbxOf_modMbx_self]
    refine ⟨?_, congrArg Mbx.evtTail hm, congrArg Mbx.lost hm⟩
    rw [ht, writeEvt_evtSlots hseal hl]
    exact tget_tput_self ..
  · have ht : t = evtLoss c s := post_lost h ha hs
    have hm : mbxOf t c = { mbxOf s c with
        evtTail := (mbxOf s c).evtTail + 1, lost := (mbxOf s c).lost + 1,
        lostRing := if (mbxOf s c).lost = 0 then s.ring else (mbxOf s c).lostRing } := by
      rw [ht, mbxOf_evtLoss, mbxOf_modMbx_self]
    refine ⟨congrArg Mbx.evtTail hm, congrArg Mbx.lost hm, by rw [ht]; rfl, ?_, fun hl => (congrArg Mbx.lostRing hm).trans (if_pos hl)⟩
    rw [ht]
    exact ctrGet_cnt_self _ _ _ _ _ (by decide)

end Sys2Proof.Proofs

/-! ## HALT-class faults (R476, R481, R497, R570) -/

namespace Sys2Proof.Machine

section
variable {s : State} {u k c : Nat} {d : List Nat}

/-- A record of a class above NOTE stands first in the MRAM log (R486). -/
theorem newRec_log_head {cls e : Nat} (h : cls ≠ 0) :
    ∃ r, (newRec cls u k c e d s).lko.log.head? = some r ∧ r.cls = cls ∧ r.unit = u ∧ r.code = k ∧ r.ring = s.ring ∧ r.detail = d := by
  simp only [newRec, if_neg h]
  split <;> exact ⟨_, rfl, rfl, rfl, rfl, rfl, rfl⟩

/-- The module is HALTED with keys and sessions gone and the outputs squelched (R476, R497). -/
theorem haltedInv_enterHalted (s : State) : haltedInv (enterHalted s) := by
  refine ⟨rfl, rfl, rfl, rfl, fun e he => ?_⟩
  obtain ⟨x, -, rfl⟩ := List.mem_map.mp (List.mem_filter.mp he).1
  rfl

theorem enterHalted_optics (s : State) (c : Nat) : (cageOf (enterHalted s) c).highPower = false :=
  tget_tkeep_of (f := fun g : Cage => { g with highPower := false }) (p := fun g : Cage => g.highPower = false) rfl
    (fun _ => rfl) s.link.cage (k1 c)

theorem haltedInv_haltFault : haltedInv (haltFault u k c d s) := haltedInv_enterHalted (newRec 3 u k c (unitSt s u).epoch d s)

theorem haltFault_optics (i : Nat) : (cageOf (haltFault u k c d s) i).highPower = false := enterHalted_optics _ i

theorem haltFault_since : (haltFault u k c d s).md.since = s.ring := newRec_ring ..

theorem haltFault_log_head : (haltFault u k c d s).lko.log.head?.map (fun r => (r.cls, r.unit, r.code, r.ring, r.detail)) =
    some (3, u, k, s.ring, d) := by
  obtain ⟨r, hr, h1, h2, h3, h4, h5⟩ := newRec_log_head (s := s) (cls := 3) (u := u) (k := k) (c := c) (d := d)
    (e := (unitSt s u).epoch) (by decide)
  rw [show (haltFault u k c d s).lko.log.head? = some r from hr, Option.map_some, h1, h2, h3, h4, h5]

/-- The owner keys and the requester bindings outlive HALTED, and every HALT is counted (R476). -/
theorem haltFault_trust : (haltFault u k c d s).trust.ownerKeys = s.trust.ownerKeys ∧
    (haltFault u k c d s).trust.binding = s.trust.binding ∧ (haltFault u k c d s).trust.tamper = s.trust.tamper + 1 := by
  have h : (newRec 3 u k c (unitSt s u).epoch d s).trust = s.trust := newRec_trust ..
  exact ⟨congrArg (fun t => t.ownerKeys) h, congrArg (fun t => t.binding) h, congrArg (fun t => t.tamper + 1) h⟩

theorem alarms_halted (h : s.md.mode = .halted) :
    alarmMajor s = true ∧ alarmMinor s = true ∧ alarmTiming s = true ∧ timStatus s = zeros 32 := by
  simp [alarmMajor, alarmMinor, alarmTiming, timStatus, timingValid, h]

theorem restartFault_recs_head : (restartFault u k c d s).lko.recs.head?.map (fun r => (r.cls, r.unit, r.code, r.detail)) =
    some (2, u, k, d) := by
  obtain ⟨r, hr, h1, h2, h3, -, -, -, -, h4, -⟩ := newRec_head s 2 u k c (unitSt s u).epoch d
  rw [show (restartFault u k c d s).lko.recs.head? = some r from hr, Option.map_some, h1, h2, h3, h4]

theorem newRec_restartAt {cls e : Nat} : (newRec cls u k c e d s).lko.restartAt = s.lko.restartAt := by
  simp only [newRec]
  split <;> rfl

theorem restartFault_restartAt : (restartFault u k c d s).lko.restartAt = some (min (s.lko.restartAt.getD (s.ran + 1)) (s.ran + 1)) :=
  congrArg (fun r => some (min (Option.getD r (s.ran + 1)) (s.ran + 1))) newRec_restartAt

end

end Sys2Proof.Machine

namespace Sys2Proof.Proofs
open Machine

/-- Settles O34: each finding by its fault, and what a HALT-class fault leaves. -/
theorem haltEffects : Obligations.HaltEffects := by
  intro s hh
  refine ⟨fun f addr u c d hf => ?_, fun addr => ⟨row_running hh rfl, _, row_running hh rfl, rfl, restartFault_recs_head,
    restartFault_restartAt⟩, fun f => ?_⟩
  · have hrow : exec (.halt f addr) s = .next (haltFault u c 255 d s) := by
      rcases hf with ⟨k, rfl, heq⟩ | ⟨rfl, heq⟩ <;> cases heq <;> exact row_running hh rfl
    obtain ⟨hkeys, hbind, htamper⟩ := haltFault_trust (s := s) (u := u) (k := c) (c := 255) (d := d)
    obtain ⟨hmaj, hmin, htim, hstat⟩ := alarms_halted (s := haltFault u c 255 d s) rfl
    exact ⟨_, hrow, haltedInv_haltFault, haltFault_since, haltFault_log_head, hkeys, hbind, htamper, haltFault_optics, hmaj, hmin,
      htim, hstat, haltFault_ring .., haltFault_tim .., haltFault_lnd ..⟩
  · obtain ⟨hkeys, hbind, htamper⟩ := haltFault_trust (s := s) (u := 0x47) (k := 0x0E02) (c := 255) (d := [f.val + 1])
    exact ⟨_, row_running hh rfl, haltedInv_haltFault, htamper, haltFault_log_head, hkeys, hbind⟩

end Sys2Proof.Proofs

/-! ## Switchovers of the pair and learn notices (R547 to R549) -/

namespace Sys2Proof.Machine

section
variable {s : State} {t : Nat}

/-! ### The messages of a switchover (R548) -/

/-- A SWITCH of the peer, where none is pending, is acknowledged and stands pending. -/
theorem switchTake_none (h : s.pair.pend = none) : switchTake t s =
    let u := pairSend 4 (leBytes 8 t) s
    { u with pair := { u.pair with pend := some (t, false, true) } } := by
  simp [switchTake, h, pairSend]

/-- A SWITCH at another boundary than the pending one cancels it, and is itself cancelled. -/
theorem switchTake_other {t' : Nat} {o a : Bool} (h : s.pair.pend = some (t', o, a)) (hne : t' ≠ t) :
    switchTake t s = pairCancel (pairSend 5 (leBytes 8 t) s) := if_neg (by simp [h, hne])

theorem ackTake_pending {o a : Bool} (h : s.pair.pend = some (t, o, a)) :
    ackTake t s = { s with pair := { s.pair with pend := some (t, o, true) } } := by
  simp [ackTake, h]

theorem ackTake_none (h : s.pair.pend = none) : ackTake t s = s := by simp [ackTake, h]

theorem cancelTake_pending {o a : Bool} (h : s.pair.pend = some (t, o, a)) : cancelTake t s = pairCancel s :=
  if_pos (by simp [h])

theorem cancelTake_none (h : s.pair.pend = none) : cancelTake t s = s := if_neg (by simp [h])

/-- No acknowledgement has come by the boundary of T − 1: the switchover is cancelled on both sides. -/
theorem ackTimeout_due (h : s.pair.pend = some (t, true, false)) (ht : t ≤ s.ring + 1) :
    ackTimeout s = pairSend 5 (leBytes 8 t) (pairCancel s) := by
  simp [ackTimeout, h, ht]

theorem ackTimeout_early (h : s.pair.pend = some (t, true, false)) (ht : s.ring + 1 < t) : ackTimeout s = s := by
  simp [ackTimeout, h, Nat.not_le.mpr ht]

theorem ackTimeout_none (h : s.pair.pend = none) : ackTimeout s = s := by simp [ackTimeout, h]

/-! ### The swap of the roles (R548) -/

variable {o a : Bool} {n : Nat}

theorem roleSwap_early (h : s.pair.pend = some (t, o, a)) (ht : n < t) : roleSwap n s = s := by
  simp [roleSwap, swapDue, h, Nat.not_le.mpr ht]

theorem roleSwap_acknowledged (h : s.pair.pend = some (t, o, a)) (ht : t ≤ n) (ha : o = false ∨ a = true) :
    roleSwap n s = setRole (!s.pair.role) 0 { s with pair := { s.pair with pend := none } } := by
  have hdue : swapDue n s = some true := by rcases ha with rfl | rfl <;> simp [swapDue, h, ht]
  simp [roleSwap, hdue]

theorem roleSwap_unacknowledged (h : s.pair.pend = some (t, true, false)) (ht : t ≤ n) : roleSwap n s = pairCancel s := by
  simp [roleSwap, swapDue, h, ht]

theorem roleSwap_none (h : s.pair.pend = none) : roleSwap n s = s := by simp [roleSwap, swapDue, h]

theorem setRole_pair (r : Bool) (cause : Nat) (s : State) :
    (setRole r cause s).pair = { s.pair with role := r, roleRing := s.ring } := pairState_pair ..

/-! ### Learn notices (R549) -/

/-- The notices that the next message takes. -/
def noticesDue (s : State) : List (Nat × Nat × List Byte) := s.pair.queue.take (min 24 (8192 - s.pair.ringNotices))

theorem noticeSend_due (hk : pairKeyed s = true) (hl : noticesDue s ≠ []) : noticeSend s =
    let u := pairSend 6 ((noticesDue s).flatMap (fun e => e.2.2)) (cnt .pairNoticeTx 0 0 (noticesDue s).length s)
    { u with pair := { u.pair with queue := u.pair.queue.drop (noticesDue s).length,
                                   ringNotices := u.pair.ringNotices + (noticesDue s).length } } :=
  if_neg (by rw [Bool.or_eq_true, List.isEmpty_iff]; simp only [hk, Bool.not_true, Bool.false_eq_true, false_or]; exact hl)

theorem noticeSend_idle (h : pairKeyed s = false ∨ noticesDue s = []) : noticeSend s = s := by
  refine if_pos ?_
  rcases h with h | h
  · simp [h]
  · rw [Bool.or_eq_true]
    exact .inr (List.isEmpty_iff.mpr h)

theorem noticesDue_length (s : State) : (noticesDue s).length ≤ 24 ∧ (noticesDue s).length ≤ 8192 - s.pair.ringNotices := by
  simp only [noticesDue, List.length_take]
  omega

/-- A message of 49 bytes carries one notice. -/
theorem noticeTake_one {b : List Byte} (h : b.length = 49) : noticeTake b s = noticeOne b s := by
  have hne : b ≠ [] := by rintro rfl; simp at h
  have hrec : recordsOf 49 b = [b] := by simp [recordsOf, h, chunks, hne, List.take_of_length_le (Nat.le_of_eq h)]
  simp [noticeTake, hrec, foldS]

end

end Sys2Proof.Machine

namespace Sys2Proof.Proofs
open Machine

/-- Settles O41: each message and each row by the equation of its operation. -/
theorem pairRoles : Obligations.PairRoles := by
  intro s hh
  refine ⟨fun seq t hu hk hs => ⟨fun hp => ?_, fun t' o a hp hne => ?_, fun o a hp => ⟨?_, ?_⟩, fun hp => ⟨?_, ?_⟩, fun body => ?_⟩,
    fun seq t body hu hs ok => ?_, fun hb => ⟨boundaryRow_off _ hb, boundaryRow_off _ hb⟩, fun t hb hp => ⟨fun ht => ?_, fun ht => ?_⟩,
    fun t o a hb hp => ⟨fun ht => ?_, fun ht ha => ?_, fun ht ho ha => ?_⟩, fun hp => ⟨?_, ?_⟩, ⟨fun hk hl => ?_, fun h => ?_⟩,
    fun n c hn hc => ⟨fun h hm he => ?_, fun h => ?_⟩⟩
  · exact ⟨_, row_running hh ((pairTake_accepted hu hk hs).trans (switchTake_none hp)), rfl, rfl, rfl⟩
  · exact row_running hh ((pairTake_accepted hu hk hs).trans (switchTake_other hp hne))
  · exact row_running hh ((pairTake_accepted hu hk hs).trans (ackTake_pending hp))
  · exact row_running hh ((pairTake_accepted hu hk hs).trans (cancelTake_pending hp))
  · exact row_running hh ((pairTake_accepted hu hk hs).trans (ackTake_none hp))
  · exact row_running hh ((pairTake_accepted hu hk hs).trans (cancelTake_none hp))
  · exact row_running hh (pairTake_accepted hu hk hs)
  · have hbad (f : State → State) : pairTake seq.toNat ok f s = cnt .pairMsgReject 0 0 1 s := pairTake_discarded hu (.inr (.inr hs))
    exact ⟨row_running hh (hbad _), row_running hh (hbad _), row_running hh (hbad _), row_running hh (hbad _)⟩
  · exact (boundaryRow_at _ hh hb).trans (congrArg Host.Outcome.next (ackTimeout_due hp ht))
  · exact (boundaryRow_at _ hh hb).trans (congrArg Host.Outcome.next (ackTimeout_early hp ht))
  · exact (boundaryRow_at _ hh hb).trans (congrArg Host.Outcome.next (roleSwap_early hp ht))
  · refine ⟨_, (boundaryRow_at _ hh hb).trans (congrArg Host.Outcome.next (roleSwap_acknowledged hp ht ha)), ?_⟩
    rw [setRole_pair]
    exact ⟨rfl, rfl, rfl⟩
  · subst ho ha
    exact (boundaryRow_at _ hh hb).trans (congrArg Host.Outcome.next (roleSwap_unacknowledged hp ht))
  · exact boundaryRow_idle hh fun _ => roleSwap_none hp
  · exact boundaryRow_idle hh fun _ => ackTimeout_none hp
  · obtain ⟨h24, h8192⟩ := noticesDue_length s
    refine ⟨_, row_running hh (noticeSend_due hk hl), rfl, rfl, ?_, h24, rfl, ctrGet_cnt_self _ _ _ _ _ (by decide)⟩
    show s.pair.ringNotices + (noticesDue s).length ≤ _
    omega
  · exact row_running hh (noticeSend_idle h)
  · subst hc
    exact (noticeTake_one hn).trans (if_pos ⟨h, hm, he⟩)
  · subst hc
    refine (noticeTake_one hn).trans (if_neg ?_)
    rintro ⟨hlt, hm, he⟩
    rcases h with h | h | h
    · omega
    · simp [h] at hm
    · simp [h] at he

end Sys2Proof.Proofs

/-! ## SPDM requests, sessions and their end (R463 to R469, R498) -/

namespace Sys2Proof.Machine

section
variable {s t : State} {tr : Nat} {inside : Bool} {m : Spdm} {r : Option (List Byte)}

/-- On an open transport the outcome of a request is replied. -/
theorem spdmRow_open (ho : transportOpen s tr = true) (h : spdm tr inside m s = (r, t)) :
    (Host.Outcome.next (spdmRow tr inside m s) : Out) = .next (replied tr r t) := by
  simp [spdmRow, replied, ho, h]

/-- An open transport other than the management port is none of ROM recovery. -/
theorem recovery_of_transportOpen (ho : transportOpen s tr = true) (h : tr ≠ 32 ∨ s.trust.recovery = false) :
    s.trust.recovery = false := by
  rcases h with h | h
  · by_contra hr
    simp [transportOpen, dmaStopped, h, hr] at ho
  · exact h

/-! ### What each request answers -/

/-- HALTED answers six requests alone (R498). -/
theorem spdm_halted (hh : halted s = true) (h : haltedAnswers m = false) : spdm tr inside m s = (none, s) := by
  simp [spdm, hh, h]

/-- A request that R469 does not admit is counted. -/
theorem spdm_denied (hh : (halted s && !haltedAnswers m) = false) (h : notAdmitted tr inside m s = true) :
    spdm tr inside m s = (none, cnt .secReqDenied 0 0 1 s) := by
  simp [spdm, hh, h]

/-- ROM recovery admits no request of a session (R460). -/
theorem notAdmitted_of_recovery (hr : s.trust.recovery = true) (h : sessionRequest m = true) :
    notAdmitted tr inside m s = true := by simp [notAdmitted, hr, h]

theorem spdm_getVersion : spdm tr inside .getVersion s =
    (some (spdmMsg 0x04 (packLE [(1, 0), (1, 1), (2, 0x1300)])), setSpdm tr { version := true } s) := by
  simp [spdm, notAdmitted, haltedAnswers, sessionRequest]

theorem spdm_getCapabilities : spdm tr inside .getCapabilities s =
    if (spdmOf s tr).version then (some (spdmMsg 0x61 spdmCaps), setSpdm tr { spdmOf s tr with caps := true } s) else (none, s) := by
  simp [spdm, notAdmitted, haltedAnswers, sessionRequest]

theorem spdm_negotiate : spdm tr inside .negotiate s =
    if (spdmOf s tr).caps then (some (spdmMsgP 0x63 4 spdmAlgs), setSpdm tr { spdmOf s tr with algs := true } s) else (none, s) := by
  simp [spdm, notAdmitted, haltedAnswers, sessionRequest]

theorem spdm_getDigests : spdm tr inside .getDigests s =
    if (spdmOf s tr).algs then (some (spdmMsgP 0x01 3 (digest (certChain 0) ++ digest (certChain 1))), s) else (none, s) := by
  simp [spdm, notAdmitted, haltedAnswers, sessionRequest]

theorem spdm_getCertificate (slot : Nat) : spdm tr inside (.getCertificate slot) s =
    if (spdmOf s tr).algs && decide (slot < 2) then (some (spdmMsgP 0x02 slot (certChain slot)), s) else (none, s) := by
  simp [spdm, notAdmitted, haltedAnswers, sessionRequest]

theorem spdm_getMeasurements (i : BitVec 8) : spdm tr inside (.getMeasurements i) s =
    if (spdmOf s tr).algs then (some (spdmMsg 0x60 (measBlock s i.toNat)), s) else (none, s) := by
  simp [spdm, notAdmitted, haltedAnswers, sessionRequest]

section
variable (hh : halted s = false) (hr : s.trust.recovery = false) {key : List Byte}
include hh

/-- A key offered inside a session is refused (R466). -/
theorem spdm_keyOffer_inside : spdm tr true (.keyOffer key) s = (none, cnt .secReqDenied 0 0 1 s) :=
  spdm_denied (by simp [hh]) (by simp [notAdmitted])

include hr

theorem spdm_keyOffer_accepted (ha : (spdmOf s tr).algs = true) (hk : keyAccepted s tr key = true) :
    spdm tr false (.keyOffer key) s =
      (some (spdmMsg 0x7E []), setSpdm tr { spdmOf s tr with offered := some key, keyEx := false } s) := by
  simp [spdm, notAdmitted, hh, hr, ha, hk]

theorem spdm_keyOffer_failed (ha : (spdmOf s tr).algs = true) (hk : keyAccepted s tr key = false) :
    spdm tr false (.keyOffer key) s = (none, authFail tr s) := by
  simp [spdm, notAdmitted, hh, hr, ha, hk]

theorem spdm_keyExchange : spdm tr inside .keyExchange s =
    if (spdmOf s tr).offered.isSome then
      (some (spdmMsgP 0x64 30 (Config.crypto 28 [Config.fusedKey 0])), setSpdm tr { spdmOf s tr with keyEx := true } s)
    else (none, s) := by
  simp [spdm, notAdmitted, hh, hr]

theorem spdm_finish_none (ok : Bool) (h : (spdmOf s tr).offered = none) : spdm tr inside (.finish ok) s = (none, s) := by
  simp [spdm, notAdmitted, hh, hr, h]

theorem spdm_finish_false : spdm tr inside (.finish false) s = (none, s) := by
  cases h : (spdmOf s tr).offered <;> simp [spdm, notAdmitted, hh, hr, h]

/-- FINISH under the offered key opens the session (R466). -/
theorem spdm_finish_accepted (ho : (spdmOf s tr).offered = some key) (hx : (spdmOf s tr).keyEx = true)
    (hk : keyAccepted s tr key = true) : spdm tr inside (.finish true) s = (some (spdmMsg 0x65 []), openSession tr key s) := by
  simp [spdm, notAdmitted, hh, hr, ho, hx, hk]

theorem spdm_endSession : spdm tr inside .endSession s =
    if (session s tr).isSome then (some (spdmMsg 0x6C []), closeSession tr s) else (none, s) := by
  simp [spdm, notAdmitted, hh, hr]

end

/-! ### Sessions (R466, R467) -/

@[simp] theorem replied_trust (tr : Nat) (r : Option (List Byte)) (t : State) : (replied tr r t).trust = t.trust := by
  unfold replied
  split <;> rfl

@[simp] theorem session_replied (tr : Nat) (r : Option (List Byte)) (t : State) (c : Nat) :
    session (replied tr r t) c = session t c := by simp [session]

theorem session_openSession_self (key : List Byte) :
    session (openSession tr key s) tr = some { key := key, lastMsg := s.ran, ems := s.freeCtr } := by
  simp [session, openSession]

theorem session_openSession_ne (key : List Byte) {c : Nat} (h : c ≠ tr) : session (openSession tr key s) c = session s c :=
  tget_tput_ne none s.trust.sess (some { key := key, lastMsg := s.ran, ems := s.freeCtr }) (by simp [k1, h])

theorem session_closeSession_self : session (closeSession tr s) tr = none :=
  tget_tput_self none s.trust.sess (k1 tr) none

/-- FINISH binds a compartment that no key is bound to. -/
theorem binding_openSession_unbound (key : List Byte) (h0 : 0 < tr) (h32 : tr < 32) (hb : tget [] s.trust.binding (k1 tr) = []) :
    tget [] (openSession tr key s).trust.binding (k1 tr) = key := by
  simp [openSession, h0, h32, hb]

theorem binding_openSession_bound (key : List Byte) (h : tr = 0 ∨ tr = 32 ∨ tget [] s.trust.binding (k1 tr) ≠ []) :
    (openSession tr key s).trust.binding = s.trust.binding := by
  refine if_neg ?_
  rcases h with rfl | rfl | h <;> simp_all

theorem sessionTimeout_due {y : Sess} (h : session s tr = some y) (ht : y.lastMsg + 60000000 ≤ s.ran) :
    sessionTimeout tr s = closeSession tr s := by simp [sessionTimeout, h, ht]

theorem sessionTimeout_early {y : Sess} (h : session s tr = some y) (ht : s.ran < y.lastMsg + 60000000) :
    sessionTimeout tr s = s := by simp [sessionTimeout, h, Nat.not_le.mpr ht]

end

end Sys2Proof.Machine

namespace Sys2Proof.Proofs
open Machine

/-- Settles O42: each row replies what its request answers, and a session opens and ends by its table. -/
theorem spdmExchange : Obligations.SpdmExchange := by
  intro s tr ho
  refine ⟨fun h32 hr => ⟨fun key => ?_, fun hh => ⟨?_, fun ok => ?_, ?_⟩⟩, spdmRow_open ho spdm_getVersion, fun hv => ?_, fun hc => ?_,
    fun ha => ⟨?_, fun slot hs => ?_, fun slot hs => ?_, fun i => ?_⟩, fun hv => ?_, fun ha => ⟨?_, fun i => ?_⟩,
    fun hh key ok inside => ⟨?_, ?_, ?_, ?_⟩, fun hh hadm => ?_, fun y hy => ?_, fun y hy => ?_, fun hs => ?_, session_closeSession_self⟩
  · cases hh : halted s
    · exact spdmRow_open ho (spdm_denied (by simp [hh]) (notAdmitted_of_recovery hr rfl))
    · exact spdmRow_open ho (spdm_halted hh rfl)
  · exact spdmRow_open ho (spdm_denied (by simp [hh]) (notAdmitted_of_recovery hr rfl))
  · exact spdmRow_open ho (spdm_denied (by simp [hh]) (notAdmitted_of_recovery hr rfl))
  · exact spdmRow_open ho (spdm_denied (by simp [hh]) (notAdmitted_of_recovery hr rfl))
  · exact spdmRow_open ho (spdm_getCapabilities.trans (if_pos hv))
  · exact spdmRow_open ho (spdm_negotiate.trans (if_pos hc))
  · exact spdmRow_open ho (spdm_getDigests.trans (if_pos ha))
  · exact spdmRow_open ho ((spdm_getCertificate slot).trans (if_pos (by simp [hs, show (spdmOf s tr).algs = true from ha])))
  · exact spdmRow_open ho ((spdm_getCertificate slot).trans (if_neg (by simp [Nat.not_lt.mpr hs])))
  · exact spdmRow_open ho ((spdm_getMeasurements i).trans (if_pos ha))
  · exact spdmRow_open ho (spdm_getCapabilities.trans (if_neg (by simp [show (spdmOf s tr).version = false from hv])))
  · exact spdmRow_open ho (spdm_getDigests.trans (if_neg (by simp [show (spdmOf s tr).algs = false from ha])))
  · exact spdmRow_open ho ((spdm_getMeasurements i).trans (if_neg (by simp [show (spdmOf s tr).algs = false from ha])))
  · exact spdmRow_open ho (spdm_halted hh rfl)
  · exact spdmRow_open ho (spdm_halted hh rfl)
  · exact spdmRow_open ho (spdm_halted hh rfl)
  · exact spdmRow_open ho (spdm_halted hh rfl)
  · have hr := recovery_of_transportOpen ho (hadm.imp_left fun h e => h (Fin.ext e))
    refine ⟨fun key ha hk => spdmRow_open ho (spdm_keyOffer_accepted hh hr ha hk),
      fun key ha hk => spdmRow_open ho (spdm_keyOffer_failed hh hr ha hk), fun key => spdmRow_open ho (spdm_keyOffer_inside hh),
      fun hoff => ?_, fun hoff => ⟨?_, fun ok => spdmRow_open ho (spdm_finish_none hh hr ok hoff)⟩, fun key hoff hx hk => ?_,
      spdmRow_open ho (spdm_finish_false hh hr), fun hs => ?_, fun hs => ?_⟩
    · exact spdmRow_open ho ((spdm_keyExchange hh hr).trans (if_pos (Option.isSome_iff_ne_none.mpr hoff)))
    · exact spdmRow_open ho ((spdm_keyExchange hh hr).trans (if_neg (by simp [show (spdmOf s tr).offered = none from hoff])))
    · refine ⟨_, spdmRow_open ho (spdm_finish_accepted hh hr hoff hx hk), ?_, fun c hc => ?_, ?_, fun h0 h32 hb => ?_, fun hb => ?_⟩
      · rw [session_replied, session_openSession_self]
      · rw [session_replied, session_openSession_ne key hc]
      · rw [replied_trust]
        rfl
      · rw [replied_trust, binding_openSession_unbound key h0 h32 hb]
      · rw [replied_trust, binding_openSession_bound key hb]
    · exact spdmRow_open ho ((spdm_endSession hh hr).trans (if_pos (Option.isSome_iff_ne_none.mpr hs)))
    · exact spdmRow_open ho ((spdm_endSession hh hr).trans (if_neg (by simp [hs])))
  · exact fun ht => congrArg Host.Outcome.next (sessionTimeout_due hy ht)
  · exact fun ht => congrArg Host.Outcome.next (sessionTimeout_early hy ht)
  · exact congrArg Host.Outcome.next (sessionTimeout_closed hs)

end Sys2Proof.Proofs

/-! ## The management port (R460, R469) -/

namespace Sys2Proof.Machine

section
variable {s : State}

theorem mgmtOk_trust (d : List Byte) : (mgmtOk d s).trust = s.trust := rfl

theorem mbxOf_sessMsg (tr c : Nat) : mbxOf (sessMsg tr s) c = mbxOf s c := rfl

/-! ### FW_LOAD -/

/-- The slot that FW_LOAD fills. -/
def loaded (valid : Bool) (sec : Nat) (image : FwImage) : FwSlot :=
  { valid := valid, secVersion := sec, version := image.version, bytes := image.bytes }

/-- The slot that does not run takes the image. -/
def loadSlot (x : FwSlot) (s : State) : State :=
  { s with trust := if s.trust.runB then { s.trust with fwA := x } else { s.trust with fwB := x } }

theorem loadSlot_runB {x : FwSlot} (h : s.trust.runB = true) : (loadSlot x s).trust = { s.trust with fwA := x } := if_pos h

theorem loadSlot_runA {x : FwSlot} (h : s.trust.runB = false) : (loadSlot x s).trust = { s.trust with fwB := x } :=
  if_neg (by simp [h])

section
variable (hh : halted s = false) {tr : Nat} (valid : Bool) (sec : Nat) (image : FwImage)
include hh

/-- The port loads an image inside a session of CID 0, and in ROM recovery without one. -/
theorem fwLoad_port (h : s.trust.recovery = true ∨ session s 32 ≠ none) :
    fwLoad 32 valid sec image s = mgmtOk [] (loadSlot (loaded valid sec image) (sessMsg 32 s)) := by
  have hok : (if s.trust.recovery then (32 : Nat) == 32 else ((32 : Nat) == 0 || (32 : Nat) == 32) && (session s 32).isSome) = true := by
    rcases h with h | h
    · simp [h]
    · simp [Option.isSome_iff_ne_none.mpr h]
  simp only [fwLoad, hh, hok, loadSlot, loaded, Bool.false_eq_true, if_false, if_true]

theorem fwLoad_port_denied (hr : s.trust.recovery = false) (h : session s 32 = none) :
    fwLoad 32 valid sec image s = mgmtDeny s := by
  simp [fwLoad, hh, hr, h]

theorem fwLoad_mailbox_denied (htr : tr ≠ 32) (h : tr ≠ 0 ∨ session s tr = none ∨ s.trust.recovery = true) :
    fwLoad tr valid sec image s = cnt .secReqDenied 0 0 1 s := by
  have hok : (if s.trust.recovery then tr == 32 else (tr == 0 || tr == 32) && (session s tr).isSome) = false := by
    rcases h with h | h | h <;> simp [h, htr]
  simp [fwLoad, hh, hok, htr]

/-! ### CID0_PASID_SET -/

variable {p : Nat}

theorem pasidSet_denied (h : s.trust.recovery = true ∨ session s 32 = none) : pasidSet p s = mgmtDeny s := by
  rcases h with h | h <;> simp [pasidSet, hh, h]

section
variable (hr : s.trust.recovery = false) (hs : session s 32 ≠ none)
include hr hs

/-- A free PASID waits for the next boundary. -/
theorem pasidSet_free (he : (mbxOf s 0).enabled = false)
    (hp : ∀ c ∈ allCids, c ≠ 0 → cmpDefined s c = true → (cmpOf s c).pasid ≠ p) :
    pasidSet p s = mgmtOk [] { sessMsg 32 s with trust := { (sessMsg 32 s).trust with pasidNext := some p } } := by
  have hfree : (allCids.drop 1).any (fun c => cmpDefined (sessMsg 32 s) c && (cmpOf (sessMsg 32 s) c).pasid == p) = false := by
    refine List.any_eq_false.mpr fun c hc hb => ?_
    have hne : c ≠ 0 := by
      rintro rfl
      exact absurd hc (by decide)
    rw [Bool.and_eq_true, beq_iff_eq] at hb
    obtain ⟨hd, hpas⟩ := hb
    exact hp c (List.mem_of_mem_drop hc) hne hd hpas
  have hopen : (session s 32).isNone = false := Option.isNone_eq_false_iff.mpr (Option.isSome_iff_ne_none.mpr hs)
  simp only [pasidSet, hh, hr, hopen, mbxOf_sessMsg, he, hfree, Bool.or_false, Bool.false_eq_true, if_false]

/-- With CID 0's mailbox enabled the request is refused with an SPDM ERROR. -/
theorem pasidSet_enabled (he : (mbxOf s 0).enabled = true) : pasidSet p s = { sessMsg 32 s with
    host := { (sessMsg 32 s).host with mgmtReply := some { rsp := { status := .denied, data := spdmBytes none } } } } := by
  simp [pasidSet, hh, hr, hs, mbxOf_sessMsg, he]

end

/-! ### MGMT_LAENT -/

variable (o : Op) (q : Req)

theorem mgmtLaent_denied (h : session s 32 = none ∨ s.trust.recovery = true ∨ o ∉ mgmtOps) : mgmtLaent o q s = mgmtDeny s := by
  rcases h with h | h | h <;> simp [mgmtLaent, hh, h]

/-- What a command of CID 0 leaves over the port, the ring of a RESTART included, before the reply. -/
def mgmtRun (o : Op) (q : Req) (s : State) : State :=
  let r := evalOp (mgmtOp o) (mgmtReq o q) s.ring (sessMsg 32 s)
  let t := { r.1.st with items := r.1.st.items ++ r.2.toList }
  if o == .restart && r.1.status == .ok then restartBy (restartRing t) t else t

theorem mgmtLaent_admitted (hs : session s 32 ≠ none) (hr : s.trust.recovery = false) (ho : o ∈ mgmtOps) :
    mgmtLaent o q s = { mgmtRun o q s with host := { (mgmtRun o q s).host with mgmtReply := some { rsp :=
      { rspOf o (mgmtReq o q) s.ring (evalOp (mgmtOp o) (mgmtReq o q) s.ring (sessMsg 32 s)).1 with
        rotation := (cmpOf (mgmtRun o q s) 0).rotation } } } } := by
  have hopen : (session s 32).isNone = false := Option.isNone_eq_false_iff.mpr (Option.isSome_iff_ne_none.mpr hs)
  have hcond : ((session s 32).isNone || s.trust.recovery || !mgmtOps.contains o) = false := by simp [hopen, hr, ho]
  exact (if_neg (by simp [hh])).trans (if_neg (by simp only [hcond, Bool.false_eq_true, not_false_eq_true]))

end

theorem mgmtRun_items (o : Op) (q : Req) (s : State) : (mgmtRun o q s).items =
    (evalOp (mgmtOp o) (mgmtReq o q) s.ring (sessMsg 32 s)).1.st.items ++
      (evalOp (mgmtOp o) (mgmtReq o q) s.ring (sessMsg 32 s)).2.toList := by
  unfold mgmtRun
  dsimp only
  split <;> rfl

theorem mgmtRun_lko (o : Op) (q : Req) (s : State) : (mgmtRun o q s).lko =
    (let a := (evalOp (mgmtOp o) (mgmtReq o q) s.ring (sessMsg 32 s)).1
     if o = .restart ∧ a.status = .ok then restartBy (restartRing a.st) a.st else a.st).lko := by
  have hbool (o : Op) (st : Status) : (o == .restart && st == .ok) = decide (o = .restart ∧ st = .ok) := by
    rw [Bool.decide_and]
    rfl
  by_cases h : o = .restart ∧ (evalOp (mgmtOp o) (mgmtReq o q) s.ring (sessMsg 32 s)).1.status = .ok
  · rw [if_pos h]
    exact (congrArg State.lko (if_pos ((hbool ..).trans (decide_eq_true h)))).trans rfl
  · rw [if_neg h]
    exact (congrArg State.lko (if_neg (by rw [hbool]; exact fun e => h (of_decide_eq_true e)))).trans rfl

end

end Sys2Proof.Machine

namespace Sys2Proof.Proofs
open Machine

/-- Settles O43: each request by the equation of its operation, admitted or refused. -/
theorem managementPort : Obligations.ManagementPort := by
  intro s hh
  refine ⟨fun v sec ver hr hs => ?_, fun v sec ver hr => ?_, fun v sec ver hr hs => ?_, fun tr v sec ver htr h => ?_,
    fun p hr hs => ⟨fun he hp => ?_, fun he => ?_⟩, fun p hs => ?_, fun o q h => ?_, fun o q hs hr ho => ?_⟩
  · refine ⟨_, congrArg Host.Outcome.next (fwLoad_port hh v sec ver (.inr hs)), rfl, fun hb => ?_, fun hb => ?_, ?_⟩
    · rw [mgmtOk_trust, loadSlot_runB (s := sessMsg 32 s) hb]
      exact ⟨rfl, rfl⟩
    · rw [mgmtOk_trust, loadSlot_runA (s := sessMsg 32 s) hb]
      exact ⟨rfl, rfl⟩
    · cases hb : s.trust.runB
      · rw [mgmtOk_trust, loadSlot_runA (s := sessMsg 32 s) hb]
        exact ⟨hb, rfl⟩
      · rw [mgmtOk_trust, loadSlot_runB (s := sessMsg 32 s) hb]
        exact ⟨hb, rfl⟩
  · refine ⟨_, congrArg Host.Outcome.next (fwLoad_port hh v sec ver (.inl hr)), fun hb => ?_⟩
    rw [mgmtOk_trust, loadSlot_runA (s := sessMsg 32 s) hb]
    exact ⟨rfl, rfl⟩
  · exact congrArg Host.Outcome.next (fwLoad_port_denied hh v sec ver hr hs)
  · exact congrArg Host.Outcome.next (fwLoad_mailbox_denied hh v sec ver htr h)
  · exact congrArg Host.Outcome.next (pasidSet_free hh hr hs he hp)
  · exact ⟨_, congrArg Host.Outcome.next (pasidSet_enabled hh hr hs he), rfl, rfl⟩
  · exact congrArg Host.Outcome.next (pasidSet_denied hh (.inr hs))
  · exact congrArg Host.Outcome.next (mgmtLaent_denied hh o q h)
  · exact ⟨_, congrArg Host.Outcome.next (mgmtLaent_admitted hh o q hs hr ho), mgmtRun_items o q s, mgmtRun_lko o q s, rfl⟩

end Sys2Proof.Proofs

/-! ## Supply and temperature supervision (R560 to R566, R571) -/

namespace Sys2Proof.Machine

section
variable {s : State}

/-! ### Readings (R562, R563) -/

theorem readingOk_out {k i : Nat} {lo hi : Int} {step : Option Nat} {v : Int} (h : v < lo ∨ hi < v) :
    readingOk s k i lo hi step v = false := by
  rcases h with h | h <;> simp [readingOk, Int.not_le.mpr h]

/-- A reading in its range passes where the last one lies near it. -/
theorem readingOk_near {k i d : Nat} {lo hi v : Int} (hlo : lo ≤ v) (hhi : v ≤ hi)
    (h : ∀ old, readingOf s k i = some old → (v - old).natAbs ≤ d) : readingOk s k i lo hi (some d) v = true := by
  cases hr : readingOf s k i with
  | none => simp [readingOk, hlo, hhi, hr]
  | some old => simpa [readingOk, hlo, hhi, hr] using h old hr

theorem readingOk_far {k i d : Nat} {lo hi v old : Int} (hr : readingOf s k i = some old) (h : d < (v - old).natAbs) :
    readingOk s k i lo hi (some d) v = false := by
  simp [readingOk, hr, h]

theorem supplyOk_input_out {v : Int} (h : v < 0 ∨ 320000 < v) : supplyOk s .input v = false :=
  readingOk_out (s := s) (k := 0) (i := 0) (step := none) h

theorem supplyOk_bulk_out {v : Int} (h : v < 0 ∨ 480000 < v) : supplyOk s .bulk v = false :=
  readingOk_out (s := s) (k := 1) (i := 0) (step := some 20000) h

theorem supplyReading_kept {x : Supply} {v : Int} (h : supplyOk s x v = true) :
    supplyReading x v s = overstress x v (keepReading x.place.1 x.place.2 v s) := if_pos h

theorem supplyReading_failed {x : Supply} {v : Int} (h : supplyOk s x v = false) :
    supplyReading x v s = note 0x48 0x1001 255 [if x.place.1 = 2 then 2 + x.place.2 else x.place.1, detailWord v] s :=
  if_neg (by simp [h])

/-- A bulk voltage above 450 V for more than 1 ms halts the module. -/
theorem overstress_bulk {v : Int} {r : Nat} (hv : 450000 < v) (hr : s.pwr.bulkHigh = some r) (ht : r + 1000 < s.ran) :
    overstress .bulk v s = haltFault 0x48 0x0F08 255 [1] s := by
  simp [overstress, Int.not_le.mpr hv, hr, ht]

/-- The record of a HALT-class fault stands first in the queue. -/
theorem haltFault_recs_head (u k c : Nat) (d : List Nat) :
    (haltFault u k c d s).lko.recs.head?.map (fun r => (r.cls, r.code, r.detail)) = some (3, k, d) := by
  obtain ⟨r, hr, h1, -, h3, -, -, -, -, h4, -⟩ := newRec_head s 3 u k c (unitSt s u).epoch d
  rw [show (haltFault u k c d s).lko.recs.head? = some r from hr, Option.map_some, h1, h3, h4]

/-! ### Temperatures (R565) -/

/-- The warning of a zone is set or taken back, and posted. -/
def warnStep (z i : Nat) (v : Int) (s : State) : State :=
  let set (b : Bool) : State := { s with pwr := { s.pwr with warn := tput false s.pwr.warn (k2 z i) b } }
  if !tget false s.pwr.warn (k2 z i) && decide (warnAt z ≤ v) then powerAlert 4 z (v % 2 ^ 32).toNat (set true)
  else if tget false s.pwr.warn (k2 z i) && decide (v ≤ warnAt z - 80) then powerAlert 5 z (v % 2 ^ 32).toNat (set false)
  else s

/-- A Grove die above its threshold is fenced. -/
def groveHot (z i : Nat) (v : Int) (s : State) : State := if z = 1 ∧ 1680 < v then fenceCause (uGrove i) 3 s else s

/-- The shutdown of a zone: counted, posted, and the rails are to fall. -/
def zoneOff (z : Nat) (v : Int) (s : State) : State :=
  let t := powerDown (powerAlert 6 z (v % 2 ^ 32).toNat (cnt .pwrThermalOff 0 0 1 s))
  { t with pwr := { t.pwr with offZone := some z } }

theorem thermal_eq (z i : Nat) (v : Int) (s : State) : thermal z i v s =
    if shutAt z ≤ v ∧ (groveHot z i v (warnStep z i v s)).pwr.offZone = none then zoneOff z v (groveHot z i v (warnStep z i v s))
    else groveHot z i v (warnStep z i v s) := rfl

section
variable {z i : Nat} {v : Int}

theorem warnStep_set (hw : tget false s.pwr.warn (k2 z i) = false) (h : warnAt z ≤ v) : warnStep z i v s =
    powerAlert 4 z (v % 2 ^ 32).toNat { s with pwr := { s.pwr with warn := tput false s.pwr.warn (k2 z i) true } } :=
  if_pos (by simp [hw, h])

theorem warnStep_cleared (hw : tget false s.pwr.warn (k2 z i) = true) (h : v ≤ warnAt z - 80) : warnStep z i v s =
    powerAlert 5 z (v % 2 ^ 32).toNat { s with pwr := { s.pwr with warn := tput false s.pwr.warn (k2 z i) false } } :=
  (if_neg (by simp [hw])).trans (if_pos (by simp [hw, h]))

theorem warnStep_below (hw : tget false s.pwr.warn (k2 z i) = false) (h : v < warnAt z) : warnStep z i v s = s := by
  simp [warnStep, hw, Int.not_le.mpr h]

theorem warnStep_stands (hw : tget false s.pwr.warn (k2 z i) = true) (h : warnAt z - 80 < v) : warnStep z i v s = s := by
  simp [warnStep, hw, Int.not_le.mpr h]

theorem groveHot_other (h : z ≠ 1 ∨ v ≤ 1680) : groveHot z i v s = s := if_neg (by omega)

/-- What the shutdown of a zone reads of the state, and what it must keep. -/
def offView (s : State) := ((s.pwr.offZone, s.pwr.fallAt, s.pwr.page, s.pwr.on), (s.md, s.ran, s.clock), (s.lnd, s.cut))

theorem offView_warnStep (z i : Nat) (v : Int) (s : State) : offView (warnStep z i v s) = offView s := by
  unfold warnStep
  dsimp only
  split
  · simp [offView, powerAlert]
  · split
    · simp [offView, powerAlert]
    · rfl

theorem offView_fenceCause (u c : Nat) (s : State) : offView (fenceCause u c s) = offView s := by
  unfold fenceCause
  split
  · simp [offView]
  · rfl

theorem offView_groveHot (z i : Nat) (v : Int) (s : State) : offView (groveHot z i v s) = offView s := by
  unfold groveHot
  split
  · exact offView_fenceCause ..
  · rfl

theorem offView_hot (z i : Nat) (v : Int) (s : State) : offView (groveHot z i v (warnStep z i v s)) = offView s :=
  (offView_groveHot ..).trans (offView_warnStep ..)

theorem offZone_hot (z i : Nat) (v : Int) (s : State) : (groveHot z i v (warnStep z i v s)).pwr.offZone = s.pwr.offZone :=
  congrArg (fun x => x.1.1) (offView_hot z i v s)

/-- Below the shutdown threshold, or with a zone kept already, a reading warns and fences alone. -/
theorem thermal_on (h : v < shutAt z ∨ s.pwr.offZone ≠ none) : thermal z i v s = groveHot z i v (warnStep z i v s) := by
  rw [thermal_eq, offZone_hot]
  refine if_neg ?_
  rintro ⟨hv, ho⟩
  rcases h with h | h
  · omega
  · exact h ho

theorem thermal_off (h : shutAt z ≤ v) (ho : s.pwr.offZone = none) :
    thermal z i v s = zoneOff z v (groveHot z i v (warnStep z i v s)) := by
  rw [thermal_eq, offZone_hot]
  exact if_pos ⟨h, ho⟩

/-- What the shutdown of a zone leaves. -/
theorem zoneOff_effects {t : State} (h : offView t = offView s) (hh : halted s = false) :
    (zoneOff z v t).pwr.offZone = some z ∧ (zoneOff z v t).pwr.on = s.pwr.on ∧
      (zoneOff z v t).pwr.fallAt = some (s.pwr.fallAt.getD (if s.clock = 0 then s.ran + 2000 else s.ran + 2001)) ∧
      (zoneOff z v t).pwr.page = s.pwr.page ∧ (zoneOff z v t).lnd = s.lnd ∧ (zoneOff z v t).cut = s.cut ∧
      ∀ c, (cageOf (zoneOff z v t) c).highPower = false := by
  simp only [offView, Prod.mk.injEq] at h
  obtain ⟨⟨-, hfall, hpage, hon⟩, ⟨hmd, hran, hclock⟩, hlnd, hcut⟩ := h
  have hht : halted (powerAlert 6 z (v % 2 ^ 32).toNat (cnt .pwrThermalOff 0 0 1 t)) = false := by
    rw [← hh]
    simp [halted, powerAlert, hmd, hon]
  obtain ⟨x, hdown⟩ := powerDown_alone (powerAlert 6 z (v % 2 ^ 32).toNat (cnt .pwrThermalOff 0 0 1 t))
  refine ⟨rfl, ?_, ?_, ?_, ?_, ?_, powerDown_optics hht⟩ <;> simp only [zoneOff, hdown] <;>
    simp [powerAlert, hfall, hpage, hon, hran, hclock, hlnd, hcut]

/-- A warning threshold lies below the shutdown of its zone, and below the fence of a Grove die. -/
theorem warnAt_lt_shutAt (z : Nat) : warnAt z < shutAt z := by
  unfold warnAt shutAt
  split <;> decide

theorem warnAt_le_hot : warnAt 1 ≤ 1680 := by decide

/-- A reading below the warning threshold fences no die. -/
theorem groveHot_cool (h : v < warnAt z) : groveHot z i v s = s := by
  refine groveHot_other ?_
  by_cases hz : z = 1
  · subst hz
    have := warnAt_le_hot
    omega
  · exact .inl hz

/-! A reading against its zone's thresholds. -/

theorem thermal_below (hw : tget false s.pwr.warn (k2 z i) = false) (h : v < warnAt z) : thermal z i v s = s := by
  have := warnAt_lt_shutAt z
  rw [thermal_on (.inl (by omega)), warnStep_below hw h, groveHot_cool h]

theorem thermal_warned (hw : tget false s.pwr.warn (k2 z i) = false) (h : warnAt z ≤ v) (hs : v < shutAt z) (hz : z ≠ 1) :
    thermal z i v s =
      powerAlert 4 z (v % 2 ^ 32).toNat { s with pwr := { s.pwr with warn := tput false s.pwr.warn (k2 z i) true } } := by
  rw [thermal_on (.inl hs), warnStep_set hw h, groveHot_other (.inl hz)]

theorem thermal_cleared (hw : tget false s.pwr.warn (k2 z i) = true) (h : v ≤ warnAt z - 80) : thermal z i v s =
    powerAlert 5 z (v % 2 ^ 32).toNat { s with pwr := { s.pwr with warn := tput false s.pwr.warn (k2 z i) false } } := by
  have := warnAt_lt_shutAt z
  rw [thermal_on (.inl (by omega)), warnStep_cleared hw h, groveHot_cool (by omega)]

/-- A second zone past its threshold keeps the first. -/
theorem thermal_stands (hw : tget false s.pwr.warn (k2 z i) = true) (h : shutAt z ≤ v) (hz : z ≠ 1) (ho : s.pwr.offZone ≠ none) :
    thermal z i v s = s := by
  have := warnAt_lt_shutAt z
  rw [thermal_on (.inr ho), warnStep_stands hw (by omega), groveHot_other (.inl hz)]

end

theorem tempReading_kept {sensor z i : Nat} {v : Int} (hlo : -880 ≤ v) (hhi : v ≤ 2400)
    (h : ∀ old, readingOf s 3 sensor = some old → (v - old).natAbs ≤ 80) :
    tempReading sensor z i v s = thermal z i v (keepReading 3 sensor v s) := if_pos (readingOk_near hlo hhi h)

theorem tempReading_failed {sensor z i : Nat} {v : Int} (h : readingOk s 3 sensor (-880) 2400 (some 80) v = false) :
    tempReading sensor z i v s = note 0x48 0x1002 255 [sensor, detailWord v] s := if_neg (by simp [h])

theorem shutAt_le (z : Nat) : shutAt z ≤ 2400 := by
  unfold shutAt
  split <;> decide

theorem warnAt_ge (z : Nat) : -880 ≤ warnAt z := by
  unfold warnAt
  split <;> decide

/-- A row of a module with power. -/
theorem row_powered {t u : State} (hp : s.pwr.on = true) (h : t = u) :
    (.next (if s.pwr.on then t else s) : Out) = .next u := congrArg Host.Outcome.next ((if_pos hp).trans h)

end

end Sys2Proof.Machine

namespace Sys2Proof.Proofs
open Machine

/-- Settles O33: each reading is kept or refused by its range, and a kept one warns, clears, halts or shuts down by its threshold. -/
theorem supervision : Obligations.Supervision := by
  refine ⟨fun s hp hh => ⟨fun hd => ?_, fun r hd => ?_, fun rail nom pin v h0 h1 => ?_, fun rail nom pin v h => ?_,
    fun rail nom pin v h => ?_, fun rail nom pin v r hv h1 hold hhigh hr => ?_,
    fun rail nom pin v h0 h1 hnone => ⟨fun hv => ?_, fun hv => ?_⟩,
    fun sensor z i v => ⟨fun h => ?_, fun hlo hv hold hw => ?_, fun hv hs hz hold hw => ?_, fun hlo hv hold hw => ?_,
      fun hs hhi hold hoff => ?_, fun hs hz hhi hold hoff hw => ?_⟩⟩,
    fun s i closed hh => ⟨fun hne => ?_, fun hne => ⟨?_, fun j hj => ?_⟩, fun he => ?_⟩⟩
  · exact row_powered hp (if_neg (by simp [hd]))
  · exact row_powered hp (by simp [dipEnd, hd])
  · exact row_running hh (supplyReading_kept (by simp [supplyOk, readingOk, h0, h1]))
  · exact row_running hh (supplyReading_failed (supplyOk_input_out h))
  · exact row_running hh (supplyReading_failed (supplyOk_bulk_out h))
  · have hok : supplyOk { s with pwr := { s.pwr with pin := pin } } .bulk v = true :=
      readingOk_near (by omega) h1 fun old ho => by
        rw [show readingOf s 1 0 = some old from ho] at hold
        cases hold
        simp
    exact ⟨_, row_running hh ((supplyReading_kept hok).trans (overstress_bulk hv hhigh hr)), rfl, haltFault_recs_head ..⟩
  · have hok : supplyOk { s with pwr := { s.pwr with pin := pin } } (.rail rail.val nom) v = true :=
      readingOk_near h0 h1 fun old ho => absurd (hnone.symm.trans ho) (by simp)
    exact row_running hh ((supplyReading_kept hok).trans (if_neg (Int.not_lt.mpr hv)))
  · have hok : supplyOk { s with pwr := { s.pwr with pin := pin } } (.rail rail.val nom) v = true :=
      readingOk_near h0 h1 fun old ho => absurd (hnone.symm.trans ho) (by simp)
    exact ⟨_, row_running hh ((supplyReading_kept hok).trans (if_pos hv)), rfl, haltFault_recs_head ..⟩
  · refine row_powered hp (tempReading_failed ?_)
    rcases h with h | h | ⟨old, ho, h⟩
    · exact readingOk_out (.inl h)
    · exact readingOk_out (.inr h)
    · exact readingOk_far ho h
  · have := warnAt_lt_shutAt z
    have := shutAt_le z
    exact row_powered hp ((tempReading_kept hlo (by omega) hold).trans (thermal_below (s := keepReading 3 sensor v s) hw hv))
  · have := warnAt_ge z
    have := shutAt_le z
    exact row_powered hp ((tempReading_kept (by omega) (by omega) hold).trans
      (thermal_warned (s := keepReading 3 sensor v s) hw hv hs fun e => hz (Fin.ext e)))
  · have := warnAt_lt_shutAt z
    have := shutAt_le z
    exact row_powered hp ((tempReading_kept hlo (by omega) hold).trans (thermal_cleared (s := keepReading 3 sensor v s) hw hv))
  · have := warnAt_lt_shutAt z
    have := warnAt_ge z
    obtain ⟨hz, hon, hrest⟩ := zoneOff_effects (s := keepReading 3 sensor v s) (z := z) (v := v)
      (offView_hot z i v (keepReading 3 sensor v s)) hh
    exact ⟨_, row_powered hp ((tempReading_kept (by omega) hhi hold).trans (thermal_off hs hoff)), hz, hon.trans hp, hrest⟩
  · have := warnAt_lt_shutAt z
    have := warnAt_ge z
    exact row_powered hp ((tempReading_kept (by omega) hhi hold).trans (thermal_stands (s := keepReading 3 sensor v s) hw hs
      (fun e => hz (Fin.ext e)) (Option.isSome_iff_ne_none.mp hoff)))
  · exact row_running hh (if_neg hne)
  · exact tget_tput_self ..
  · exact tget_tput_ne _ _ _ (by simp [k1, hj])
  · exact row_running hh (if_pos he)

end Sys2Proof.Proofs

/-! ## The order of service (R333, R334) -/

namespace Sys2Proof.Machine

/-! ### The earliest copy and the highest class -/

/-- One step of `earliest`: the copy kept so far gives way to a strictly earlier one. -/
def earlier (b : Option (Key × Done)) (x : Key × Done) : Option (Key × Done) :=
  match b with | none => some x | some y => if x.2.arr < y.2.arr then some x else some y

theorem foldl_earlier (l : List (Key × Done)) (b : Key × Done) :
    ∃ y, l.foldl earlier (some b) = some y ∧ y ∈ b :: l ∧ ∀ z ∈ b :: l, y.2.arr ≤ z.2.arr := by
  induction l generalizing b with
  | nil => exact ⟨b, rfl, by simp, by simp⟩
  | cons x l ih =>
    by_cases hlt : x.2.arr < b.2.arr
    · obtain ⟨y, hy, hmem, hle⟩ := ih x
      have hx := hle x (by simp)
      refine ⟨y, by simpa [earlier, hlt] using hy, List.mem_cons_of_mem _ hmem, ?_⟩
      rintro z (_ | ⟨_, hz⟩)
      · omega
      · exact hle z hz
    · obtain ⟨y, hy, hmem, hle⟩ := ih b
      have hb := hle b (by simp)
      refine ⟨y, by simpa [earlier, hlt] using hy, List.mem_cons.mpr ((List.mem_cons.mp hmem).imp_right (List.mem_cons_of_mem _)), ?_⟩
      intro z hz
      rcases List.mem_cons.mp hz with rfl | hz
      · exact hb
      · rcases List.mem_cons.mp hz with rfl | hz
        · omega
        · exact hle z (List.mem_cons_of_mem _ hz)

/-- Of a list that is not empty the earliest is one of it, and none of it came before. -/
theorem earliest_of_ne_nil {l : List (Key × Done)} (h : l ≠ []) :
    ∃ y, earliest l = some y ∧ y ∈ l ∧ ∀ z ∈ l, y.2.arr ≤ z.2.arr := by
  cases l with
  | nil => exact absurd rfl h
  | cons x l => exact foldl_earlier l x

/-- `y` stands in `l` with its class in `cs`, and no copy of such a class is of a higher class, or of the same and earlier. -/
def bestOf (l : List (Key × Done)) (cs : List Nat) (y : Key × Done) : Prop :=
  y ∈ l ∧ y.1.2.1 ∈ cs ∧ ∀ z ∈ l, z.1.2.1 ∈ cs → z.1.2.1 < y.1.2.1 ∨ (z.1.2.1 = y.1.2.1 ∧ y.2.arr ≤ z.2.arr)

/-- A service by falling class yields the best copy, or none is of the classes. -/
theorem byClass_cases (l : List (Key × Done)) {cs : List Nat} (hd : cs.Pairwise (· > ·)) :
    (∃ y, byClass l cs = some y ∧ bestOf l cs y) ∨ (byClass l cs = none ∧ ∀ z ∈ l, z.1.2.1 ∉ cs) := by
  induction cs with
  | nil => exact .inr ⟨rfl, by simp⟩
  | cons c cs ih =>
    obtain ⟨hlt, hcs⟩ := List.pairwise_cons.mp hd
    by_cases hc : l.filter (fun x => x.1.2.1 == c) = []
    · have hno : ∀ z ∈ l, z.1.2.1 ≠ c := by simpa using hc
      have hskip : byClass l (c :: cs) = byClass l cs := by simp [byClass, hc, earliest]
      rw [hskip]
      refine (ih hcs).imp (fun ⟨y, hy, hmem, hin, hbest⟩ => ⟨y, hy, hmem, List.mem_cons_of_mem _ hin, fun z hz hzc => ?_⟩)
        (fun ⟨hn, hz⟩ => ⟨hn, fun z hm => ?_⟩)
      · exact hbest z hz ((List.mem_cons.mp hzc).resolve_left (hno z hz))
      · exact List.not_mem_cons_of_ne_of_not_mem (hno z hm) (hz z hm)
    · obtain ⟨y, hy, hmem, hle⟩ := earliest_of_ne_nil hc
      obtain ⟨hyl, hyc⟩ := List.mem_filter.mp hmem
      have hyc : y.1.2.1 = c := beq_iff_eq.mp hyc
      refine .inl ⟨y, by simp [byClass, hy], hyl, by simp [hyc], fun z hz hzc => ?_⟩
      rcases List.mem_cons.mp hzc with hzc | hzc
      · exact .inr ⟨hzc.trans hyc.symm, hle z (List.mem_filter.mpr ⟨hz, beq_iff_eq.mpr hzc⟩)⟩
      · exact .inl (hyc ▸ hlt _ hzc)

/-- Some copy of the classes: the best is yielded. -/
theorem byClass_some {l : List (Key × Done)} {cs : List Nat} (hd : cs.Pairwise (· > ·)) (h : ∃ x ∈ l, x.1.2.1 ∈ cs) :
    ∃ y, byClass l cs = some y ∧ bestOf l cs y := by
  obtain ⟨x, hx, hxc⟩ := h
  exact (byClass_cases l hd).resolve_right fun ⟨_, hn⟩ => hn x hx hxc

theorem byClass_eq_none {l : List (Key × Done)} {cs : List Nat} (hd : cs.Pairwise (· > ·)) (h : ∀ x ∈ l, x.1.2.1 ∉ cs) :
    byClass l cs = none := by
  rcases byClass_cases l hd with ⟨y, -, hy, hyc, -⟩ | ⟨hn, -⟩
  · exact absurd hyc (h y hy)
  · exact hn

theorem bestOf_of_byClass {l : List (Key × Done)} {cs : List Nat} (hd : cs.Pairwise (· > ·)) {y : Key × Done}
    (h : byClass l cs = some y) : bestOf l cs y := by
  rcases byClass_cases l hd with ⟨z, hz, hb⟩ | ⟨hn, -⟩
  · cases hz.symm.trans h
    exact hb
  · cases hn.symm.trans h

/-! ### The three tiers of `pick` -/

section
variable {s : State} {p : Nat} {cand : List (Key × Done)}

theorem pick_gated {y : Key × Done} (h : byClass (cand.filter (fun x => gated s p x.1.2.1)) [7, 6, 5, 4, 3, 2, 1, 0] = some y) :
    pick p cand s = (some y, s) := by
  simp only [pick, h]

/-- Without a gated copy every candidate counts as ungated. -/
theorem filter_ungated (h : ∀ x ∈ cand, ¬ gated s p x.1.2.1 = true) :
    cand.filter (fun x => gated s p x.1.2.1) = [] ∧ cand.filter (fun x => !gated s p x.1.2.1) = cand :=
  ⟨by simpa using h, by simpa using h⟩

theorem pick_ungated (h : ∀ x ∈ cand, ¬ gated s p x.1.2.1 = true) {y : Key × Done} (hy : byClass cand [7, 6] = some y) :
    pick p cand s = (some y, s) := by
  obtain ⟨hg, hu⟩ := filter_ungated h
  have hnone : byClass [] [7, 6, 5, 4, 3, 2, 1, 0] = none := rfl
  simp only [pick, hg, hu, hnone, hy]

theorem pick_weighted (h : ∀ x ∈ cand, ¬ gated s p x.1.2.1 = true ∧ x.1.2.1 < 6) :
    pick p cand s = drr p cand 8192 (dropIdle p s) := by
  obtain ⟨hg, hu⟩ := filter_ungated fun x hx => (h x hx).1
  have hnone : byClass [] [7, 6, 5, 4, 3, 2, 1, 0] = none := rfl
  have hhigh : byClass cand [7, 6] = none := byClass_eq_none (by decide) fun x hx hc => by
    have := (h x hx).2
    simp at hc
    omega
  have hlow : cand.filter (fun x => decide (x.1.2.1 < 6)) = cand := List.filter_eq_self.mpr fun x hx => decide_eq_true (h x hx).2
  simp only [pick, hg, hu, hnone, hhigh, hlow]

/-! ### The weighted service (R334) -/

/-- The weighted service yields the top copy of a compartment. -/
theorem drr_yields_top {n : Nat} {u : State} {y : Key × Done} (h : (drr p cand n u).1 = some y) : ∃ c, topOf cand c = some y := by
  induction n generalizing u with
  | zero => cases h
  | succ n ih =>
    rw [drr] at h
    dsimp only at h
    split at h
    · cases h
    · rename_i c x hx
      split at h
      · obtain ⟨c', -, ht⟩ := List.exists_of_findSome?_eq_some hx
        obtain ⟨x', hx', heq⟩ := Option.map_eq_some_iff.mp ht
        cases heq
        cases h
        exact ⟨_, hx'⟩
      · exact ih h

/-- The top copy of a compartment is its earliest in its highest class from 5 down. -/
theorem topOf_best {c : Nat} {y : Key × Done} (h : topOf cand c = some y) :
    bestOf (cand.filter (fun x => x.1.2.2 == c)) [5, 4, 3, 2, 1, 0] y := bestOf_of_byClass (by decide) h

theorem topOf_single (x : Key × Done) (hx : x.1.2.1 < 6) (c : Nat) : topOf [x] c = if c = x.1.2.2 then some x else none := by
  by_cases hc : c = x.1.2.2
  · have hmem : x.1.2.1 ∈ [5, 4, 3, 2, 1, 0] := by simp; omega
    obtain ⟨y, hy, hb⟩ := byClass_some (l := [x].filter (fun x => x.1.2.2 == c)) (cs := [5, 4, 3, 2, 1, 0]) (by decide)
      ⟨x, by simp [hc], hmem⟩
    have hyx : y = x := List.mem_singleton.mp (List.mem_filter.mp hb.1).1
    rw [if_pos hc, topOf, hy, hyx]
  · have hne : (x.1.2.2 == c) = false := by simpa using fun e => hc e.symm
    simp only [if_neg hc, topOf, List.filter_cons, hne, List.filter_nil]
    rfl

/-- The round-robin order visits every compartment. -/
theorem mem_drrOrder {c q : Nat} (hc : c < 32) : c ∈ (List.range 32).map (fun d => (q + d) % 32) :=
  List.mem_map.mpr ⟨(c + 32 - q % 32) % 32, List.mem_range.mpr (Nat.mod_lt _ (by decide)), by omega⟩

/-- With one candidate the first backlogged compartment is its own. -/
theorem drr_first_single (x : Key × Done) (hx : x.1.2.1 < 6) (hc : x.1.2.2 < 32) (q : Nat) :
    ((List.range 32).map (fun d => (q + d) % 32)).findSome? (fun c => (topOf [x] c).map (fun y => (c, y))) = some (x.1.2.2, x) := by
  have hf (c : Nat) : (topOf [x] c).map (fun y => (c, y)) = if c = x.1.2.2 then some (x.1.2.2, x) else none := by
    rw [topOf_single x hx]
    split <;> simp_all
  simp only [hf]
  cases h : ((List.range 32).map (fun d => (q + d) % 32)).findSome? (fun c => if c = x.1.2.2 then some (x.1.2.2, x) else none) with
  | none => simpa using List.findSome?_eq_none_iff.mp h _ (mem_drrOrder hc)
  | some y =>
    obtain ⟨c, -, hy⟩ := List.exists_of_findSome?_eq_some h
    split at hy
    · exact hy.symm
    · cases hy

section
variable {x : Key × Done} (hx : x.1.2.1 < 6) (hc : x.1.2.2 < 32) (n : Nat) (u : State)
include hx hc

/-- A deficit that covers the copy pays for it. -/
theorem drr_pays (h : wireBytes u p x.2 ≤ tget 0 u.sch.deficit (k2 p x.1.2.2)) :
    drr p [x] (n + 1) u = (some x, { u with sch := { u.sch with
    deficit := tput 0 u.sch.deficit (k2 p x.1.2.2) (tget 0 u.sch.deficit (k2 p x.1.2.2) - wireBytes u p x.2) } }) := by
  rw [drr, drr_first_single x hx hc]
  exact if_pos h

/-- One that does not grows by 64 bytes times the weight, and the pointer passes the compartment. -/
theorem drr_grows (h : tget 0 u.sch.deficit (k2 p x.1.2.2) < wireBytes u p x.2) :
    drr p [x] (n + 1) u = drr p [x] n { u with sch := { u.sch with
    deficit := tput 0 u.sch.deficit (k2 p x.1.2.2) (tget 0 u.sch.deficit (k2 p x.1.2.2) + shareWeight u x.1.2.2 p * 64),
    ptr := tput 0 u.sch.ptr (k1 p) ((x.1.2.2 + 1) % 32 + 1) } } := by
  rw [drr, drr_first_single x hx hc]
  exact if_neg (Nat.not_le.mpr h)

end

/-! ### Idle compartments lose their deficit (R334) -/

theorem tget_tfilter_out {α : Type} (d : α) {f : Key → Bool} {k : Key} (h : f k = false) (t : Tab α) : tget d (tfilter f t) k = d := by
  refine tget_of_not_mem d fun hm => ?_
  obtain ⟨e, he, rfl⟩ := List.mem_map.mp hm
  simp [tfilter, h] at he

theorem dropDeficits_deficit (l : List (Key × Done)) : (dropDeficits p l s).sch.deficit =
    tfilter (fun k => k.1 != p || l.any (fun x => x.1.2.2 == k.2.1)) s.sch.deficit := rfl

theorem dropIdle_deficit {c : Nat}
    (h : ∀ x ∈ heads s p, x.1.2.2 = c → 6 ≤ x.1.2.1 ∨ gated s p x.1.2.1 = true ∨ flowClear s p x.2 = false) :
    tget 0 (dropIdle p s).sch.deficit (k2 p c) = 0 := by
  rw [dropIdle, dropDeficits_deficit]
  refine tget_tfilter_out 0 ?_ s.sch.deficit
  simp only [bne_self_eq_false, Bool.false_or]
  refine List.any_eq_false.mpr fun x hx hxc => ?_
  obtain ⟨hm, hel⟩ := List.mem_filter.mp hx
  simp only [Bool.and_eq_true, decide_eq_true_eq, Bool.not_eq_true'] at hel
  obtain ⟨⟨hlt, hg⟩, hf⟩ := hel
  rcases h x hm (beq_iff_eq.mp hxc) with h | h | h
  · omega
  · simp [hg] at h
  · simp [hf] at h

end

end Sys2Proof.Machine

namespace Sys2Proof.Proofs
open Machine

/-- Settles O55: the tiers of `pick` in turn, and one step of the weighted service. -/
theorem serviceOrder : Obligations.ServiceOrder := by
  intro s p cand hwf
  refine ⟨fun ⟨x, hx, hg⟩ => ?_, fun hg ⟨x, hx, h6⟩ => ?_, fun hl y hy => ?_, fun c h => dropIdle_deficit h, fun x hcand hg h6 => ?_⟩
  · obtain ⟨y, hy, hm, -, hb⟩ := byClass_some (l := cand.filter (fun x => gated s p x.1.2.1)) (cs := [7, 6, 5, 4, 3, 2, 1, 0])
      (by decide) ⟨x, List.mem_filter.mpr ⟨hx, hg⟩, by have := (hwf x hx).1; simp; omega⟩
    obtain ⟨hyc, hyg⟩ := List.mem_filter.mp hm
    exact ⟨y, pick_gated hy, hyc, hyg, fun z hz hzg =>
      hb z (List.mem_filter.mpr ⟨hz, hzg⟩) (by have := (hwf z hz).1; simp; omega)⟩
  · obtain ⟨y, hy, hm, hyc, hb⟩ := byClass_some (l := cand) (cs := [7, 6]) (by decide)
      ⟨x, hx, by have := (hwf x hx).1; simp; omega⟩
    exact ⟨y, pick_ungated hg hy, hm, by simp at hyc; omega, fun z hz hz6 => hb z hz (by have := (hwf z hz).1; simp; omega)⟩
  · rw [pick_weighted hl] at hy
    obtain ⟨c, hc⟩ := drr_yields_top hy
    obtain ⟨hm, -, hb⟩ := topOf_best hc
    obtain ⟨hyc, hcid⟩ := List.mem_filter.mp hm
    have hcid : y.1.2.2 = c := beq_iff_eq.mp hcid
    exact ⟨hyc, rfl, fun z hz hzc => hb z (List.mem_filter.mpr ⟨hz, beq_iff_eq.mpr (hzc.trans hcid)⟩)
      (by have := (hl z hz).2; simp; omega)⟩
  · subst hcand
    have hpick : pick p [x] s = drr p [x] (8191 + 1) (dropIdle p s) := pick_weighted fun z hz => by
      cases List.mem_singleton.mp hz
      exact ⟨hg, h6⟩
    have h32 := (hwf x (by simp)).2
    exact ⟨fun h => hpick.trans (drr_pays h6 h32 8191 (dropIdle p s) h), fun h => hpick.trans (drr_grows h6 h32 8191 (dropIdle p s) h)⟩

end Sys2Proof.Proofs

/-! ## Tally records and check units (R365, R370, R371, R374, R382) -/

namespace Sys2Proof.Machine

/-- A fold over the first numbers that acts at one of them alone. -/
theorem foldS_range_at {f : Nat → State → State} {s : State} {n p : Nat} (hp : p < n) (hpre : ∀ q, q < p → f q s = s)
    (hpost : ∀ q, f q (f p s) = f p s) : foldS (List.range n) f s = f p s := by
  induction n with
  | zero => exact absurd hp (Nat.not_lt_zero p)
  | succ n ih =>
    rw [foldS_range_succ]
    by_cases h : p < n
    · rw [ih h, hpost]
    · obtain rfl : p = n := by omega
      rw [foldS_fixed fun q hq => hpre q (List.mem_range.mp hq)]

/-! ### What a tally write leaves (R371) -/

/-- The tally rings, the staging and the records that no capture touches. -/
def tallyView (s : State) := ((s.cap.tly, s.cap.staging), s.cmp, s.lnd, s.em, s.cut)

section
variable (s : State)

theorem tallyView_startWake (ch r : Nat) : tallyView (startWake ch r s) = tallyView s := by
  unfold startWake
  split <;> rfl

theorem tallyView_countDelays : tallyView (countDelays s) = tallyView s :=
  foldS_keeps s tallyView _ (fun r t => by split <;> rfl) _

theorem tallyView_enqueueReq (r : DReq) : tallyView (enqueueReq r s) = tallyView s := by
  refine (tallyView_countDelays _).trans ((tallyView_startWake _ _ _).trans ?_)
  split <;> rfl

theorem tallyView_cvOffer (pt p cls c : Nat) (l : List Byte) : tallyView (cvOffer pt p cls c l s) = tallyView s := by
  unfold cvOffer
  split <;> rfl

/-- What `tallyView` says of two states, part by part. -/
theorem tallyView_parts {s t : State} (h : tallyView t = tallyView s) :
    (∀ c, tlyOf t c = tlyOf s c) ∧ t.cap.staging = s.cap.staging ∧ t.cmp = s.cmp ∧ t.lnd = s.lnd ∧ t.em = s.em ∧ t.cut = s.cut := by
  simp only [tallyView, Prod.mk.injEq] at h
  obtain ⟨⟨htly, hst⟩, hrest⟩ := h
  exact ⟨fun c => by rw [tlyOf, htly, tlyOf], hst, hrest⟩

end

section
variable {s : State} {p : Nat} {r : TRec}

/-- The tally ring with one record more. -/
def storedIn (s : State) (r : TRec) (t : Tly) : Tly :=
  let u := tlyOf s r.cid
  tlyTrim { t with next := u.next + 1, recs := t.recs ++ [(u.next, recSeq r.bytes u.next)],
                   lost := if tlyFenced s (tlyPage u u.next) then u.lost ++ [u.next] else u.lost }

theorem writeTally_stale (h : r.rotation ≠ (cmpOf s r.cid).rotation.toNat) : writeTally p r s = cnt .tallyStale r.cid 0 1 s := if_pos h

theorem writeTally_off (h : r.rotation = (cmpOf s r.cid).rotation.toNat) (ho : bit (tlyOf s r.cid).cfg 0 = false) :
    writeTally p r s = s := (if_neg (not_not_intro h)).trans (if_pos (by simp [ho]))

theorem writeTally_full (h : r.rotation = (cmpOf s r.cid).rotation.toNat) (ho : bit (tlyOf s r.cid).cfg 0 = true)
    (hn : tlyN (tlyOf s r.cid) ≠ 0) (hv : tlyOverrun (tlyOf s r.cid) = false)
    (hf : (tlyOf s r.cid).released + tlyN (tlyOf s r.cid) ≤ (tlyOf s r.cid).next) :
    writeTally p r s = cnt .tallyDropFull r.cid 0 1 (modTly r.cid (fun t => { t with drops := t.drops + 1 }) s) :=
  (if_neg (not_not_intro h)).trans ((if_neg (by simp [ho, hn])).trans (if_pos (by simp [hv]; omega)))

/-- What becomes of a stored record's write touches no ring. -/
theorem tallyView_sent (gone : Bool) (c : Nat) (q : DReq) (s : State) :
    tallyView (if gone then cnt .tallyLost c 0 1 s else if s.variant = .e then s else enqueueReq q s) = tallyView s := by
  split
  · rfl
  · split
    · rfl
    · exact tallyView_enqueueReq s q

/-- A record that finds room is stored in its ring, and no other ring changes. -/
theorem tallyView_writeTally_stored (h : r.rotation = (cmpOf s r.cid).rotation.toNat) (ho : bit (tlyOf s r.cid).cfg 0 = true)
    (hn : tlyN (tlyOf s r.cid) ≠ 0)
    (hf : tlyOverrun (tlyOf s r.cid) = true ∨ (tlyOf s r.cid).next - (tlyOf s r.cid).released < tlyN (tlyOf s r.cid)) :
    tallyView (writeTally p r s) = tallyView (modTly r.cid (storedIn s r) s) := by
  have hroom : ¬ (!tlyOverrun (tlyOf s r.cid) &&
      decide (tlyN (tlyOf s r.cid) ≤ (tlyOf s r.cid).next - (tlyOf s r.cid).released)) = true := by
    rcases hf with hf | hf <;> simp [hf]
  unfold writeTally
  rw [if_neg (not_not_intro h), if_neg (by simp [ho, hn]), if_neg hroom]
  dsimp only
  rw [tallyView_cvOffer]
  generalize hs' : (if tlyN (tlyOf s r.cid) ≤ (tlyOf s r.cid).next ∧
    (tlyOf s r.cid).released ≤ (tlyOf s r.cid).next - tlyN (tlyOf s r.cid) then cnt .tallyOverwritten r.cid 0 1 s else s) = s'
  have hkeep : tallyView (modTly r.cid (storedIn s r) s') = tallyView (modTly r.cid (storedIn s r) s) ∧
      tlyFenced s' = tlyFenced s := by
    subst hs'
    split <;> exact ⟨rfl, rfl⟩
  obtain ⟨hview, hfen⟩ := hkeep
  rw [hfen, ← hview]
  exact tallyView_sent ..

end

/-! ### The staging that a tally write empties (R371) -/

theorem staging_writeTally (p : Nat) (r : TRec) (s : State) : (writeTally p r s).cap.staging = s.cap.staging := by
  by_cases h : r.rotation = (cmpOf s r.cid).rotation.toNat
  · by_cases ho : bit (tlyOf s r.cid).cfg 0 = true ∧ tlyN (tlyOf s r.cid) ≠ 0
    · obtain ⟨ho, hn⟩ := ho
      by_cases hf : tlyOverrun (tlyOf s r.cid) = true ∨ (tlyOf s r.cid).next - (tlyOf s r.cid).released < tlyN (tlyOf s r.cid)
      · obtain ⟨-, hst, -⟩ := tallyView_parts (tallyView_writeTally_stored (p := p) h ho hn hf)
        exact hst
      · rw [not_or] at hf
        obtain ⟨hv, hf⟩ := hf
        rw [writeTally_full h ho hn (by simpa using hv) (by omega)]
        rfl
    · rw [show writeTally p r s = s from (if_neg (not_not_intro h)).trans (if_pos (by
        by_cases hb : bit (tlyOf s r.cid).cfg 0 = true
        · simp [hb, not_and_not_right.mp ho hb]
        · simp [hb]))]
  · rw [writeTally_stale h]
    rfl

theorem staging_foldS_writeTally (p : Nat) (l : List TRec) (s : State) : (foldS l (writeTally p) s).cap.staging = s.cap.staging :=
  foldS_keeps s (fun t => t.cap.staging) _ (fun r t => staging_writeTally p r t) l

/-- The staging of one pipeline is emptied of a compartment's records. -/
def drainTally (c p : Nat) (s : State) : State :=
  let l := tget [] s.cap.staging (k1 p)
  let mine := l.filter (fun r => r.cid == c)
  if mine.isEmpty then s
  else foldS mine (writeTally p) { s with cap := { s.cap with
    staging := tput [] s.cap.staging (k1 p) (l.filter (fun r => r.cid != c)) } }

theorem tallyWrite_eq (c : Nat) (s : State) : tallyWrite c s =
    if stagedOf (stageDue (nowClk s) s) c < 16 && !atBoundary (stageDue (nowClk s) s) then stageDue (nowClk s) s
    else foldS (List.range 8) (drainTally c) (stageDue (nowClk s) s) := rfl

/-- A pipeline that holds none of the compartment's records is left as it is. -/
theorem drainTally_none {c p : Nat} {s : State} (h : ∀ x ∈ tget [] s.cap.staging (k1 p), x.cid ≠ c) : drainTally c p s = s :=
  if_pos (by simpa using h)

theorem staging_drainTally (c p q : Nat) (s : State) : tget [] (drainTally c p s).cap.staging (k1 q) =
    if q = p then (tget [] s.cap.staging (k1 p)).filter (fun r => r.cid != c) else tget [] s.cap.staging (k1 q) := by
  by_cases h : ∀ x ∈ tget [] s.cap.staging (k1 p), x.cid ≠ c
  · rw [drainTally_none h]
    split
    · subst q
      exact (List.filter_eq_self.mpr fun x hx => by simpa using h x hx).symm
    · rfl
  · rw [show drainTally c p s = _ from if_neg (by simpa using h), staging_foldS_writeTally]
    split
    · subst q
      exact tget_tput_self ..
    · exact tget_tput_ne _ _ _ (by simpa using ‹_›)

/-- After the drain of the first pipelines none of them holds a record of the compartment. -/
theorem staging_drained (c n : Nat) (s : State) :
    ∀ q, q < n → ∀ x ∈ tget [] (foldS (List.range n) (drainTally c) s).cap.staging (k1 q), x.cid ≠ c := by
  induction n with
  | zero => exact fun q hq => absurd hq (Nat.not_lt_zero q)
  | succ n ih =>
    intro q hq x hx
    rw [foldS_range_succ, staging_drainTally] at hx
    split at hx
    · simpa using (List.mem_filter.mp hx).2
    · exact ih q (by omega) x hx

/-- Where one pipeline alone holds one record, and it is the compartment's, that record is written. -/
theorem drain_single {c p n : Nat} {r : TRec} {s : State} (hp : p < n) (hs : s.cap.staging = [(k1 p, [r])]) (hr : r.cid = c) :
    foldS (List.range n) (drainTally c) s = writeTally p r { s with cap := { s.cap with staging := [] } } := by
  have hat : drainTally c p s = writeTally p r { s with cap := { s.cap with staging := [] } } := by
    simp [drainTally, hs, tget_cons, hr, foldS, tput, tdel]
  have hempty : (drainTally c p s).cap.staging = [] := by
    rw [hat, staging_writeTally]
  rw [← hat]
  refine foldS_range_at hp (fun q hq => drainTally_none ?_) fun q => drainTally_none (by simp [hempty])
  have hne : k1 p ≠ k1 q := by
    simp only [ne_eq, Prod.mk.injEq, and_true]
    omega
  simp [hs, tget_cons, hne]

theorem mem_staging_of_tget {t : Tab (List TRec)} {k : Key} {x : TRec} (h : x ∈ tget [] t k) : ∃ e ∈ t, x ∈ e.2 := by
  induction t with
  | nil => cases h
  | cons e t ih =>
    rw [tget_cons] at h
    split at h
    · exact ⟨e, List.mem_cons_self, h⟩
    · obtain ⟨e', he, hx⟩ := ih h
      exact ⟨e', List.mem_cons_of_mem _ he, hx⟩

/-! ### The three ends of TALLY_WRITE -/

/-- No frame has left stage 4: nothing joins the staging. -/
theorem stageDue_none {n : Nat} {s : State} (h : ∀ d ∈ s.cap.due, n < d.at_) : stageDue n s = s := by
  have hnow : s.cap.due.filter (fun d => decide (d.at_ ≤ n)) = [] := by simpa using h
  have hlater : s.cap.due.filter (fun d => decide (n < d.at_)) = s.cap.due := List.filter_eq_self.mpr fun d hd => decide_eq_true (h d hd)
  rw [stageDue, hnow, hlater]
  rfl

/-- A compartment with nothing staged changes nothing. -/
theorem tallyWrite_none {c : Nat} {s : State} (h : ∀ e ∈ (stageDue (nowClk s) s).cap.staging, ∀ x ∈ e.2, x.cid ≠ c) :
    tallyWrite c s = stageDue (nowClk s) s := by
  have hfold : foldS (List.range 8) (drainTally c) (stageDue (nowClk s) s) = stageDue (nowClk s) s :=
    foldS_fixed fun q _ => drainTally_none fun x hx => by
      obtain ⟨e, he, hxe⟩ := mem_staging_of_tget hx
      exact h e he x hxe
  rw [tallyWrite_eq, hfold, ite_self]

theorem tallyWrite_early {c : Nat} {s : State} (hb : atBoundary (stageDue (nowClk s) s) = false)
    (hl : stagedOf (stageDue (nowClk s) s) c < 16) : tallyWrite c s = stageDue (nowClk s) s :=
  (tallyWrite_eq c s).trans (if_pos (by simp [hb, hl]))

theorem tallyWrite_due {c : Nat} {s : State} (h : 16 ≤ stagedOf (stageDue (nowClk s) s) c ∨ atBoundary (stageDue (nowClk s) s) = true) :
    tallyWrite c s = foldS (List.range 8) (drainTally c) (stageDue (nowClk s) s) := by
  refine (tallyWrite_eq c s).trans (if_neg ?_)
  rcases h with h | h
  · simp [Nat.not_lt.mpr h]
  · simp [h]

/-! ### The ring that holds one record more -/

section
variable {s : State} {r : TRec}

/-- The record just stored is not below OLDEST. -/
theorem mem_storedIn_recs (hn : tlyN (tlyOf s r.cid) ≠ 0) (hr : (tlyOf s r.cid).released ≤ (tlyOf s r.cid).next) :
    ((tlyOf s r.cid).next, recSeq r.bytes (tlyOf s r.cid).next) ∈ (storedIn s r (tlyOf s r.cid)).recs := by
  refine List.mem_filter.mpr ⟨List.mem_append_right _ List.mem_cons_self, decide_eq_true ?_⟩
  show (if tlyOverrun (tlyOf s r.cid) then max (tlyOf s r.cid).released ((tlyOf s r.cid).next + 1 - tlyN (tlyOf s r.cid))
    else (tlyOf s r.cid).released) ≤ (tlyOf s r.cid).next
  split
  · omega
  · exact hr

end

theorem cvWindowEnd_over {u : Nat} {s : State} (ha : (cvOf s u).armed = true) (ht : (cvOf s u).start + (cvOf s u).dur ≤ s.ring) :
    cvWindowEnd u s = modCv u (fun c => { c with armed := false, done := true }) s := if_pos (by simp [ha, ht])

theorem cvWindowEnd_open {u : Nat} {s : State} (h : (cvOf s u).armed = false ∨ s.ring < (cvOf s u).start + (cvOf s u).dur) :
    cvWindowEnd u s = s := by
  refine if_neg ?_
  rcases h with h | h
  · simp [h]
  · simp [Nat.not_le.mpr h]

end Sys2Proof.Machine

namespace Sys2Proof.Proofs
open Machine

/-- Settles O58: what the drain leaves staged, and the four ends of one record. -/
theorem captureRows : Obligations.CaptureRows := by
  intro s c p r u hh
  refine ⟨stageDue_none, fun h => row_running hh (tallyWrite_none h), fun hb hl => row_running hh (tallyWrite_early hb hl), fun hl => ?_,
    fun hb hs hc => ?_, fun ha ht => row_running hh (cvWindowEnd_over ha ht), fun h => row_running hh (cvWindowEnd_open h)⟩
  · exact ⟨_, row_running hh (tallyWrite_due (.inl hl)), staging_drained c.val 8 _⟩
  · have hrow : exec (.tallyWrite c) s = .next (writeTally p r
        { stageDue (nowClk s) s with cap := { (stageDue (nowClk s) s).cap with staging := [] } }) :=
      row_running hh ((tallyWrite_due (.inr hb)).trans (drain_single p.isLt hs hc))
    rw [hrow, ← hc]
    refine ⟨fun hrot => ?_, fun hrot => ⟨fun ho => ?_, fun ho hn hv hf => ?_, fun ho hn hrel hf => ?_⟩⟩
    · exact congrArg Host.Outcome.next (writeTally_stale hrot)
    · exact congrArg Host.Outcome.next (writeTally_off hrot ho)
    · exact congrArg Host.Outcome.next (writeTally_full hrot ho hn hv hf)
    · obtain ⟨htly, hst, hcmp, hlnd, hem, hcut⟩ := tallyView_parts (tallyView_writeTally_stored (p := p) (r := r)
        (s := { stageDue (nowClk s) s with cap := { (stageDue (nowClk s) s).cap with staging := [] } }) hrot ho hn
        (hf.imp_right fun h => by
          show (tlyOf (stageDue (nowClk s) s) r.cid).next - (tlyOf (stageDue (nowClk s) s) r.cid).released <
            tlyN (tlyOf (stageDue (nowClk s) s) r.cid)
          omega))
      refine ⟨_, rfl, ?_, ?_, ?_, ?_, hst, fun d hd => ?_, hcmp, hlnd, hem, hcut⟩
      · rw [htly, tlyOf_modTly_self]
        rfl
      · rw [htly, tlyOf_modTly_self]
        exact mem_storedIn_recs hn hrel
      · rw [htly, tlyOf_modTly_self]
        rfl
      · rw [htly, tlyOf_modTly_self]
        rfl
      · rw [htly, tlyOf_modTly_ne _ _ hd]
        rfl

end Sys2Proof.Proofs

/-! ## What a fence does not change: the units, the causes found, the ring and the mode (R490, R491) -/

namespace Sys2Proof.Machine

/-- The state of the units, the causes that wait for a boundary, the ring, and the mode. -/
def fenceView (s : State) := (s.lko.units, s.lko.pendFence, s.ring, s.md)

section
variable (s : State)

theorem fenceView_of {s t : State} (hl : t.lko = s.lko) (hr : t.ring = s.ring) (hm : t.md = s.md) : fenceView t = fenceView s := by
  unfold fenceView; rw [hl, hr, hm]

/-- What each change of a list keeps, the whole keeps. -/
theorem fenceView_foldS {α : Type} {f : α → State → State} (h : ∀ a t, fenceView (f a t) = fenceView t) (l : List α) :
    fenceView (foldS l f s) = fenceView s := foldS_keeps s fenceView f h l

/-! ### Parts of the state that the view does not hold -/

@[simp] theorem fenceView_setBuf (b : BufSt) : fenceView { s with buf := b } = fenceView s := rfl
@[simp] theorem fenceView_setLnd (l : LndSt) : fenceView { s with lnd := l } = fenceView s := rfl
@[simp] theorem fenceView_setCut (c : CutSt) : fenceView { s with cut := c } = fenceView s := rfl
@[simp] theorem fenceView_setSch (c : SchSt) : fenceView { s with sch := c } = fenceView s := rfl
@[simp] theorem fenceView_setDram (d : DramSt) : fenceView { s with dram := d } = fenceView s := rfl
@[simp] theorem fenceView_setKrf (k : KrfSt) : fenceView { s with krf := k } = fenceView s := rfl
@[simp] theorem fenceView_setCap (c : CapSt) : fenceView { s with cap := c } = fenceView s := rfl
@[simp] theorem fenceView_setEm (e : EmSt) : fenceView { s with em := e } = fenceView s := rfl
@[simp] theorem fenceView_setHost (h : HostSt) : fenceView { s with host := h } = fenceView s := rfl

/-! ### Counters, events, records and responses -/

@[simp] theorem fenceView_cnt (c : Ctr) (i j n : Nat) : fenceView (cnt c i j n s) = fenceView s := rfl
@[simp] theorem fenceView_post (c k : Nat) (b : List Byte) : fenceView (post c k b s) = fenceView s :=
  fenceView_of (by simp) (by simp) (by simp)
@[simp] theorem fenceView_postTo (l : List Nat) (k : Nat) (b : List Byte) : fenceView (postTo l k b s) = fenceView s :=
  fenceView_of (by simp) (by simp) (by simp)
@[simp] theorem fenceView_progEvt (u k c q n : Nat) : fenceView (progEvt u k c q n s) = fenceView s :=
  fenceView_of (by simp) (by simp) (by simp)

/-- A record leaves the units and the causes found as they were. -/
@[simp] theorem fenceView_newRec (cls u k c e : Nat) (d : List Nat) : fenceView (newRec cls u k c e d s) = fenceView s := by
  simp only [newRec, apply_ite fenceView, fenceView_cnt, ite_self]
  rfl

@[simp] theorem fenceView_note (u k c : Nat) (d : List Nat) : fenceView (note u k c d s) = fenceView s := by
  simp only [note, apply_ite fenceView, fenceView_newRec]
  exact ite_self _

@[simp] theorem fenceView_restartBy (r : Nat) : fenceView (restartBy r s) = fenceView s := rfl

@[simp] theorem fenceView_restartFault (u k c : Nat) (d : List Nat) : fenceView (restartFault u k c d s) = fenceView s := by
  rw [restartFault, fenceView_setHost, fenceView_restartBy, fenceView_newRec]

@[simp] theorem fenceView_modMbx (c : Nat) (f : Mbx → Mbx) : fenceView (modMbx c f s) = fenceView s := rfl

@[simp] theorem fenceView_signal (c k : Nat) : fenceView (signal c k s) = fenceView s := fenceView_of (by simp) (by simp) (by simp)

@[simp] theorem fenceView_writeRsp (c : Nat) (sl : Slot) : fenceView (writeRsp c sl s) = fenceView s := by
  simp only [writeRsp, apply_ite fenceView, fenceView_restartBy, fenceView_signal, fenceView_modMbx, fenceView_setHost, ite_self]

@[simp] theorem fenceView_flushRsp (c : Nat) : fenceView (flushRsp c s) = fenceView s := by
  unfold flushRsp flushLate
  split
  · simp only [apply_ite fenceView, fenceView_foldS _ (fun (e : Nat × List Byte) t => fenceView_post t c e.1 e.2),
      fenceView_foldS _ (fun sl t => fenceView_writeRsp t c sl), fenceView_modMbx, ite_self]
  · rfl

@[simp] theorem fenceView_deliver (c : Nat) (sl : Slot) : fenceView (deliver c sl s) = fenceView s := by
  simp only [deliver, apply_ite fenceView, fenceView_flushRsp, fenceView_modMbx, fenceView_writeRsp, ite_self]

/-- An answer is delivered in the state after the command, or in the one before it. -/
theorem fenceView_answerLater (o : Op) (q : Req) (v : Nat) (sec : Option SecOpen) {s : State} {a : Ans}
    (h : fenceView a.st = fenceView s) : fenceView (answerLater o q v sec s a) = fenceView s := by
  have hseal (so : SecOpen) (r : Rsp) (t : State) (ht : fenceView t = fenceView s) :
      fenceView (sealAnswer q.c so v r a.blob s t) = fenceView s := by
    simp only [sealAnswer, apply_ite fenceView, fenceView_deliver, fenceView_modMbx, ht, ite_self]
  have hans (b : Ans) (hb : fenceView b.st = fenceView s) (hblob : b.blob = a.blob) : fenceView (answer o q v s b) = fenceView s := by
    unfold answer
    dsimp only
    split
    · split
      · exact hb
      · rw [hblob]
        exact hseal _ _ _ hb
    · rw [fenceView_deliver, hb]
  unfold answerLater
  dsimp only
  split
  · rw [fenceView_modMbx]
    exact hans _ ((fenceView_modMbx _ _ _).trans h) rfl
  · exact hans a h rfl

/-! ### PFC, pauses, cells and frame records -/

@[simp] theorem fenceView_modPort (p : Nat) (f : Port → Port) : fenceView (modPort p f s) = fenceView s := rfl

@[simp] theorem fenceView_pfcTo (e : Bool) (p : Nat) : fenceView (pfcTo e p s) = fenceView s :=
  fenceView_of (by simp) (by simp) (by simp)

@[simp] theorem fenceView_poolEval (p : Nat) : fenceView (poolEval p s) = fenceView s :=
  fenceView_of (by simp) (by simp) (by simp)

@[simp] theorem fenceView_clearPauses (p : Nat) : fenceView (clearPauses p s) = fenceView s :=
  fenceView_of (by simp [clearPauses]) (by simp [clearPauses]) (by simp [clearPauses])

@[simp] theorem fenceView_modPool (p : Nat) (f : Pool → Pool) : fenceView (modPool p f s) = fenceView s := rfl
@[simp] theorem fenceView_setCache (g p : Nat) (l : List Nat) : fenceView (setCache g p l s) = fenceView s := rfl
@[simp] theorem fenceView_modFrame (n : Nat) (f : Frame → Frame) : fenceView (modFrame n f s) = fenceView s := rfl
@[simp] theorem fenceView_reapFrame (n : Nat) : fenceView (reapFrame n s) = fenceView s := rfl
@[simp] theorem fenceView_ownerSub (pool p prio n : Nat) : fenceView (ownerSub pool p prio n s) = fenceView s := rfl

@[simp] theorem fenceView_blaze (st : BitVec 128) (pos stage port cls u d side pipe : Nat) :
    fenceView (blaze st pos stage port cls u d side pipe s) = fenceView s := by
  unfold blaze
  split
  · dsimp only
    split
    · rfl
    · exact fenceView_foldS _ (fun e t => by split <;> rfl) _
  · rfl

@[simp] theorem fenceView_leakCell (p k x : Nat) : fenceView (leakCell p k x s) = fenceView s := by
  simp only [leakCell, apply_ite fenceView, fenceView_restartFault, fenceView_modPool, fenceView_setBuf, fenceView_note,
    fenceView_cnt, ite_self]

@[simp] theorem fenceView_freeCell (g p x : Nat) : fenceView (freeCell g p x s) = fenceView s := by
  simp only [freeCell, fenceView_poolEval, fenceView_modPool]
  split
  · exact fenceView_leakCell ..
  · simp only [apply_ite fenceView, fenceView_modPool, fenceView_setCache, leakBad,
      fenceView_foldS _ (fun _ t => fenceView_leakCell t _ _ _), ite_self]

@[simp] theorem fenceView_dropHolders (n : Nat) (p : Nat → Bool) : fenceView (dropHolders n p s) = fenceView s := by
  unfold dropHolders
  split
  · rfl
  · simp only [fenceView_reapFrame, apply_ite fenceView, fenceView_setBuf, fenceView_ownerSub, fenceView_modFrame,
      fenceView_foldS _ (fun x t => fenceView_freeCell t _ _ x), ite_self]

@[simp] theorem fenceView_settleFrame (c : Copy) (lost : Bool) : fenceView (settleFrame c lost s) = fenceView s := by
  unfold settleFrame
  dsimp only
  split
  · rw [fenceView_setCut]
  next f _ =>
    rw [fenceView_reapFrame]
    split <;> simp only [apply_ite fenceView, fenceView_cnt, fenceView_modFrame, fenceView_setCut, ite_self]

@[simp] theorem fenceView_leaveRec (c : Copy) : fenceView (leaveRec c s) = fenceView s := rfl

/-! ### Discards -/

@[simp] theorem fenceView_returnSome (n : Nat) (c : Copy) : fenceView (returnSome n c s) = fenceView s := rfl
@[simp] theorem fenceView_returnCredits (c : Copy) : fenceView (returnCredits c s) = fenceView s := rfl
@[simp] theorem fenceView_blazeDrop (c : Copy) (k u sd p : Nat) : fenceView (blazeDrop c k u sd p s) = fenceView s :=
  fenceView_blaze ..

section
variable (ctr : Ctr) (i j cause : Nat) (lost : Bool) (c : Copy)

@[simp] theorem fenceView_discardQueued : fenceView (discardQueued ctr i j cause c s) = fenceView s := by
  simp only [discardQueued, discardWaiting, settle, dropIngress, fenceView_leaveRec, fenceView_settleFrame,
    fenceView_dropHolders, fenceView_blazeDrop, fenceView_cnt]

@[simp] theorem fenceView_discardCrossed : fenceView (discardCrossed ctr i j cause lost c s) = fenceView s := by
  simp only [discardCrossed, settle, fenceView_leaveRec, fenceView_settleFrame, fenceView_returnCredits, fenceView_blazeDrop,
    fenceView_cnt]

@[simp] theorem fenceView_discardDone : fenceView (discardDone ctr i j cause c s) = fenceView s := by
  simp only [discardDone, fenceView_returnCredits, fenceView_blazeDrop, fenceView_cnt]

@[simp] theorem fenceView_discardTx (x : TxFrame) : fenceView (discardTx ctr i j cause x s) = fenceView s := by
  simp only [discardTx, fenceView_returnSome, fenceView_blazeDrop, fenceView_cnt]

@[simp] theorem fenceView_discardSpilled : fenceView (discardSpilled ctr i j cause lost c s) = fenceView s := by
  simp only [discardSpilled, fenceView_settleFrame, fenceView_blazeDrop, fenceView_cnt]

end

/-! ### VOQs, scheduler queues and ports -/

@[simp] theorem fenceView_setVoq (k : Key) (v : Voq) : fenceView (setVoq k v s) = fenceView s := rfl

@[simp] theorem fenceView_freePage (p : Nat) : fenceView (freePage p s) = fenceView s := by
  simp only [freePage, modRank, apply_ite fenceView, fenceView_setDram, ite_self]

@[simp] theorem fenceView_toDirect (k : Key) : fenceView (toDirect k s) = fenceView s := by
  simp only [toDirect, freePages, apply_ite fenceView, fenceView_setVoq,
    fenceView_foldS _ (fun (e : Nat × Nat) t => fenceView_freePage t e.1), ite_self]

@[simp] theorem fenceView_guardEnd (p n : Nat) : fenceView (guardEnd p n s) = fenceView s := by
  simp only [guardEnd, apply_ite fenceView, fenceView_cnt, fenceView_setSch, ite_self]

section
variable (pk : Key → Bool) (pc : Copy → Bool) {drop : Copy → State → State} (h : ∀ c t, fenceView (drop c t) = fenceView t)
include h

theorem fenceView_removeVoqs : fenceView (removeVoqs pk pc drop s) = fenceView s := by
  refine fenceView_foldS s (fun e t => ?_) _
  simp only [fenceView_foldS _ h, voqNorm, apply_ite fenceView, fenceView_toDirect, fenceView_setVoq, ite_self]

theorem fenceView_doomVoqs : fenceView (doomVoqs pk pc drop s) = fenceView s := by
  refine fenceView_foldS s (fun e t => ?_) _
  simp only [fenceView_foldS _ h, fenceView_setVoq]

theorem fenceView_removeSched : fenceView (removeSched pk pc drop s) = fenceView s := by
  rw [removeSched, guardEmpty, fenceView_foldS _ (fun _ t => fenceView_guardEnd t _ _)]
  refine fenceView_foldS s (fun e t => ?_) _
  simp only [fenceView_foldS _ h, fenceView_setSch]

end

@[simp] theorem fenceView_flushPort (p : Nat) : fenceView (flushPort p s) = fenceView s := by
  rw [flushPort, fenceView_removeSched _ _ _ fun c t => fenceView_discardDone t ..,
    fenceView_foldS _ fun x t => fenceView_discardTx t .., fenceView_setSch,
    fenceView_doomVoqs _ _ _ fun c t => fenceView_discardSpilled t ..,
    fenceView_removeVoqs _ _ _ fun c t => fenceView_discardQueued t ..]

@[simp] theorem fenceView_portDown (p : Nat) : fenceView (portDown p s) = fenceView s := by
  simp only [portDown, postPort, portDownEm, apply_ite fenceView, fenceView_postTo, fenceView_setEm, fenceView_flushPort,
    fenceView_modPort, fenceView_clearPauses, ite_self]

/-! ### Crossing (R285 to R288, R292, R293) -/

@[simp] theorem fenceView_setPath (i j : Nat) (p : Path) : fenceView (setPath i j p s) = fenceView s := rfl
@[simp] theorem fenceView_setReseq (i j : Nat) (r : Reseq) : fenceView (setReseq i j r s) = fenceView s := rfl

@[simp] theorem fenceView_takeCell (i j : Nat) (x : Cell) : fenceView (takeCell i j x s) = fenceView s := by
  simp only [takeCell, reassembled, apply_ite fenceView, fenceView_discardCrossed, fenceView_setKrf, fenceView_setReseq, ite_self]

@[simp] theorem fenceView_releaseSeq (i j n : Nat) : fenceView (releaseSeq i j n s) = fenceView s := by
  induction n generalizing s with
  | zero => rfl
  | succ n ih =>
    unfold releaseSeq
    dsimp only
    split
    · rw [ih, fenceView_setReseq]
    · split
      · rfl
      · split
        · rfl
        · rw [ih, fenceView_takeCell, fenceView_setReseq]

@[simp] theorem fenceView_dropUnsent (c : Copy) (n : Nat) : fenceView (dropUnsent c n s) = fenceView s := fenceView_dropHolders ..

@[simp] theorem fenceView_killPath (i j : Nat) (p : Copy → Bool) (l : List Nat) : fenceView (killPath i j p l s) = fenceView s := by
  unfold killPath
  simp only [fenceView_releaseSeq, fenceView_foldS _ (fun c t => fenceView_discardCrossed t _ _ _ _ _ c), fenceView_setReseq,
    fenceView_setPath]
  cases (pathOf s i j).cur <;> cases (pathOf s i j).nxt <;> simp only [apply_ite fenceView, fenceView_dropUnsent, ite_self]

@[simp] theorem fenceView_fencePlane (p : Nat) : fenceView (fencePlane p s) = fenceView s := by
  rw [fencePlane, fenceView_foldS, fenceView_setLnd]
  intro ij t
  simp only [apply_ite fenceView, fenceView_killPath, ite_self]

@[simp] theorem fenceView_fenceGroup (g : Nat) : fenceView (fenceGroup g s) = fenceView s := by
  rw [fenceGroup, fenceView_foldS, fenceView_doomVoqs _ _ _ fun c t => fenceView_discardSpilled t ..,
    fenceView_removeVoqs _ _ _ fun c t => fenceView_discardQueued t ..]
  intro x t
  simp only [apply_ite fenceView, fenceView_killPath, ite_self]

/-! ### Kerf (R243) -/

@[simp] theorem fenceView_dropOrder (p : Nat) (c : Copy) : fenceView (dropOrder p c s) = fenceView s := rfl

@[simp] theorem fenceView_fenceEng (p e : Nat) (x : Eng) (c : Copy) : fenceView (fenceEng p e x c s) = fenceView s := by
  unfold fenceEng
  dsimp only
  rw [fenceView_dropOrder, fenceView_discardCrossed]
  exact fenceView_progEvt ..

@[simp] theorem fenceView_fenceKerf (p : Nat) : fenceView (fenceKerf p s) = fenceView s := by
  unfold fenceKerf purgeDone purgeQueue
  simp only [fenceView_foldS _ (fun c t => (fenceView_discardDone (dropOrder p c t) ..).trans (fenceView_dropOrder t p c)),
    fenceView_foldS _ (fun c t => fenceView_discardCrossed t _ _ _ _ _ c), fenceView_setKrf,
    fenceView_foldS _ (fun (b : Nat × Eng × Copy) t => fenceView_fenceEng t p b.1 b.2.1 b.2.2)]
  split <;> rfl

/-! ### DRAM (R358) and the reads of tally records (R375) -/

@[simp] theorem fenceView_cutWriting (k : Key) : fenceView (cutWriting k s) = fenceView s := by
  unfold cutWriting
  dsimp only
  split
  · rfl
  · simp only [apply_ite fenceView, fenceView_leaveRec, readLost, fenceView_discardSpilled, fenceView_dropHolders, fenceView_setVoq,
      fenceView_setDram, ite_self]

@[simp] theorem fenceView_cutReading (k : Key) (n : Nat) : fenceView (cutReading k n s) = fenceView s := by
  simp only [cutReading, giveStaging, apply_ite fenceView, fenceView_setBuf, fenceView_setVoq, fenceView_setDram, ite_self]

@[simp] theorem fenceView_cutDram (k : Key) (n : Nat) : fenceView (cutDram k n readLost s).2 = fenceView s :=
  fenceView_foldS (setVoq k _ s) (fun _ t => fenceView_discardSpilled t ..) _

@[simp] theorem fenceView_fenceChannel (ch : Nat) : fenceView (fenceChannel ch s) = fenceView s := by
  rw [fenceChannel, fenceView_setDram, fenceView_foldS, fenceView_cnt, fenceView_setDram,
    fenceView_foldS (f := fun (r : DReq) t => cnt .lkoSweepTokens (uChannel ch) 0 1 (cnt .dramSweepTokens r.cls 0 1 t)) _ fun _ _ => rfl]
  intro e t
  dsimp only
  split
  · rfl
  · rw [fenceView_toDirect, fenceView_setDram, fenceView_cutDram, fenceView_cutWriting, fenceView_cutReading]

theorem fenceView_startWake (ch r : Nat) : fenceView (startWake ch r s) = fenceView s := by
  unfold startWake
  split <;> rfl

theorem fenceView_countDelays : fenceView (countDelays s) = fenceView s :=
  foldS_keeps s fenceView _ (fun r t => by split <;> rfl) _

@[simp] theorem fenceView_enqueueReq (r : DReq) : fenceView (enqueueReq r s) = fenceView s := by
  refine (fenceView_countDelays _).trans ((fenceView_startWake _ _ _).trans ?_)
  split <;> rfl

@[simp] theorem fenceView_setRead (c : Nat) (x : Option TlyRead) : fenceView (setRead c x s) = fenceView s := rfl

@[simp] theorem fenceView_readEnd (j : TlyRead) : fenceView (readEnd j s) = fenceView s := by
  refine fenceView_answerLater _ _ _ _ ?_
  dsimp only
  split <;> rfl

@[simp] theorem fenceView_readOn (c n : Nat) : fenceView (readOn c n s) = fenceView s := by
  induction n generalizing s with
  | zero => rfl
  | succ n ih =>
    unfold readOn
    split
    · rfl
    · split
      · rfl
      · simp only [apply_ite fenceView, ih, fenceView_readEnd, fenceView_setRead, fenceView_enqueueReq, ite_self]

@[simp] theorem fenceView_tallyFence (ch : Nat) : fenceView (tallyFence ch s) = fenceView s := by
  rw [tallyFence, readAll, fenceView_foldS _ fun c t => fenceView_readOn t c _, fenceView_setCap]

/-! ### The effect of a fence (R491) -/

@[simp] theorem fenceView_fencePipe (u : Option Nat) (p : InPipe → Bool) : fenceView (fencePipe u p s) = fenceView s := by
  rw [fencePipe, fenceView_foldS, fenceView_setLnd]
  intro e t
  dsimp only
  split
  · rfl
  · split
    · rw [fenceView_blaze]
      split <;> rfl
    · rw [fenceView_ownerSub, fenceView_foldS _ fun x t => fenceView_freeCell t _ _ x, fenceView_setLnd, fenceView_blaze]
      split <;> rfl

/-- The units, the causes found and the ring. -/
def unitView (s : State) := (s.lko.units, s.lko.pendFence, s.ring)

theorem unitView_of {s t : State} (h : fenceView t = fenceView s) : unitView t = unitView s :=
  congrArg (fun x => (x.1, x.2.1, x.2.2.1)) h

theorem unitView_setMd (m : MdSt) : unitView { s with md := m } = unitView s := rfl

theorem unitView_fenceGroupUnit (g : Nat) : unitView (fenceGroupUnit g s) = unitView s := by
  unfold fenceGroupUnit
  refine (unitView_setMd ..).trans (unitView_of ?_)
  rw [fenceView_foldS (f := fun p t => fillBuckets p (portDown p t)) _ fun p t => fenceView_portDown t p, fenceView_fenceGroup,
    fenceView_setCap, fenceView_fencePipe]

/-- What was in flight inside a unit is discarded, and no unit changes. -/
theorem unitView_fenceEffect (u : Nat) : unitView (fenceEffect u s) = unitView s := by
  have hclear : fenceView (clearProg u s) = fenceView s := rfl
  unfold fenceEffect
  generalize clearProg u s = t at hclear
  rw [← unitView_of hclear]
  dsimp only
  split
  · refine unitView_of ?_
    rw [fenceView_setCap, fenceView_fencePipe]
  · split
    · exact unitView_of (fenceView_fenceKerf t _)
    · split
      · exact unitView_fenceGroupUnit t _
      · split
        · exact unitView_of (fenceView_fencePlane t _)
        · split
          · rfl
          · exact unitView_of ((fenceView_tallyFence _ _).trans (fenceView_fenceChannel t _))

end

end Sys2Proof.Machine

/-! ## Fences, unit resets, retries and retirement (R478, R481, R490, R491, R493) -/

namespace Sys2Proof.Machine

section
variable {s : State} {m u y : Nat}

theorem unitSt_of {t : State} (h : unitView t = unitView s) (y : Nat) : unitSt t y = unitSt s y := by
  rw [unitSt, show t.lko.units = s.lko.units from congrArg Prod.fst h, unitSt]

theorem pendFence_of {t : State} (h : unitView t = unitView s) : t.lko.pendFence = s.lko.pendFence :=
  congrArg (fun x => x.2.1) h

theorem ring_of {t : State} (h : unitView t = unitView s) : t.ring = s.ring := congrArg (fun x => x.2.2) h

/-! ### One fence (R490, R491) -/

/-- The record of a unit that is fenced with `m` at the present boundary. -/
def fencedWith (m y : Nat) (s : State) : UnitSt :=
  { epoch := ((unitSt s y).epoch + 1) % 16, epochRing := s.ring, fenced := true, with_ := m }

theorem fenceOne_fenced (h : isFenced s u = true) : fenceOne m u s = s := if_pos h

theorem unitView_fenceOne (h : isFenced s u = false) :
    unitView (fenceOne m u s) = unitView (modUnit u (fun _ => fencedWith m u s) s) := by
  rw [fenceOne, if_neg (by simp [h])]
  refine (unitView_of (fenceView_postTo ..)).trans ((unitView_fenceEffect ..).trans ?_)
  rfl

theorem fenceOne_frame : (fenceOne m u s).ring = s.ring ∧ (fenceOne m u s).lko.pendFence = s.lko.pendFence := by
  by_cases h : isFenced s u = true
  · rw [fenceOne_fenced h]
    exact ⟨rfl, rfl⟩
  · have hv := unitView_fenceOne (m := m) (by simpa using h)
    exact ⟨(ring_of hv).trans rfl, (pendFence_of hv).trans rfl⟩

/-- A fence changes the record of its unit, where that is not fenced, and no other. -/
theorem unitSt_fenceOne : unitSt (fenceOne m u s) y = if y = u ∧ isFenced s u = false then fencedWith m u s else unitSt s y := by
  by_cases h : isFenced s u = true
  · rw [fenceOne_fenced h, if_neg (by simp [h])]
  · have h : isFenced s u = false := by simpa using h
    rw [unitSt_of (unitView_fenceOne h)]
    by_cases hy : y = u
    · subst y
      rw [if_pos ⟨rfl, h⟩]
      exact unitSt_modUnit_self ..
    · rw [if_neg fun e => hy e.1]
      exact unitSt_modUnit_ne _ _ hy

/-- A fenced unit is not fenced again. -/
theorem unitSt_fenceOne_fenced (h : isFenced s y = true) : unitSt (fenceOne m u s) y = unitSt s y := by
  rw [unitSt_fenceOne, if_neg]
  rintro ⟨rfl, hu⟩
  simp [h] at hu

section
variable (l : List Nat)

theorem foldS_fenceOne_frame : (foldS l (fenceOne m) s).ring = s.ring ∧ (foldS l (fenceOne m) s).lko.pendFence = s.lko.pendFence :=
  foldS_induct (P := fun t => t.ring = s.ring ∧ t.lko.pendFence = s.lko.pendFence)
    (fun _ _ ⟨hr, hp⟩ => ⟨fenceOne_frame.1.trans hr, fenceOne_frame.2.trans hp⟩) l ⟨rfl, rfl⟩

theorem unitSt_foldS_fenced (h : isFenced s y = true) : unitSt (foldS l (fenceOne m) s) y = unitSt s y :=
  foldS_induct (P := fun t => unitSt t y = unitSt s y)
    (fun _ t ht => (unitSt_fenceOne_fenced (s := t) ((congrArg UnitSt.fenced ht).trans h)).trans ht) l rfl

theorem unitSt_foldS_other (h : y ∉ l) : unitSt (foldS l (fenceOne m) s) y = unitSt s y := by
  unfold foldS
  induction l generalizing s with
  | nil => rfl
  | cons a l ih =>
    obtain ⟨hne, hl⟩ := List.ne_and_not_mem_of_not_mem_cons h
    rw [List.foldl_cons, ih hl, unitSt_fenceOne, if_neg fun e => hne e.1]

/-- Every unit of the list that was not fenced is fenced at the present boundary. -/
theorem unitSt_foldS_fence (h : y ∈ l) (hf : isFenced s y = false) : unitSt (foldS l (fenceOne m) s) y = fencedWith m y s := by
  induction l generalizing s with
  | nil => cases h
  | cons a l ih =>
    show unitSt (foldS l (fenceOne m) (fenceOne m a s)) y = _
    by_cases hy : y = a
    · subst y
      have hself : unitSt (fenceOne m a s) a = fencedWith m a s := unitSt_fenceOne.trans (if_pos ⟨rfl, hf⟩)
      rw [unitSt_foldS_fenced l (congrArg UnitSt.fenced hself), hself]
    · have hother : unitSt (fenceOne m a s) y = unitSt s y := unitSt_fenceOne.trans (if_neg fun e => hy e.1)
      rw [ih ((List.mem_cons.mp h).resolve_left hy) ((congrArg UnitSt.fenced hother).trans hf), fencedWith, hother,
        fenceOne_frame.1, fencedWith]

end

/-! ### A unit and those that go with it (R478) -/

theorem fenceUnit_fenced (h : isFenced s u = true) : fenceUnit u s = s := if_pos h

theorem fenceUnit_open (h : isFenced s u = false) : fenceUnit u s = foldS (u :: withUnits s u) (fenceOne u) s := if_neg (by simp [h])

/-- The fence of a unit falls once, however often its cause was found. -/
theorem foldS_fenceUnit {l : List Nat} (hne : l ≠ []) (hl : ∀ x ∈ l, x = u) (h : isFenced s u = false) :
    foldS l fenceUnit s = fenceUnit u s := by
  cases l with
  | nil => exact absurd rfl hne
  | cons a l =>
    obtain ⟨rfl, hl⟩ := List.forall_mem_cons.mp hl
    have hself : isFenced (fenceUnit a s) a = true := by
      rw [fenceUnit_open h]
      exact congrArg UnitSt.fenced (unitSt_foldS_fence _ List.mem_cons_self h)
    exact foldS_fixed (s := fenceUnit a s) (l := l) fun x hx => by rw [hl x hx, fenceUnit_fenced hself]

theorem unitView_degrade (s : State) : unitView (degrade s) = unitView s := by
  unfold degrade setMode modeState
  dsimp only
  split
  · refine (unitView_of ((fenceView_postTo ..).trans (fenceView_foldS _ (fun p t => fenceView_pfcTo t false p) _))).trans ?_
    rfl
  · rfl

/-! ### The causes of a fence (R481, R490) -/

/-- The causes of a unit that are due are no longer kept. -/
def causesTaken (u : Nat) (s : State) : State :=
  { s with lko := { s.lko with pendFence := s.lko.pendFence.filter (fun e => !(e.1 == u && decide (e.2 < s.ran))) } }

theorem fenceRaise_due {r c : Nat} (hb : atBoundary s = true) (hm : (u, r) ∈ s.lko.pendFence) (hr : r < s.ran)
    (h : isFenced s u = false) : fenceRaise u c s = degrade (fenceUnit u (causesTaken u s)) := by
  have hany : s.lko.pendFence.any (fun e => e.1 == u && decide (e.2 < s.ran)) = true :=
    List.any_eq_true.mpr ⟨(u, r), hm, by simp [hr]⟩
  have hl : ∀ x ∈ (s.lko.pendFence.filter (fun e => e.1 == u && decide (e.2 < s.ran))).map Prod.fst, x = u := by
    intro x hx
    obtain ⟨e, he, rfl⟩ := List.mem_map.mp hx
    have := (List.mem_filter.mp he).2
    simp only [Bool.and_eq_true, beq_iff_eq] at this
    exact this.1
  have hne : (s.lko.pendFence.filter (fun e => e.1 == u && decide (e.2 < s.ran))).map Prod.fst ≠ [] :=
    List.ne_nil_of_mem (List.mem_map.mpr ⟨(u, r), List.mem_filter.mpr ⟨hm, by simp [hr]⟩, rfl⟩)
  refine (if_pos (by simp [hb, hany])).trans (congrArg degrade ?_)
  exact foldS_fenceUnit (s := causesTaken u s) hne hl h

theorem fenceRaise_cause {c : Nat} (h : atBoundary s = false ∨ fencePending s u = false) : fenceRaise u c s = fenceCause u c s := by
  refine if_neg ?_
  rcases h with h | h
  · simp [h]
  · have hno : s.lko.pendFence.any (fun e => e.1 == u && decide (e.2 < s.ran)) = false := by
      refine List.any_eq_false.mpr fun e he hu => ?_
      have := List.any_eq_false.mp h e he
      simp_all
    simp [hno]

theorem fenceCause_found {c : Nat} (hp : unitPresent s.variant u = true) (h1 : 1 ≤ c) (h2 : c ≤ fenceCauses u) :
    fenceCause u c s = fenceFault u (if 48 ≤ u then 0x0C02 else 0x0F01) 255 [c] s := if_pos (by simp [hp, h1, h2])

theorem fenceCause_none {c : Nat} (h : c = 0 ∨ fenceCauses u < c ∨ unitPresent s.variant u = false) : fenceCause u c s = s := by
  refine if_neg ?_
  rcases h with h | h | h
  · simp [h]
  · simp [Nat.not_le.mpr h]
  · simp [h]

variable {k c : Nat} {d : List Nat}

/-- A cause found on a unit that can be fenced is recorded, and its fence waits for the next boundary. -/
theorem fenceFault_first (hf : isFenced s u = false) (hp : fencePending s u = false) (hu : fenceable u = true)
    (hb : bothPlanes s u = false) : fenceFault u k c d s =
      let t := newRec 1 u k c (((unitSt s u).epoch + 1) % 16) d s
      { t with lko := { t.lko with pendFence := t.lko.pendFence ++ [(u, s.ran)] } } := by
  refine (if_neg (by simp [hf, hp])).trans ((if_neg (by simp [hu, hb])).trans ?_)
  dsimp only
  rw [newRec_ran]

/-- A cause found again before the boundary is a NOTE. -/
theorem fenceFault_again (h : fencePending s u = true) : fenceFault u k c d s = note u k c d s := if_pos (by simp [h])

/-! ### Resets (R493, R502) -/

theorem unitReset_begins (h1 : (unitSt s u).fenced = true) (h2 : (unitSt s u).ready = false) (h3 : (unitSt s u).retired = false)
    (h4 : (unitSt s u).resetting = false) (h5 : (unitSt s u).epochRing < s.ring) (h6 : resetWaits s u = false) :
    unitReset u s = modUnit u (fun x => { x with resetting := true }) s := if_pos (by simp [h1, h2, h3, h4, h5, h6])

theorem unitReset_idle (h : (unitSt s u).fenced = false ∨ (unitSt s u).ready = true ∨ (unitSt s u).retired = true ∨
    s.ring ≤ (unitSt s u).epochRing ∨ resetWaits s u = true) : unitReset u s = s := by
  refine if_neg ?_
  rcases h with h | h | h | h | h
  · simp [h]
  · simp [h]
  · simp [h]
  · simp [Nat.not_lt.mpr h]
  · simp [h]

theorem firebreakReady_idle (b : Bool) (h : (unitSt s u).resetting = false) : firebreakReady u b s = s := if_pos (by simp [h])

theorem firebreakReady_pass (h : (unitSt s u).resetting = true) : firebreakReady u true s =
    readyEvent u 0 (reload u (modUnit u (fun x => { x with resetting := false, ready := true }) s)) := by
  simp [firebreakReady, h]

/-- A reset that fails is repeated, and the third failure retires the unit. -/
theorem firebreakReady_fail (h : (unitSt s u).resetting = true) : firebreakReady u false s =
    let n := (unitSt s u).attempts + 1
    readyEvent u (if n < 3 then 1 else 2) (modUnit u (fun x =>
      { x with attempts := n, resetting := decide (n < 3), retired := decide (3 ≤ n) })
      (note u 0x0F02 255 [n] (cnt .lkoResetFail u 0 1 s))) := by
  simp [firebreakReady, h]

end

end Sys2Proof.Machine

namespace Sys2Proof.Proofs
open Machine

/-- Settles O36: the causes, the fence of a unit and those with it by what it leaves of every unit's record, and the resets. -/
theorem fences : Obligations.Fences := by
  intro s u hh
  refine ⟨fun c hp hf h1 h2 hnf hnp hbp => ?_, fun c hp h1 h2 hpend hb => ?_, fun c r hb hm hr hnf => ?_,
    fun c hnp h => ?_, fun h1 h2 => ?_,
    fun h1 h2 => ?_, fun h1 => ?_, fun h1 h2 h3 h4 h5 h6 => row_running hh (unitReset_begins h1 h2 h3 h4 h5 h6),
    fun h => row_running hh (unitReset_idle h), fun h => row_running hh (firebreakReady_pass h), fun h ha => ?_, fun h ha => ?_,
    fun h ok => row_running hh (firebreakReady_idle ok h)⟩
  · exact row_running hh ((fenceRaise_cause (.inr hnp)).trans ((fenceCause_found hp h1 h2).trans (fenceFault_first hnf hnp hf hbp)))
  · exact row_running hh ((fenceRaise_cause (.inl hb)).trans ((fenceCause_found hp h1 h2).trans (fenceFault_again hpend)))
  · have hv := unitView_degrade (fenceUnit u (causesTaken u s))
    have hopen : fenceUnit u (causesTaken u s) = _ := fenceUnit_open (s := causesTaken u s) hnf
    have hunit : unitSt (degrade (fenceUnit u (causesTaken u s))) u = fencedWith u u s := by
      rw [unitSt_of hv, hopen]
      exact unitSt_foldS_fence _ List.mem_cons_self hnf
    refine ⟨_, row_running hh (fenceRaise_due hb hm hr hnf), ?_, ?_, ?_, ?_, ?_, fun y hy hyf => ?_, fun y hne hy => ?_⟩
    · rw [pendFence_of hv, hopen, (foldS_fenceOne_frame _).2]
      rfl
    · rw [hunit]
      rfl
    · rw [hunit]
      rfl
    · rw [hunit]
      rfl
    · rw [hunit]
      rfl
    · have hwith : unitSt (degrade (fenceUnit u (causesTaken u s))) y = fencedWith u y s := by
        rw [unitSt_of hv, hopen]
        exact unitSt_foldS_fence _ (List.mem_cons_of_mem _ hy) hyf
      rw [hwith]
      exact ⟨rfl, rfl, rfl⟩
    · rw [unitSt_of hv, hopen]
      exact unitSt_foldS_other _ (List.not_mem_cons_of_ne_of_not_mem hne hy)
  · exact row_running hh ((fenceRaise_cause (.inr hnp)).trans (fenceCause_none h))
  · exact row_running hh (if_pos ⟨h1, h2⟩)
  · exact row_running hh ((if_neg (by omega)).trans (if_pos ⟨h1, h2⟩))
  · exact row_running hh ((if_neg (by omega)).trans ((if_neg (by omega)).trans (if_pos ⟨h1, u.isLt⟩)))
  · refine row_running hh ((firebreakReady_fail h).trans ?_)
    simp only [show (unitSt s u).attempts + 1 < 3 by omega, show ¬ 3 ≤ (unitSt s u).attempts + 1 by omega, if_true, decide_true,
      decide_false]
  · refine row_running hh ((firebreakReady_fail h).trans ?_)
    simp only [show ¬ (unitSt s u).attempts + 1 < 3 by omega, show 3 ≤ (unitSt s u).attempts + 1 by omega, if_false, decide_true,
      decide_false]

end Sys2Proof.Proofs

/-! ## Pipeline gating and night-trim steps (R515 to R518) -/

namespace Sys2Proof.Machine

/-! ### What a group's sleep leaves (R515) -/

/-- The units, the sleep of the groups, what their lifts will apply, and the idle time in force. -/
def sleepView (s : State) := (s.lko.units, s.md.asleep, s.md.sleepRec, s.md.idleOverride)

section
variable (s : State)

theorem sleepView_of {s t : State} (h : fenceView t = fenceView s) : sleepView t = sleepView s := by
  simp only [fenceView, Prod.mk.injEq] at h
  obtain ⟨hu, -, -, hm⟩ := h
  rw [sleepView, hu, hm, sleepView]

theorem sleepView_foldS {α : Type} {f : α → State → State} (h : ∀ a t, sleepView (f a t) = sleepView t) (l : List α) :
    sleepView (foldS l f s) = sleepView s := foldS_keeps s sleepView f h l

theorem sleepView_cycleStop (u : Nat) : sleepView (cycleStop u s) = sleepView s := by
  unfold cycleStop
  split <;> rfl

theorem sleepView_cycleRun (u : Nat) : sleepView (cycleRun u s) = sleepView s := by
  unfold cycleRun
  dsimp only
  split <;> rfl

theorem sleepView_portSrcLost (p : Nat) : sleepView (portSrcLost p s) = sleepView s := by
  unfold portSrcLost
  split
  · split <;> rfl
  · rfl

theorem sleepView_ungate (p : Nat) : sleepView (ungate p s) = sleepView s := by
  unfold ungate
  split
  · rw [sleepView_cycleRun, sleepView_cycleRun]
    rfl
  · rfl

theorem sleepView_trainPorts (g : Nat) : sleepView (trainPorts g s) = sleepView s :=
  sleepView_foldS s (f := fun p => modPort p (fun q => { q with trainFrom := s.ran })) (fun _ _ => rfl) _

theorem sleepView_groupPower (g : Nat) (on : Bool) (c : Nat) : sleepView (groupPower g on c s) = sleepView s :=
  sleepView_of (fenceView_postTo ..)

/-- A group that sleeps or wakes changes its own entry alone. -/
theorem sleepView_groupSleep {g : Nat} {on : Bool} {c : Nat} (h : asleep s g ≠ on) : sleepView (groupSleep g on c s) =
    sleepView { s with md := { s.md with asleep := tput false s.md.asleep (k1 g) on } } := by
  unfold groupSleep
  rw [if_neg h]
  cases on
  · simp only [sleepView_groupPower, Bool.false_eq_true, if_false]
    rw [sleepView_foldS (f := fun c t => modCage c (fun x => cagePowerAt t c x.temp x) t) _ fun _ _ => rfl, sleepView_trainPorts,
      sleepView_ungate, sleepView_cycleRun]
  · simp only [sleepView_groupPower, if_true]
    rw [sleepView_foldS (f := fun c => modCage c (fun x => { x with highPower := false })) _ fun _ _ => rfl, sleepView_foldS,
      sleepView_cycleStop]
    intro p t
    rw [sleepView_portSrcLost, sleepView_of (fenceView_portDown ..)]

end

section
variable {s t : State} {g : Nat} {on : Bool} {c : Nat}

theorem groupFenced_of (h : t.lko.units = s.lko.units) (g : Nat) : groupFenced t g = groupFenced s g := by
  simp only [groupFenced, isFenced, unitSt, h]

/-- What a sleep command leaves: the entry of a group in service, or what the lift of a fenced one will apply. -/
theorem groupSleepCmd_fenced (h : groupFenced s g = true) : groupSleepCmd g on c s =
    { s with md := { s.md with sleepRec := tput (false, 0) s.md.sleepRec (k1 g) (on, c) } } := if_pos h

theorem sleepView_groupSleepCmd (h : groupFenced s g = false) : (groupSleepCmd g on c s).lko.units = s.lko.units ∧
    (∀ x, asleep (groupSleepCmd g on c s) x = if x = g then on else asleep s x) ∧
    (groupSleepCmd g on c s).md.sleepRec = s.md.sleepRec ∧ (groupSleepCmd g on c s).md.idleOverride = s.md.idleOverride := by
  rw [show groupSleepCmd g on c s = groupSleep g on c s from if_neg (by simp [h])]
  by_cases ha : asleep s g = on
  · rw [show groupSleep g on c s = s from if_pos ha]
    refine ⟨rfl, fun x => ?_, rfl, rfl⟩
    split
    · subst x
      exact ha
    · rfl
  · have hv := sleepView_groupSleep s (c := c) ha
    simp only [sleepView, Prod.mk.injEq] at hv
    obtain ⟨hu, hs, hr, hi⟩ := hv
    refine ⟨hu, fun x => ?_, hr, hi⟩
    rw [asleep, hs]
    split
    · subst x
      exact tget_tput_self ..
    · exact tget_tput_ne _ _ _ (by simpa [k1] using ‹_›)

end

/-! ### A night-trim step over the groups (R515, R518) -/

/-- The first `n` groups have been set as `b` says: those in service sleep or wake, those behind a firebreak have it recorded. -/
structure Trimmed (b : Nat → Bool) (n : Nat) (s t : State) : Prop where
  units : t.lko.units = s.lko.units
  idle : t.md.idleOverride = s.md.idleOverride
  set : ∀ g, g < n → groupFenced s g = false → asleep t g = b g
  kept : ∀ g, groupFenced s g = true → asleep t g = asleep s g
  recorded : ∀ g, g < n → groupFenced s g = true → tget (false, 0) t.md.sleepRec (k1 g) = (b g, 1)

theorem Trimmed.step {b : Nat → Bool} {n : Nat} {s t : State} (h : Trimmed b n s t) :
    Trimmed b (n + 1) s (groupSleepCmd n (b n) 1 t) := by
  have hfen (g : Nat) : groupFenced t g = groupFenced s g := groupFenced_of h.units g
  cases hn : groupFenced s n with
  | true =>
    rw [groupSleepCmd_fenced ((hfen n).trans hn)]
    refine ⟨h.units, h.idle, fun g hg hf => h.set g ?_ hf, h.kept, fun g hg hf => ?_⟩
    · have : g ≠ n := by
        rintro rfl
        simp [hn] at hf
      omega
    · by_cases hgn : g = n
      · subst g
        exact tget_tput_self ..
      · exact (tget_tput_ne _ _ _ (by simp [k1, hgn])).trans (h.recorded g (by omega) hf)
  | false =>
    obtain ⟨hu, ha, hr, hi⟩ := sleepView_groupSleepCmd (on := b n) (c := 1) ((hfen n).trans hn)
    have hne (g : Nat) (hf : groupFenced s g = true) : g ≠ n := by
      rintro rfl
      simp [hn] at hf
    refine ⟨hu.trans h.units, hi.trans h.idle, fun g hg hf => ?_, fun g hf => ?_, fun g hg hf => ?_⟩
    · rw [ha]
      split
      · subst g
        rfl
      · exact h.set g (by omega) hf
    · rw [ha, if_neg (hne g hf), h.kept g hf]
    · have := hne g hf
      rw [hr]
      exact h.recorded g (by omega) hf

theorem trimmed_foldS (b : Nat → Bool) (n : Nat) (s : State) :
    Trimmed b n s (foldS (List.range n) (fun g => groupSleepCmd g (b g) 1) s) := by
  induction n with
  | zero => exact ⟨rfl, rfl, fun g hg => absurd hg (Nat.not_lt_zero g), fun _ _ => rfl, fun g hg => absurd hg (Nat.not_lt_zero g)⟩
  | succ n ih =>
    rw [foldS_range_succ]
    exact ih.step

section
variable {s : State} {e : List Byte}

/-- A step that applies sets the idle time and all 16 groups. -/
theorem sleepStep_ntApply (h : s.md.sleepDue = []) : sleepStep (ntApply e s) =
    foldS (List.range 16) (fun g => groupSleepCmd g ((leAt e 8 2).testBit g) 1)
      { s with md := { s.md with sleepDue := [], idleOverride := if leAt e 10 1 = 1 then some (leAt e 12 4) else none } } := by
  simp only [sleepStep, ntApply, h, List.nil_append, foldS, List.foldl_map]

theorem nightStep_idle (h : ntEnabled s.md.ntrim = false ∨ ntPassed s.md.ntrim s.md.trimDone s.ring = false) :
    nightStep s.ring s = { s with md := { s.md with trimDone := s.ring } } := by
  rcases h with h | h <;> simp [nightStep, h]

theorem nightStep_due (h1 : ntEnabled s.md.ntrim = true) (h2 : ntPassed s.md.ntrim s.md.trimDone s.ring = true)
    (he : ntInForce s.md.ntrim s.ring = some e) : nightStep s.ring s = ntApply e { s with md := { s.md with trimDone := s.ring } } := by
  simp [nightStep, h1, h2, ntAt, he]

/-- The state in which a night-trim step begins to set the groups. -/
def trimStart (e : List Byte) (s : State) : State :=
  { s with md := { s.md with trimDone := s.ring, sleepDue := [], idleOverride := if leAt e 10 1 = 1 then some (leAt e 12 4) else none } }

theorem sleepStep_nightStep (hd : s.md.sleepDue = []) (h1 : ntEnabled s.md.ntrim = true)
    (h2 : ntPassed s.md.ntrim s.md.trimDone s.ring = true) (he : ntInForce s.md.ntrim s.ring = some e) :
    sleepStep (nightStep s.ring s) = foldS (List.range 16) (fun g => groupSleepCmd g ((leAt e 8 2).testBit g) 1) (trimStart e s) := by
  rw [nightStep_due h1 h2 he, sleepStep_ntApply (by exact hd)]
  rfl

/-! ### Gating (R516) -/

theorem pipelineGate_idle {p : Nat} (h1 : asleep s (2 * p) = true) (h2 : asleep s (2 * p + 1) = true) (h3 : pipeEmpty s p = true)
    (h4 : tget false s.md.gated (k1 p) = false) : pipelineGate p s = cycleStop (uIngress p) (cycleStop (uEgress p) { s with md :=
      { s.md with gated := tput false s.md.gated (k1 p) true, waking := tput false s.md.waking (k1 p) false } }) :=
  if_pos (by simp [h1, h2, h3, h4])

theorem pipelineGate_used {p : Nat} (h : asleep s (2 * p) = false ∨ asleep s (2 * p + 1) = false ∨ pipeEmpty s p = false) :
    pipelineGate p s = s := by
  refine if_neg ?_
  rcases h with h | h | h <;> simp [h]

end

end Sys2Proof.Machine

namespace Sys2Proof.Proofs
open Machine

/-- Settles O39: a night-trim step by the fold over the groups that it sets, the gates by their conditions. -/
theorem lowPower : Obligations.LowPower := by
  intro s hh hd
  refine ⟨fun hb => ⟨boundaryRow_off _ hb, fun p => boundaryRow_off _ hb⟩, fun p hb h1 h2 h3 h4 => ?_,
    fun p h => boundaryRow_idle hh fun _ => pipelineGate_used h, fun p => row_running hh rfl,
    fun hb => ⟨fun h => ?_, fun h => ?_, fun h1 h2 e he => ?_⟩⟩
  · exact (boundaryRow_at _ hh hb).trans (congrArg Host.Outcome.next (pipelineGate_idle h1 h2 h3 h4))
  · exact (boundaryRow_at _ hh hb).trans (congrArg Host.Outcome.next
      ((congrArg sleepStep (nightStep_idle (.inl h))).trans (sleepStep_idle hd)))
  · exact (boundaryRow_at _ hh hb).trans (congrArg Host.Outcome.next
      ((congrArg sleepStep (nightStep_idle (.inr h))).trans (sleepStep_idle hd)))
  · obtain ⟨-, hidle, hset, hkept, hrec⟩ := trimmed_foldS (fun g => (leAt e 8 2).testBit g) 16 (trimStart e s)
    exact ⟨_, (boundaryRow_at _ hh hb).trans (congrArg Host.Outcome.next (sleepStep_nightStep hd h1 h2 he)), hidle, hset,
      fun g hg hf => ⟨hkept g hf, hrec g hg hf⟩⟩

end Sys2Proof.Proofs
